-- ==== Sys2Proof/Word.lean ====
section
/-! DEFINITION. The words, bytes and keyed tables that every part of the model speaks of. -/

namespace Sys2Proof

/-- A 64-bit word: the width of a register (R32), an address (R6) and an instruction of a cluster (R211). -/
abbrev Word := BitVec 64

/-- One byte. -/
abbrev Byte := BitVec 8

/-- A table from numbers to values, as a list of pairs; what an unlisted key holds is said by the reader
(`Tab.get`, in Sys2Proof/Machine/Tab.lean). -/
abbrev Tab (α : Type) := List (Nat × α)

end Sys2Proof
end

