-- ==== Sys2Proof/Syntax.lean ====
section
/-! DEFINITION. The commands of the block: one constructor of `Instr` for each row of spec/opcode_table.json,
and the plain data their operands are made of. A command names an event of one unit; what the unit then does is
read from the state (its program, its issue queue, its lists), so most operands only name the unit. -/

namespace Sys2Proof

/-- The four words of a Jonath header (R507), field by field. `res` gathers the reserved bits of words 1 and 2. -/
structure JHdr where
  dpkg    : BitVec 14
  daddr   : BitVec 50
  spkg    : BitVec 14
  seq     : BitVec 24
  op      : Byte
  len     : BitVec 10
  tc      : BitVec 3
  epoch   : BitVec 2
  sealed  : Bool
  key     : BitVec 16
  tenant  : BitVec 12
  code    : BitVec 16
  attempt : BitVec 3
  hops    : BitVec 4
  act     : BitVec 3
  res     : BitVec 12
  arg     : Word
  deriving DecidableEq, Repr

/-- A Jonath frame end to end: header, payload and CRC-32C (R508). -/
structure JFrame where
  hdr     : JHdr
  payload : List Byte
  crc     : BitVec 32
  deriving DecidableEq, Repr

/-- A frame as it arrives at the receiving end of a link (R503): prefix word, ciphertext and tag, and the codewords that the FEC has
corrected in it (R551). -/
structure LinkFrame where
  head : Word
  ct   : List Byte
  tag  : List Byte
  corr : Nat
  deriving DecidableEq, Repr

/-- What one end of a link sends in KEYING (R501): its ephemeral point, the signature of its device key, its certificates. -/
structure LinkHello where
  point : List Byte
  sig   : List Byte
  chain : List Byte
  deriving DecidableEq, Repr

/-- The creator tag of a lamplighter entry (R566): `unit` 0 and 1 the dispatchers of PD0 and PD1, 2 and 3 the
collective units of FD0 and FD1; `list` and `entry` name the list and entry of a dispatcher. -/
structure Creator where
  unit  : Nat
  list  : Nat
  entry : Nat
  deriving DecidableEq, Repr

/-- One request as a memory controller receives it (R459, R461): requester class, activity, tenant tag, local
HBM address within one 64-byte unit, the bytes of a write, and how many bytes of the stored unit are found bad
when it is read, beside the corrections that the stack itself reports for the access (R466). -/
structure MemReq where
  cls   : Nat
  act   : Nat
  tag   : BitVec 12
  addr  : Word
  write : Bool
  len   : Nat
  data  : List Byte
  prio  : Bool
  flips : Nat
  onDie : Nat
  deriving DecidableEq, Repr

/-- The header of a Buwen datagram (R685) and what its GCM tag check found; `fits` says that the Ethernet, IP and
UDP layers of R682 and R683 accept the frame. -/
structure BHdr where
  port    : Nat
  session : Nat
  seq     : Nat
  ack     : Nat
  nctr    : Nat
  tagOk   : Bool
  fits    : Bool
  deriving DecidableEq, Repr

/-- What an IEEE 1588 message says (R565): its kind and the time stamp it carries, in ticks. -/
inductive PtpKind where
  | announce
  | sync (t1 : Word)
  | followUp (t1 : Word)
  | syncTwoStep
  | delayResp (t4 : Word)
  | delayReq
  deriving DecidableEq, Repr

/-- What an IEEE 1588 message travels in (R565): UDP over IPv4 or IPv6, or Ethernet type 0x88F7. -/
inductive PtpVia where
  | udp4 | udp6 | ether
  deriving DecidableEq, Repr

/-- An IEEE 1588 message at a host port (R565). -/
structure PtpMsg where
  via  : PtpVia
  kind : PtpKind
  deriving DecidableEq, Repr

/-- What is found of a stored unit when it is read: how many of its bytes are bad, and the corrections that the stack itself reports
for the access (R466). -/
structure UnitErrs where
  bad   : Nat
  onDie : Nat
  deriving DecidableEq, Repr

/-- A control frame that a host port answers itself (R682). -/
inductive CtlFrame where
  | arp (target : BitVec 32)
  | neighbour (target : BitVec 128)
  | echo4 (target : BitVec 32) (data : List Byte)
  | echo6 (target : BitVec 128) (data : List Byte)
  deriving DecidableEq, Repr

/-- What one poll of the regulators returns (R754, R763): the current of each VDD_A rail in A, the power of all rails
in W, and the PMBus addresses that failed to answer three times or reported a fault (R755). -/
structure PmbusReadings where
  iout : List Nat
  pin  : Nat
  bad  : List Nat
  deriving DecidableEq, Repr

/-- How a start phase ends (R775): the images that phase 3 reads from slots A and B (empty where a slot holds none),
the stacks that fail training in phase 4, and the regulators that fail in phase 1. -/
structure BootResult where
  slotA     : List Byte
  slotB     : List Byte
  config    : List Byte
  badStacks : List Nat
  badRegs   : List Nat
  deriving DecidableEq, Repr

/-- The commands of the block, one constructor for each row of spec/opcode_table.json, in its order. -/
inductive Instr where
  /-- CC_NOP (R213): Control core executes NOP and does nothing. -/
  | ccNop (n : Nat)
  /-- CC_ADD (R213): Control core adds two scalar registers modulo 2^64. -/
  | ccAdd (n : Nat)
  /-- CC_SUB (R213): Control core subtracts two scalar registers modulo 2^64. -/
  | ccSub (n : Nat)
  /-- CC_AND (R213): Control core bitwise AND of two scalar registers. -/
  | ccAnd (n : Nat)
  /-- CC_OR (R213): Control core bitwise OR of two scalar registers. -/
  | ccOr (n : Nat)
  /-- CC_XOR (R213): Control core bitwise XOR of two scalar registers. -/
  | ccXor (n : Nat)
  /-- CC_SHL (R213): Control core shifts left by sRB mod 64. -/
  | ccShl (n : Nat)
  /-- CC_SHR (R213): Control core logical right shift by sRB mod 64. -/
  | ccShr (n : Nat)
  /-- CC_SRA (R213): Control core arithmetic right shift by sRB mod 64. -/
  | ccSra (n : Nat)
  /-- CC_MUL (R213): Control core writes the low 64 bits of a product. -/
  | ccMul (n : Nat)
  /-- CC_ADDI (R213): Control core adds a sign-extended immediate. -/
  | ccAddi (n : Nat)
  /-- CC_LI (R213): Control core loads a sign-extended immediate. -/
  | ccLi (n : Nat)
  /-- CC_MOVHI (R213): Control core places the immediate in the high 32 bits over sRA's low half. -/
  | ccMovhi (n : Nat)
  /-- CC_FCMP (R213): Control core compares two registers as FP64 and writes 1 or 0. -/
  | ccFcmp (n : Nat)
  /-- MOVU (R250): Control core copies a summary register, stopping with CL_SUM_INVALID if not valid. -/
  | movu (n : Nat)
  /-- MOVLC (R223): Control core reads the remaining iterations of a loop counter. -/
  | movlc (n : Nat)
  /-- WRLC (R213): Control core writes an inactive loop counter. -/
  | wrlc (n : Nat)
  /-- RDTIME (R213): Control core reads the node time of its die. -/
  | rdtime (n : Nat)
  /-- CC_LD (R215): Control core loads a 64-bit word from a full address and waits for it. -/
  | ccLd (n : Nat)
  /-- CC_ST (R215): Control core stores a 64-bit word and waits for acknowledgement. -/
  | ccSt (n : Nat)
  /-- CC_BR (R213): Control core branches on a register comparison. -/
  | ccBr (n : Nat)
  /-- CC_JAL (R213): Control core jumps and links. -/
  | ccJal (n : Nat)
  /-- JR (R213): Control core jumps to a register address. -/
  | jr (n : Nat)
  /-- LOOP (R218): Control core starts a hardware loop with a latched count. -/
  | loop (n : Nat)
  /-- LEXIT (R222): Control core deactivates the innermost active loop. -/
  | lexit (n : Nat)
  /-- HALT (R232): Control core ends the program once all issued instructions complete and reports its status. -/
  | halt (n : Nat)
  /-- MARK (R247): An engine increments a token once earlier instructions to it have completed. -/
  | mark (n e : Nat)
  /-- WAIT (R248): An engine or the control core decrements a token once it is above zero. -/
  | wait (n e : Nat)
  /-- WAITSUM (R249): Control core proceeds once the named summary registers are valid. -/
  | waitsum (n : Nat)
  /-- ECHK (R229): Control core reads and clears the refusal latch after earlier instructions complete. -/
  | echk (n : Nat)
  /-- QPUSH (R242): Control core pushes a descriptor into a queue it produces. -/
  | qpush (n : Nat)
  /-- ENGINE_ISSUE (R225): Control core checks an engine instruction and places it in the engine's issue queue. -/
  | engineIssue (n : Nat)
  /-- CC_WATCHDOG (R252): Cluster watchdog count reaches CC_WDOG.LIMIT and stops the program with CL_DEADLOCK. -/
  | ccWatchdog (n : Nat)
  /-- MMA (R124): Matrix engine pops operand tiles and opens, continues or closes an accumulation chain. -/
  | mma (n : Nat)
  /-- MSAVE (R135): Matrix engine pushes a bank's accumulators as raw tiles. -/
  | msave (n : Nat)
  /-- MREST (R136): Matrix engine pops saved accumulator tiles and opens a chain. -/
  | mrest (n : Nat)
  /-- MDROP (R140): Matrix engine closes a chain without output. -/
  | mdrop (n : Nat)
  /-- ME_DECISION (R145): After a chain's final addition the matrix engine takes the relight decision. -/
  | meDecision (n b : Nat)
  /-- ME_COMMIT (R130): Matrix engine drains a chain to FO, pushes the output tile and adds the chain's counts. -/
  | meCommit (n b : Nat)
  /-- WICK (R169): Element engine pops input tiles and runs a wick program over them. -/
  | wick (n : Nat)
  /-- ELOAD (R171): Element engine pops a tile into a tile buffer. -/
  | eload (n : Nat)
  /-- ESTORE (R171): Element engine pushes a tile buffer as a tile. -/
  | estore (n : Nat)
  /-- EPARAM (R172): Element engine copies a scalar register into a wick parameter. -/
  | eparam (n : Nat)
  /-- WLOAD (R173): Element engine pops a tile and copies 256 B into a wick slot. -/
  | wload (n : Nat)
  /-- EE_COMMIT (R192): Element engine completes its write, pushes the tile and adds its counts. -/
  | eeCommit (n : Nat)
  /-- SRCLR (R194): Side reduction unit empties a statistic set. -/
  | srclr (n : Nat)
  /-- SREAD (R198): Side reduction unit is asked for a summary and marks the register not valid. -/
  | sread (n : Nat)
  /-- SREAD_COMPLETE (R201): Once its dependencies commit, SREAD writes the summary register and marks it valid. -/
  | sreadComplete (n : Nat)
  /-- DLOAD (R257): Data mover reads strided rows, converts and pushes a tile. -/
  | dload (n : Nat)
  /-- DSTORE (R258): Data mover pops a tile, converts it and writes strided rows. -/
  | dstore (n : Nat)
  /-- DCOPY (R259): Data mover copies a byte range between memories. -/
  | dcopy (n : Nat)
  /-- DM_COMPLETE (R227): A data-mover instruction completes when its writes are visible or its push is made. -/
  | dmComplete (n i : Nat)
  /-- CMD_END (R271): Dispatcher waits as FENCE does and ends the list. -/
  | cmdEnd (pd l : Nat)
  /-- CMD_NOP (R269): Dispatcher passes a NOP entry. -/
  | cmdNop (pd l : Nat)
  /-- CMD_FENCE (R271): Dispatcher waits until every earlier entry has completed. -/
  | cmdFence (pd l : Nat)
  /-- FENCE_TIME (R271): Dispatcher waits until node time reaches the given value. -/
  | fenceTime (pd l : Nat)
  /-- LOAD_PROGRAM (R266): Dispatcher has target clusters' data movers check and copy a program image. -/
  | loadProgram (pd l : Nat)
  /-- BIND_QUEUES (R236): Dispatcher checks a binding table and binds the queues of target clusters. -/
  | bindQueues (pd l : Nat)
  /-- LAUNCH_AT (R274): Dispatcher checks, reserves and commits lamplighter entries for a cluster launch. -/
  | launchAt (pd l : Nat)
  /-- SET_REGION_KEY (R533): Dispatcher sets home region keys or an outgoing key entry. -/
  | setRegionKey (pd l : Nat)
  /-- COLLECTIVE (R572): Dispatcher offers collective descriptors to collective units. -/
  | collective (pd l : Nat)
  /-- LSE_SOLVE (R395): Dispatcher offers solve descriptors to least-squares engines. -/
  | lseSolve (pd l : Nat)
  /-- UU_APPLY (R425): Dispatcher offers layer tables to update units. -/
  | uuApply (pd l : Nat)
  /-- SNAPSHOT_DECLARE (R631): Snapshot engines check and hold a snapshot table. -/
  | snapshotDeclare (pd l : Nat)
  /-- SNAPSHOT_TAKE (R634): Snapshot engines accept a snapshot and invalidate the older buddy slot. -/
  | snapshotTake (pd l : Nat)
  /-- SNAPSHOT_CANCEL (R639): Snapshot engines end a copy in progress. -/
  | snapshotCancel (pd l : Nat)
  /-- SNAPSHOT_RESTORE (R643): Snapshot engines copy a generation back into the declared regions. -/
  | snapshotRestore (pd l : Nat)
  /-- DIGEST (R673): Dispatcher hashes the listed regions and writes a result record, signed if asked. -/
  | digest (pd l : Nat)
  /-- LIST_COMPLETE (R279): When a list ends and all its entries complete, the dispatcher writes the completion record. -/
  | listComplete (pd l : Nat)
  /-- LL_FIRE (R568): An armed lamplighter entry fires when the die's time base reaches T. -/
  | llFire (d : Nat)
  /-- LL_RESERVATION_LAPSE (R567): An uncommitted reservation lapses at T minus 4,000 ticks. -/
  | llReservationLapse (d : Nat)
  /-- LL_CANCEL (R571): A creator's cancel frees an entry or returns TM_CANCEL_LATE. -/
  | llCancel (d : Nat) (tag : Creator)
  /-- ADD (R292): Solver core integer add. -/
  | addR (c : Nat)
  /-- SUB (R292): Solver core integer subtract. -/
  | subR (c : Nat)
  /-- AND (R292): Solver core bitwise AND. -/
  | andR (c : Nat)
  /-- OR (R292): Solver core bitwise OR. -/
  | orR (c : Nat)
  /-- XOR (R292): Solver core bitwise XOR. -/
  | xorR (c : Nat)
  /-- SLL (R293): Solver core shift left by gB mod 64. -/
  | sll (c : Nat)
  /-- SRL (R293): Solver core logical shift right. -/
  | srl (c : Nat)
  /-- SRA (R293): Solver core arithmetic shift right. -/
  | sra (c : Nat)
  /-- SLT (R292): Solver core signed set-less-than. -/
  | slt (c : Nat)
  /-- SLTU (R292): Solver core unsigned set-less-than. -/
  | sltu (c : Nat)
  /-- MUL (R292): Solver core low multiply. -/
  | mul (c : Nat)
  /-- MULH (R292): Solver core signed high multiply. -/
  | mulh (c : Nat)
  /-- MULHU (R292): Solver core unsigned high multiply. -/
  | mulhu (c : Nat)
  /-- DIV (R293): Solver core signed divide without trapping. -/
  | div (c : Nat)
  /-- DIVU (R293): Solver core unsigned divide. -/
  | divu (c : Nat)
  /-- REM (R293): Solver core signed remainder. -/
  | rem (c : Nat)
  /-- REMU (R293): Solver core unsigned remainder. -/
  | remu (c : Nat)
  /-- CLZ (R292): Solver core count leading zeros. -/
  | clz (c : Nat)
  /-- POPC (R292): Solver core population count. -/
  | popc (c : Nat)
  /-- MIN (R292): Solver core integer minimum. -/
  | minR (c : Nat)
  /-- MAX (R292): Solver core integer maximum. -/
  | maxR (c : Nat)
  /-- ADDI (R290): Solver core add sign-extended immediate. -/
  | addi (c : Nat)
  /-- ANDI (R290): Solver core AND zero-extended immediate. -/
  | andi (c : Nat)
  /-- ORI (R290): Solver core OR zero-extended immediate. -/
  | ori (c : Nat)
  /-- XORI (R290): Solver core XOR zero-extended immediate. -/
  | xori (c : Nat)
  /-- SHI (R292): Solver core shift by immediate. -/
  | shi (c : Nat)
  /-- SLTI (R290): Solver core set-less-than immediate. -/
  | slti (c : Nat)
  /-- LHI (R292): Solver core loads an immediate times 2^16. -/
  | lhi (c : Nat)
  /-- PCREL (R292): Solver core forms a PC-relative address. -/
  | pcrel (c : Nat)
  /-- LDB (R294): Solver core loads a signed byte. -/
  | ldb (c : Nat)
  /-- LDBU (R294): Solver core loads an unsigned byte. -/
  | ldbu (c : Nat)
  /-- LDH (R294): Solver core loads a signed halfword. -/
  | ldh (c : Nat)
  /-- LDHU (R294): Solver core loads an unsigned halfword. -/
  | ldhu (c : Nat)
  /-- LDW (R294): Solver core loads a signed word. -/
  | ldw (c : Nat)
  /-- LDWU (R294): Solver core loads an unsigned word. -/
  | ldwu (c : Nat)
  /-- LDD (R294): Solver core loads a doubleword. -/
  | ldd (c : Nat)
  /-- FLD (R340): Solver core loads an FP register and zeroes the vector upper bits. -/
  | fld (c : Nat)
  /-- STB (R294): Solver core stores a byte. -/
  | stb (c : Nat)
  /-- STH (R294): Solver core stores a halfword. -/
  | sth (c : Nat)
  /-- STW (R294): Solver core stores a word. -/
  | stw (c : Nat)
  /-- STD (R294): Solver core stores a doubleword. -/
  | std (c : Nat)
  /-- FST (R294): Solver core stores an FP register. -/
  | fst (c : Nat)
  /-- BEQ (R292): Solver core branch if equal. -/
  | beq (c : Nat)
  /-- BNE (R292): Solver core branch if not equal. -/
  | bne (c : Nat)
  /-- BLT (R292): Solver core branch if signed less. -/
  | blt (c : Nat)
  /-- BGE (R292): Solver core branch if signed greater or equal. -/
  | bge (c : Nat)
  /-- BLTU (R292): Solver core branch if unsigned less. -/
  | bltu (c : Nat)
  /-- BGEU (R292): Solver core branch if unsigned greater or equal. -/
  | bgeu (c : Nat)
  /-- JAL (R292): Solver core jump and link. -/
  | jal (c : Nat)
  /-- JALR (R292): Solver core jump and link to register. -/
  | jalr (c : Nat)
  /-- FADD (R296): Solver core FP64 add. -/
  | fadd (c : Nat)
  /-- FSUB (R296): Solver core FP64 subtract. -/
  | fsub (c : Nat)
  /-- FMUL (R296): Solver core FP64 multiply. -/
  | fmul (c : Nat)
  /-- FDIV (R296): Solver core FP64 divide. -/
  | fdiv (c : Nat)
  /-- FSQRT (R296): Solver core FP64 square root. -/
  | fsqrt (c : Nat)
  /-- FMIN (R300): Solver core FP64 minimum. -/
  | fmin (c : Nat)
  /-- FMAX (R300): Solver core FP64 maximum. -/
  | fmax (c : Nat)
  /-- FCPS (R299): Solver core copies sign from fB. -/
  | fcps (c : Nat)
  /-- FNEG (R299): Solver core inverts the FP sign. -/
  | fneg (c : Nat)
  /-- FABS (R299): Solver core clears the FP sign. -/
  | fabs (c : Nat)
  /-- FEQ (R301): Solver core FP equality compare. -/
  | feq (c : Nat)
  /-- FLT (R301): Solver core FP less-than compare. -/
  | flt (c : Nat)
  /-- FLE (R301): Solver core FP less-or-equal compare. -/
  | fle (c : Nat)
  /-- FTOI (R302): Solver core converts FP64 to signed integer. -/
  | ftoi (c : Nat)
  /-- FTOU (R302): Solver core converts FP64 to unsigned integer. -/
  | ftou (c : Nat)
  /-- ITOF (R296): Solver core converts signed integer to FP64. -/
  | itof (c : Nat)
  /-- UTOF (R296): Solver core converts unsigned integer to FP64. -/
  | utof (c : Nat)
  /-- FMVG (R299): Solver core moves FP bits to an integer register. -/
  | fmvg (c : Nat)
  /-- GMVF (R299): Solver core moves integer bits to an FP register. -/
  | gmvf (c : Nat)
  /-- FCLS (R302): Solver core writes a one-hot FP class. -/
  | fcls (c : Nat)
  /-- FRND (R296): Solver core rounds to an integral FP64 value. -/
  | frnd (c : Nat)
  /-- FMADD (R292): Solver core fused A×B+C. -/
  | fmadd (c : Nat)
  /-- FMSUB (R292): Solver core fused A×B−C. -/
  | fmsub (c : Nat)
  /-- FNMSUB (R292): Solver core fused −(A×B)+C. -/
  | fnmsub (c : Nat)
  /-- FNMADD (R292): Solver core fused −(A×B)−C. -/
  | fnmadd (c : Nat)
  /-- AADD (R324): Solver core atomic add. -/
  | aadd (c : Nat)
  /-- AFADD (R324): Solver core atomic FP64 add. -/
  | afadd (c : Nat)
  /-- AMAX (R324): Solver core atomic signed maximum. -/
  | amax (c : Nat)
  /-- AMIN (R324): Solver core atomic signed minimum. -/
  | amin (c : Nat)
  /-- ASWAP (R324): Solver core atomic swap. -/
  | aswap (c : Nat)
  /-- ACAS (R324): Solver core atomic compare and swap. -/
  | acas (c : Nat)
  /-- FENCE (R323): Solver core waits until every earlier access has completed and is visible. -/
  | fence (c : Nat)
  /-- FENCEI (R319): Solver core discards stale prefetched instructions. -/
  | fencei (c : Nat)
  /-- SYS (R306): Solver core raises a system call exception. -/
  | sys (c : Nat)
  /-- BRK (R305): Solver core raises a breakpoint exception. -/
  | brk (c : Nat)
  /-- ERET (R308): Solver core returns from a trap. -/
  | eret (c : Nat)
  /-- WFE (R309): Solver core stalls until an enabled interrupt is pending. -/
  | wfe (c : Nat)
  /-- WFE_WAKE (R309): A stalled WFE resumes when an enabled interrupt becomes pending. -/
  | wfeWake (c : Nat)
  /-- SIG (R310): Solver core sends a signal interrupt to another core. -/
  | sig (c : Nat)
  /-- SRR (R331): Solver core reads a system register. -/
  | srr (c : Nat)
  /-- SRW (R331): Solver core writes a system register. -/
  | srw (c : Nat)
  /-- POST (R327): Solver core posts a command list to a dispatcher and receives its answer. -/
  | post (c : Nat)
  /-- INTERRUPT_TAKE (R307): A solver core takes a pending enabled interrupt. -/
  | interruptTake (c : Nat)
  /-- TCMP_REACHED (R334): Node time reaches SC_TCMP and the time interrupt becomes pending. -/
  | tcmpReached (c : Nat)
  /-- SETVL (R342): Solver core grants a vector length and sets the element width. -/
  | setvl (c : Nat)
  /-- VEXT (R354): Extract one vector element to an integer register. -/
  | vext (c : Nat)
  /-- VINS (R354): Insert an integer into one vector element. -/
  | vins (c : Nat)
  /-- VBCAST (R354): Broadcast an integer to the vector elements. -/
  | vbcast (c : Nat)
  /-- VFBCAST (R354): Broadcast an FP value to the vector elements. -/
  | vfbcast (c : Nat)
  /-- MAND (R354): Mask AND. -/
  | mand (c : Nat)
  /-- MOR (R354): Mask OR. -/
  | mor (c : Nat)
  /-- MXOR (R354): Mask XOR. -/
  | mxor (c : Nat)
  /-- MNOT (R354): Mask NOT. -/
  | mnot (c : Nat)
  /-- MPOP (R354): Count set mask bits below vl. -/
  | mpop (c : Nat)
  /-- MFIRST (R354): Find the lowest set mask bit below vl. -/
  | mfirst (c : Nat)
  /-- MTOG (R354): Move a mask to an integer register. -/
  | mtog (c : Nat)
  /-- GTOM (R354): Move an integer register to a mask. -/
  | gtom (c : Nat)
  /-- VFADD (R350): Vector FP add. -/
  | vfadd (c : Nat)
  /-- VFSUB (R350): Vector FP subtract. -/
  | vfsub (c : Nat)
  /-- VFMUL (R350): Vector FP multiply. -/
  | vfmul (c : Nat)
  /-- VFDIV (R350): Vector FP divide. -/
  | vfdiv (c : Nat)
  /-- VFSQRT (R350): Vector FP square root. -/
  | vfsqrt (c : Nat)
  /-- VFMIN (R350): Vector FP minimum. -/
  | vfmin (c : Nat)
  /-- VFMAX (R350): Vector FP maximum. -/
  | vfmax (c : Nat)
  /-- VFMA (R350): Vector fused a×b+d. -/
  | vfma (c : Nat)
  /-- VFMS (R350): Vector fused a×b−d. -/
  | vfms (c : Nat)
  /-- VFNMA (R350): Vector fused −(a×b)+d. -/
  | vfnma (c : Nat)
  /-- VFABS (R350): Vector sign clear. -/
  | vfabs (c : Nat)
  /-- VFNEG (R350): Vector sign inversion. -/
  | vfneg (c : Nat)
  /-- VFEQ (R353): Vector FP equality into a mask. -/
  | vfeq (c : Nat)
  /-- VFLT (R353): Vector FP less-than into a mask. -/
  | vflt (c : Nat)
  /-- VFLE (R353): Vector FP less-or-equal into a mask. -/
  | vfle (c : Nat)
  /-- VMERGE (R350): Vector merge under a mask. -/
  | vmerge (c : Nat)
  /-- VFTOI (R352): Vector FP to signed integer. -/
  | vftoi (c : Nat)
  /-- VITOF (R352): Vector signed integer to FP. -/
  | vitof (c : Nat)
  /-- VFW (R352): Vector widen FP32 to FP64. -/
  | vfw (c : Nat)
  /-- VFN (R352): Vector narrow FP64 to FP32. -/
  | vfn (c : Nat)
  /-- VADD (R350): Vector integer add. -/
  | vadd (c : Nat)
  /-- VSUB (R350): Vector integer subtract. -/
  | vsub (c : Nat)
  /-- VMUL (R350): Vector integer low multiply. -/
  | vmul (c : Nat)
  /-- VAND (R350): Vector AND. -/
  | vand (c : Nat)
  /-- VOR (R350): Vector OR. -/
  | vor (c : Nat)
  /-- VXOR (R350): Vector XOR. -/
  | vxor (c : Nat)
  /-- VSLL (R350): Vector shift left. -/
  | vsll (c : Nat)
  /-- VSRL (R350): Vector logical shift right. -/
  | vsrl (c : Nat)
  /-- VSRA (R350): Vector arithmetic shift right. -/
  | vsra (c : Nat)
  /-- VMIN (R350): Vector signed minimum. -/
  | vmin (c : Nat)
  /-- VMAX (R350): Vector signed maximum. -/
  | vmax (c : Nat)
  /-- VSEQ (R353): Vector integer equality into a mask. -/
  | vseq (c : Nat)
  /-- VSLT (R353): Vector signed less-than into a mask. -/
  | vslt (c : Nat)
  /-- VIDX (R350): Vector writes element indices. -/
  | vidx (c : Nat)
  /-- VPERM (R356): Vector permute by an index vector. -/
  | vperm (c : Nat)
  /-- VSHUP (R356): Vector shift elements up. -/
  | vshup (c : Nat)
  /-- VSHDN (R356): Vector shift elements down. -/
  | vshdn (c : Nat)
  /-- VPACK (R356): Vector pack active elements. -/
  | vpack (c : Nat)
  /-- VFSUMT (R357): Vector FP tree sum into a scalar. -/
  | vfsumt (c : Nat)
  /-- VFSUMS (R358): Vector FP sequential sum into a scalar. -/
  | vfsums (c : Nat)
  /-- VFMAXT (R357): Vector FP tree maximum. -/
  | vfmaxt (c : Nat)
  /-- VFMINT (R357): Vector FP tree minimum. -/
  | vfmint (c : Nat)
  /-- VSUMT (R356): Vector integer sum into a scalar. -/
  | vsumt (c : Nat)
  /-- VLD (R360): Vector unit-stride load. -/
  | vld (c : Nat)
  /-- VLDS (R360): Vector strided load. -/
  | vlds (c : Nat)
  /-- VLDX (R360): Vector indexed load. -/
  | vldx (c : Nat)
  /-- VST (R360): Vector unit-stride store. -/
  | vst (c : Nat)
  /-- VSTS (R360): Vector strided store. -/
  | vsts (c : Nat)
  /-- VSTX (R360): Vector indexed store. -/
  | vstx (c : Nat)
  /-- LSE_PHASE_END (R373): A least-squares engine finishes a phase of its iteration and starts the next. -/
  | lsePhaseEnd (n : Nat)
  /-- LSE_POLL (R408): Every 256 ns in WAIT the LSE polls the expected ring slot and tests a valid batch. -/
  | lsePoll (n : Nat)
  /-- LSE_DEADLINE (R411): A node-time sample at or after DEADLINE ends the solve. -/
  | lseDeadline (n : Nat)
  /-- LSE_STOP (R413): A write of LSE_CTRL.STOP ends the solve at the next sample. -/
  | lseStop (n : Nat)
  /-- LSE_DROP (R420): A write of LSE_CTRL.DROP clears RESIDENT when no solve runs. -/
  | lseDrop (n : Nat)
  /-- UU_LAYER_DONE (R427): An update unit finishes or fails a layer, writes its record and takes the next. -/
  | uuLayerDone (k : Nat)
  /-- UU_STEP_WRITE (R449): A write of UU_STEP.ETA sets VALID. -/
  | uuStepWrite (k : Nat) (eta : BitVec 32)
  /-- HBM_ACCESS (R461): A request starts at its memory controller when tokens and budget allow, with checks and ECC. -/
  | hbmAccess (r : MemReq)
  /-- PRIORITY_READ (R464): A priority read is served ahead of ordinary requests from the priority bucket. -/
  | priorityRead (r : MemReq)
  /-- COW_GRANULE_STAGED (R484): When a granule is in staging the MC clears its bit and releases held writes. -/
  | cowGranuleStaged (k g : Nat)
  /-- PARTITION_REFILL (R460): Every 256 UCLK cycles each regulator gains RATE tokens. -/
  | partitionRefill (k : Nat)
  /-- PRIORITY_BUCKET_REFILL (R465): Every 5 UCLK cycles the priority bucket gains 2 units. -/
  | priorityBucketRefill (k : Nat)
  /-- PATROL_SCRUB (R471): The patrol scrub reads and corrects the next unit of its sweep. -/
  | patrolScrub (k : Nat) (flips : UnitErrs)
  /-- TEMP_SAMPLE (R478): Every 100 µs the MC reads its stack temperature and sets the heat level. -/
  | tempSample (k temp : Nat)
  /-- REFRESH (R477): The MC refreshes its stack at the required rate. -/
  | refresh (k : Nat)
  /-- TENANT_RETAG (R476): Firmware changes a granule's tag and the retag scrub zeroes it. -/
  | tenantRetag (g : Nat) (tag : BitVec 12)
  /-- MC_MAP_WRITE (R456): A write of MC_MAP sets HOME_GIB in every MC of the die. -/
  | mcMapWrite (k : Nat) (v : Word)
  /-- MC_PART_WRITE (R462): A write of MC_PARTp refills the bucket to BURST. -/
  | mcPartWrite (k p : Nat) (v : Word)
  /-- MC_REFRESH_WRITE (R477): A write of MC_REFRESH.RATE requests a faster refresh or is discarded. -/
  | mcRefreshWrite (k : Nat) (v : Word)
  /-- LINK_TRAINED (R500): A port's four lanes finish training and keying starts. -/
  | linkTrained (p : Nat) (peer : BitVec 14)
  /-- LINK_KEYED (R501): Keying ends and the port reaches UP or FAILED. -/
  | linkKeyed (p : Nat) (x : LinkHello)
  /-- LANE_FAIL (R500): A lane fails and the port leaves UP, dropping its buffers. -/
  | laneFail (p : Nat)
  /-- FL_STATE_EN_WRITE (R501): A write of FL_STATE.EN holds a port DOWN or restarts training. -/
  | flStateEnWrite (p : Nat) (v : Word)
  /-- REKEY (R502): After 2^36 frames a link direction runs a new key exchange. -/
  | rekey (p : Nat)
  /-- FRAME_RECEIVE (R505): A link end checks an arriving frame and hands it to its router or drops it. -/
  | frameReceive (p : Nat) (x : LinkFrame)
  /-- FRAME_AGE_DROP (R512): A frame held over 2.5 µs in a router is dropped. -/
  | frameAgeDrop (f i : Nat)
  /-- RESEND_TIMEOUT (R514): A source's 20 µs timer expires and it re-sends or fails the request. -/
  | resendTimeout (seq : Nat)
  /-- BUSY_RETRY (R515): 2 µs after FAB_BUSY the source re-sends, failing after 1 ms. -/
  | busyRetry (seq : Nat)
  /-- JONATH_READ (R511): Destination handles a READ request and answers RESP with data. -/
  | jonathRead (f : Nat)
  /-- GET (R511): Destination handles a GET and answers with GETDATA. -/
  | get (f : Nat)
  /-- JONATH_WRITE (R529): Destination handles a WRITE request. -/
  | jonathWrite (f : Nat)
  /-- JONATH_AADD (R528): Destination handles a remote atomic add. -/
  | jonathAadd (f : Nat)
  /-- JONATH_AFADD (R528): Destination handles a remote atomic FP64 add. -/
  | jonathAfadd (f : Nat)
  /-- JONATH_AMAX (R528): Destination handles a remote atomic maximum. -/
  | jonathAmax (f : Nat)
  /-- JONATH_AMIN (R528): Destination handles a remote atomic minimum. -/
  | jonathAmin (f : Nat)
  /-- JONATH_ASWAP (R528): Destination handles a remote atomic swap. -/
  | jonathAswap (f : Nat)
  /-- JONATH_ACAS (R528): Destination handles a remote compare and swap. -/
  | jonathAcas (f : Nat)
  /-- JONATH_RESP (R511): Source receives a RESP and completes or fails its request. -/
  | jonathResp (f : Nat)
  /-- NAK (R515): Source receives a NAK and restarts its timer or schedules a re-send. -/
  | nak (f : Nat)
  /-- GETDATA (R511): Source receives GETDATA and writes it into its memory. -/
  | getdata (f : Nat)
  /-- HA_APPLY (R544): A home agent applies the next queued tracked request and sends its RESP. -/
  | haApply (f : Nat)
  /-- HA_ENTRY_EXPIRY (R541): A DONE replay entry unused for 100 µs becomes reusable. -/
  | haEntryExpiry (f spkg seq : Nat)
  /-- CRD (R536): Home handles a shared line read from the twin. -/
  | crd (f : Nat)
  /-- CRDX (R536): Home handles an exclusive line read. -/
  | crdx (f : Nat)
  /-- CUPG (R536): Home upgrades a shared copy to exclusive. -/
  | cupg (f : Nat)
  /-- CWB (R536): Home takes a modified line written back. -/
  | cwb (f : Nat)
  /-- CEVICT (R536): Home records a dropped clean copy. -/
  | cevict (f : Nat)
  /-- CINV (R536): Holder invalidates a copy and answers RESP. -/
  | cinv (f : Nat)
  /-- CFWD (R536): Holder returns a line and drops to shared or invalid. -/
  | cfwd (f : Nat)
  /-- CDATA (R536): Requester receives a line. -/
  | cdata (f : Nat)
  /-- FR_EPOCH_CUR_WRITE (R522): A write of FR_EPOCH.CUR switches the current route bank. -/
  | frEpochCurWrite (f : Nat) (e : BitVec 2)
  /-- FR_EPOCH_BANK_WRITE (R522): A write of a bank's epoch makes it valid. -/
  | frEpochBankWrite (f : Nat) (b : Bool) (e : BitVec 2)
  /-- FR_EPOCH_RETIRE (R522): A write of RETIRE asks to invalidate the old bank. -/
  | frEpochRetire (f : Nat)
  /-- EPOCH_BANK_INVALIDATE (R522): When DRAIN reaches zero after RETIRE the old bank becomes invalid. -/
  | epochBankInvalidate (f : Nat)
  /-- FR_RT_DATA_WRITE (R522): A route-table entry is written, or discarded in the current bank. -/
  | frRtDataWrite (f : Nat) (v : Word)
  /-- TM_EXCHANGE (R560): Every 16 µs a follower sends TREQ to its parent. -/
  | tmExchange
  /-- TREQ (R560): Parent stamps a time request and answers TRESP. -/
  | treq (f : Nat)
  /-- TRESP (R561): Follower computes offset and delay and slews, steps or holds its time base. -/
  | tresp (f : Nat)
  /-- PACKAGE_TIME_COMPARE (R559): Every 1 µs each die time base compares with the package reference and slews. -/
  | packageTimeCompare (d : Nat)
  /-- TM_LOCK_TIMEOUT (R562): No exchange for 1 ms clears LOCK and writes TM_UNLOCK. -/
  | tmLockTimeout
  /-- TM_CTRL_WRITE (R562): A change of ROLE or PARENT clears LOCK and rejoins. -/
  | tmCtrlWrite (v : Word)
  /-- PTP_MESSAGE (R565): The host port time-stamps and processes an IEEE 1588 message. -/
  | ptpMessage (f : Nat) (m : PtpMsg)
  /-- PPS_EDGE (R771): A 1PPS input edge is stamped and a following root slews. -/
  | ppsEdge
  /-- PPS_LOST (R771): No 1PPS edge for 2 s writes CLK_PPS_LOST. -/
  | ppsLost
  /-- SYNC_PULSE (R772): SYNC_IO rises at each multiple of CLK_SYNC.PERIOD. -/
  | syncPulse
  /-- CPART (R581): A collective unit receives a contribution segment and reduces it in turn. -/
  | cpart (f : Nat)
  /-- CGATH (R581): A collective unit receives a reduced or gathered segment into DST. -/
  | cgath (f : Nat)
  /-- CRING (R581): A collective unit receives a ring segment into SCRATCH. -/
  | cring (f : Nat)
  /-- CDONE (R585): A member records another member's CDONE and may become FINAL. -/
  | cdone (f : Nat)
  /-- CABORT (R586): A member takes the failure code of another and becomes FINAL. -/
  | cabort (f : Nat)
  /-- CU_TIMEOUT (R586): CU_TIMEOUT.LIMIT passes without FINAL and the member fails the group. -/
  | cuTimeout (f : Nat)
  /-- JSTART (R614): A member checks a start, fetches the manifest, posts its list and forwards. -/
  | jstart (f : Nat) (sender : BitVec 14)
  /-- JACK (R618): A member gathers a child's acknowledgement. -/
  | jack (f : Nat)
  /-- JACK_DEADLINE (R618): A member's wait for children ends and it sends its own JACK. -/
  | jackDeadline
  /-- JOB_DECISION (R620): At TA the root lets the start stand or cancels everywhere. -/
  | jobDecision
  /-- JCANCEL (R621): A member cancels its armed list or records the cancelled attempt. -/
  | jcancel (f : Nat)
  /-- JMREAD (R615): A member answers a child's manifest read. -/
  | jmread (f : Nat)
  /-- TEARDOWN_DONE (R625): Teardown finishes its scrub and the package returns to IDLE. -/
  | teardownDone
  /-- JOB_MAPPING (R728): At a quiet IDLE point retired units are replaced by spares and rows repaired. -/
  | jobMapping
  /-- SNAPSHOT_CUT (R636): At CUT the controllers arm copy-on-write and recall cached lines. -/
  | snapshotCut
  /-- SNAPSHOT_COMMIT (R635): After every copy write is acknowledged the SE writes the commit record. -/
  | snapshotCommit
  /-- SNAPSHOT_WANT (R642): Node time passing the last CUT plus PERIOD sets WANT. -/
  | snapshotWant
  /-- ATTEST_REPORT (R658): Firmware builds and signs an attestation report with a fresh KX key. -/
  | attestReport (h : BHdr) (nonce : List Byte)
  /-- ATTEST_KEYPKG (R661): Firmware checks a tenant key package and loads its keys. -/
  | attestKeypkg (h : BHdr) (pkg : List Byte)
  /-- ATTEST_NONCE (R700): The device returns the unlock nonce. -/
  | attestNonce (h : BHdr)
  /-- ATTEST_TOKEN (R669): The SEC block checks a debug token and unlocks debug. -/
  | attestToken (h : BHdr) (tok : List Byte)
  /-- SEC_SVN_ADVANCE (R655): A write of SEC_SVN.ADVANCE raises the fused security version. -/
  | secSvnAdvance
  /-- BUWEN_ACK (R689): A bodiless ACK message advances the acknowledged sequence. -/
  | buwenAck (h : BHdr)
  /-- HELLO (R696): The device authenticates a host and opens a session with a role. -/
  | hello (h : BHdr) (body : List Byte)
  /-- LAUNCH_LIST (R702): A host submits a command list to a dispatcher. -/
  | launchList (h : BHdr) (pd : Nat) (list start record tag : Word)
  /-- LAUNCH_JOB_START (R619): The root package receives a job start from the host. -/
  | launchJobStart (h : BHdr) (pd : Nat) (body : List Byte)
  /-- LAUNCH_TEARDOWN (R625): A host asks a package to tear down a job. -/
  | launchTeardown (h : BHdr) (pd : Nat) (job : BitVec 32) (pkg : BitVec 14)
  /-- LAUNCH_BOOT (R708): The boot ROM checks the uploaded image. -/
  | launchBoot (h : BHdr) (pd len : Nat)
  /-- LAUNCH_RESET (R702): A host resets a package after the response. -/
  | launchReset (h : BHdr) (pd : Nat) (pkg : BitVec 14)
  /-- LAUNCH_SNUFF (R702): A host freezes a package after the response. -/
  | launchSnuff (h : BHdr) (pd : Nat) (pkg : BitVec 14)
  /-- BUWEN_WRITE (R701): A host writes data into package memory. -/
  | buwenWrite (h : BHdr) (addr : Word) (data : List Byte)
  /-- BUWEN_READ (R701): A host reads package memory. -/
  | buwenRead (h : BHdr) (addr : Word) (len : Nat)
  /-- BUWEN_REG_WRITE (R703): A host writes one register, locally or by relay. -/
  | buwenRegWrite (h : BHdr) (addr val : Word)
  /-- BUWEN_REG_READ (R703): A host reads one register, locally or by relay. -/
  | buwenRegRead (h : BHdr) (addr : Word)
  /-- BUWEN_RTO (R689): The oldest unacknowledged message is resent, closing the session after 8 resends. -/
  | buwenRto (f sess : Nat)
  /-- ACK_TIMER (R689): A side with nothing to send returns an ACK within 20 µs of a delivery. -/
  | ackTimer (f sess : Nat)
  /-- SESSION_IDLE (R698): A session closes after 10 s without a valid datagram. -/
  | sessionIdle (f sess : Nat)
  /-- ANNOUNCE (R694): The device sends a periodic HELLO announcement. -/
  | announce (f : Nat)
  /-- PFC_PAUSE (R684): A host port receives PFC pause and holds its priority. -/
  | pfcPause (f prio : Nat) (on : Bool)
  /-- HOST_CONTROL_FRAME (R682): A host port answers ARP, neighbour discovery or ICMP echo. -/
  | hostControlFrame (f : Nat) (x : CtlFrame)
  /-- MREG_READ (R710): A package answers a keyed management register read. -/
  | mregRead (f : Nat)
  /-- MREG_WRITE (R710): A package performs a keyed management register write. -/
  | mregWrite (f : Nat)
  /-- MRESET (R710): A package resets after answering a keyed management reset. -/
  | mreset (f : Nat)
  /-- MTEAR (R710): A package starts a teardown on a keyed management request. -/
  | mtear (f : Nat)
  /-- SNUFF (R743): A package accepts a SNUFF frame and freezes after its response leaves. -/
  | snuff (f : Nat)
  /-- SNUFF_N (R743): A filtered low level on SNUFF_N freezes every clock. -/
  | snuffN
  /-- SELF_TEST (R724): A unit runs the test for a corrected error once its conditions allow. -/
  | selfTest (i : Nat)
  /-- SELF_TEST_DONE (R726): A test ends and the unit records transient or lasting. -/
  | selfTestDone (i : Nat) (lasting : Bool)
  /-- WARNING_WINDOW (R730): At each 2^32-tick boundary the warning counts reset. -/
  | warningWindow
  /-- BUDGET_PERIOD (R733): At each 10.24 µs period start every budget level is refilled. -/
  | budgetPeriod
  /-- EXTEST (R745): JTAG boundary-scan test. -/
  | extest (bits : List Bool)
  /-- SAMPLE_PRELOAD (R745): JTAG boundary sample and preload. -/
  | samplePreload (bits : List Bool)
  /-- IDCODE (R745): JTAG reads the identity register. -/
  | idcode
  /-- SCAN_SEL (R745): JTAG selects a scan chain. -/
  | scanSel (v : Byte)
  /-- SCAN_DR (R745): JTAG shifts the selected scan chain. -/
  | scanDr (bits : List Bool)
  /-- MEM_ADDR (R745): JTAG sets the bridge address. -/
  | memAddr (a : Word)
  /-- MEM_DATA (R746): JTAG bridge reads or writes one HBM unit. -/
  | memData (wr : Bool) (data : List Byte)
  /-- REG_DATA (R745): JTAG bridge reads or writes one register. -/
  | regData (wr : Bool) (v : Word)
  /-- BYPASS (R745): JTAG bypass. -/
  | bypass (bit : Bool)
  /-- DBG_HALT (R747): A write of DBG_SCCTL.HALT halts a solver core. -/
  | dbgHalt (c : Nat)
  /-- DBG_RESUME (R747): A write of DBG_SCCTL.RESUME resumes a core. -/
  | dbgResume (c : Nat)
  /-- DBG_STEP (R747): A write of DBG_SCCTL.STEP executes one instruction then halts. -/
  | dbgStep (c : Nat)
  /-- DBG_SCREG_WRITE (R751): A write of DBG_SCREG sets a register of the halted core. -/
  | dbgScregWrite (v : Word)
  /-- DBG_RING_BASE_WRITE (R750): A write of a ring base enables or disables the ring and flushes held records. -/
  | dbgRingBaseWrite (d : Nat) (v : Word)
  /-- WICK_MEMORY_WRITE (R203): A register write to wick memory, discarded while the EE is busy. -/
  | wickMemoryWrite (n off : Nat) (v : Word)
  /-- PWROK_RISE (R773): A rising PWROK causes a power-on reset and samples the straps. -/
  | pwrokRise (strap : Bool)
  /-- RESET_N (R773): RESET_N low for 1 µs resets the package until it rises. -/
  | resetN (low : Bool)
  /-- PWR_CTRL_RESET (R774): A write of PWR_CTRL.RESET resets the package. -/
  | pwrCtrlReset
  /-- PWR_CTRL_RELEASE (R775): A write of PWR_CTRL.RELEASE starts the held cores at PWR_SCVEC. -/
  | pwrCtrlRelease
  /-- PWR_DOMAIN_WRITE (R758): A write of PWR_DOMAIN switches domains or is refused. -/
  | pwrDomainWrite (v : Word)
  /-- DOMAIN_ON_COMPLETE (R760): 20 µs after switch-on a domain reaches full operation. -/
  | domainOnComplete (k : Nat)
  /-- FREQUENCY_STEP (R763): At a cause's interval a die steps its level down or up. -/
  | frequencyStep (d : Nat) (tj : Nat)
  /-- PMBUS_POLL (R763): The package polls READ_IOUT and READ_PIN of the regulators. -/
  | pmbusPoll (r : PmbusReadings)
  /-- PMB_ALERT (R763): A regulator asserts PMB_ALERT_N and the current cause is raised at once. -/
  | pmbAlert (d : Nat)
  /-- DROOP (R766): A VDD_A sag makes the die skip ACLK edges until recovery. -/
  | droop (d edges : Nat)
  /-- PLL_UNLOCK (R769): A PLL loses lock and resets the package. -/
  | pllUnlock (d : Nat)
  /-- REFCLK_LOST (R769): A reference clock stops for 1 µs and resets the package. -/
  | refclkLost (i : Nat)
  /-- START_ATTEMPT (R775): A start attempt begins on the processor die chosen by the attempt count. -/
  | startAttempt
  /-- BOOT_PHASE (R775): A start phase completes and the next phase begins. -/
  | bootPhase (r : BootResult)
  /-- NETWORK_BOOT_TIMEOUT (R775): Network boot gives no image within 20 s and the attempt fails. -/
  | networkBootTimeout
  /-- BOOT_WATCHDOG (R777): Phase 5 not begun 30 s after phase 3 fails the attempt. -/
  | bootWatchdog
  /-- BACKOFF_EXPIRY (R778): The back-off after a failed attempt ends and the next attempt starts. -/
  | backoffExpiry
  /-- RC_READ (R7): A read of an RC field returns it and clears it. -/
  | rcRead (addr : Word)
  /-- REGISTER_WRITE (R810): A write to a register without behaviour of its own, applied or discarded by type. -/
  | registerWrite (addr val : Word)
  /-- SYNC_WORD (R504): A receiving link end takes a sync word, learns the link counter of the next frame and regains its footing after a discard. -/
  | syncWord (p : Nat) (ctr : BitVec 56)
  /-- UNCORRECTABLE_CODEWORD (R505): The FEC of a port reports an uncorrectable codeword; the receiver loses its footing, discards the touched frames and words up to the next sync word, counts FL_FEC.UNCORR and may trigger the port test. -/
  | uncorrectableCodeword (p frames : Nat)
  /-- HOST_LINK_UP (R713): A host port finishes training and HE_STATUS.LINK becomes up, so announcements and sessions can run on it. -/
  | hostLinkUp (f : Nat)
  /-- HOST_LINK_DOWN (R716): A host port leaves the up state and writes an HE_LINK_DOWN error record. -/
  | hostLinkDown (f : Nat)
  /-- POWER_REMOVED (R753): The board removes the package rails, after THERMTRIP_N or on its own, and every state including the attempt count and held records is lost. -/
  | powerRemoved
  /-- TRACKED_COUNT_RELEASE (R543): A source stops counting a tracked request against its destination 100 µs after its RESP or 200 µs after its first send on failure, and a request held back at 64 may then be sent. -/
  | trackedCountRelease (seq : Nat)
  deriving DecidableEq, Repr

end Sys2Proof
end

