-- ==== Sys2Proof/Config.lean ====
section
/-! DEFINITION. What an implementation fixes and the spec does not print, and the free values: constants with no body,
so that no proof can see a value of them. -/

namespace Sys2Proof

/-- Word i × 6 + k of the tanh table: coefficient c[i][k] (R185, R188). The spec does not reprint the table (log 6). -/
opaque Config.tanhTable : Nat → BitVec 32

/-- Byte o of the boot ROM (R25). The spec gives no contents (log 7). -/
opaque Config.bootRom : Nat → Byte

/-- What the symbol code makes of a unit with more than four bad bytes, by the number of the draw (R466 says nothing of
it): none if it detects the error, else the 64 bytes that it returns as good (log 10). -/
opaque Config.eccBeyond : Nat → Option (List Byte)

/-- The exchanges of two places, in their order, that bring the accumulators of a chain of a shape, row by row, into the order of the
words of its raw tile, where R135 leaves that order open (log 5). -/
opaque Config.rawSwaps : Nat → List (Nat × Nat)

/-- The `DADDR` of a response other than `GETDATA`, from the address of its request (R511 gives none; log 16). -/
opaque Config.respAddr : BitVec 50 → BitVec 50

/-- Whether a quotient that is no whole number rounds up, from dividend and divisor, where a rule gives a quotient and no
rounding (R560, R561; log 21). -/
opaque Config.roundUp : Int → Int → Bool

/-- The `DADDR` of `TREQ`, which R560 does not give (log 16). -/
opaque Config.timeAddr : BitVec 50

/-- Whether the twin is locked and is not this package's child, by the number of the draw (R564 decides by it and no
rule says how this package learns it; log 22). -/
opaque Config.twinParent : Nat → Bool

/-- Whether the twin had modified a line that it held exclusive, by the number of the draw: what the home cannot see when
both twin ports leave UP (R538; log 23). -/
opaque Config.twinModified : Nat → Bool

/-- A value that the spec leaves open and that is no more than a word of some width, by the number of the draw; each use
says which value it is (log 33). -/
opaque Config.openWord : Nat → Word

/-- Whether `FRND` of a value that is not integral raises the inexact flag, from the value (IEEE 754 has operations of both kinds
and the spec names none; log 33). -/
opaque Config.rintInexact : Word → Bool

/-- Whether infinity times zero with a quiet NaN to be added raises the invalid flag, from the three operands (IEEE 754 leaves it
to the implementation; log 33). -/
opaque Config.fmaInvalid : Nat → Nat → Nat → Bool

/-- What a system register number that is not listed reads as, from the number (R331 says nothing of it; log 33). -/
opaque Config.openSr : Nat → Word

/-- The level that `ERET` enters where `PPREV` is 3, from the status word (R308 names none; log 33). -/
opaque Config.openLevel : Word → Nat

/-- The cycles that a compute phase of a least-squares engine takes, from the phase and its multiply-accumulates (R417
gives them as "about"; log 34). -/
opaque Config.lseCycles : Nat → Nat → Nat

/-- The cycles that a compute phase had taken when a deadline or a stop cut it, from the phase, its multiply-accumulates and node time
(R420; log 34). -/
opaque Config.lseCut : Nat → Nat → Word → Nat

/-- `COST` and `REQ_COST` before a cost has been computed, from the descriptor and the linearisation (R403; log 33). -/
opaque Config.lseNoCost : List Word → List Int → List Int → Word

/-- What a NaN in a point buffer becomes in fixed point, from the `FRAC` of its class and its code (R389; log 33). -/
opaque Config.lseNan : Int → Word → Word

/-- The salt of the key derivation of a link, and its info for the direction from one end's ephemeral point to the other's (R501;
log 25). -/
opaque Config.linkSalt : List Byte
opaque Config.linkInfo : List Byte → List Byte → List Byte

/-- The device public point of a certificate chain that checks; none for any other bytes (R501, R650; log 47). -/
opaque Config.chainKey : List Byte → Option (List Byte)

/-- The payload of the link control frame that carries a point, its signature and a chain, and what such a payload says (R502;
log 25). -/
opaque Config.linkMsg : List Byte → List Byte → List Byte → List Byte
opaque Config.linkMsgOf : List Byte → Option (List Byte × List Byte × List Byte)

/-- Whether the twin has been reset too when a twin port is keyed after this package's reset, by the number of the draw (R538;
log 23). -/
opaque Config.twinReset : Nat → Bool

/-- The ECDSA P-521 signature that the SEC block makes with a private key of its own, from the number of the key and the
message (R656 to R659, R677, R695; log 13). -/
opaque Config.sign : Nat → List Byte → List Byte

/-- The local address at which the job agent keeps the manifest that it has fetched (R615: "an address of its own in tag-0
HBM"; log 46). -/
opaque Config.manifestAt : BitVec 50

/-- Random bytes from on-die entropy, by the number of the draw (R650, R656, R669, R695; log 47). -/
opaque Config.entropy : Nat → List Byte

/-- The uncompressed P-521 point of a private key of the SEC block, by the number of the key (log 47). -/
opaque Config.pubKey : Nat → List Byte

/-- The ECDH secret of a private key of the SEC block, by its number, and a point (R660, R697; log 47). -/
opaque Config.ecdh : Nat → List Byte → List Byte

/-- Whether bytes are an uncompressed point of P-521 (R660; log 47). -/
opaque Config.pointOk : List Byte → Bool

/-- Whether an ECDSA P-521 signature verifies, from public point, message and signature (R653, R661, R696; log 47). -/
opaque Config.ecdsaOk : List Byte → List Byte → List Byte → Bool

/-- Whether a debug token's signature verifies under the debug authority's key of the fuses (R668, R669; log 47). -/
opaque Config.tokenSigOk : List Byte → List Byte → Bool

/-- The public point of a firmware-signing certificate that chains to the fused root digest and carries the key usage of
R653; none for any other bytes (log 47). -/
opaque Config.signerKey : List Byte → Option (List Byte)

/-- The part of the alias certificate that is signed, from its contents, and the certificate, from that part and the signature of the
device key (R656; log 47). -/
opaque Config.aliasBody : List Byte → List Byte
opaque Config.aliasCert : List Byte → List Byte → List Byte

/-- The device and product certificates in DER (R650, R700; log 47). -/
opaque Config.certs : List Byte

/-- The 8-byte version of the boot ROM (R654; log 47). -/
opaque Config.romVersion : Word

/-- The number of the KX key that a key package names; the layout of R660 has no field for it (log 48). -/
opaque Config.kxNamed : List Byte → Nat

/-- The operator key digests in a firmware configuration block, whose layout the spec does not give (R696; log 49). -/
opaque Config.operatorDigests : List Byte → List (List Byte)

/-- The row of a stack that holds a stack offset (R724, R727; log 50). -/
opaque Config.hbmRow : Nat → Nat

/-- The repair rows of a stack (R729; log 50). -/
opaque Config.repairRows : Nat → Nat

/-- Stostan's JEP106 identity in `IDCODE` (R745; log 52). -/
opaque Config.jep106 : BitVec 11

end Sys2Proof
end

