-- ==== Sys2Proof/Machine/Tab.lean ====
section
/-! DEFINITION. Keyed tables and the small list helpers of the model: reading and writing an entry of a `Tab`, and
updating one place of a list. -/

namespace Sys2Proof

/-- What table `t` holds at key `k`, and `d` where it lists nothing. -/
def Tab.get {α : Type} (t : Tab α) (d : α) (k : Nat) : α :=
  match t with
  | [] => d
  | (j, a) :: r => if j = k then a else Tab.get r d k

/-- The entry of table `t` at key `k`, if it lists one. -/
def Tab.find {α : Type} (t : Tab α) (k : Nat) : Option α :=
  match t with
  | [] => none
  | (j, a) :: r => if j = k then some a else Tab.find r k

/-- Table `t` with `a` at key `k`. -/
def Tab.set {α : Type} (t : Tab α) (k : Nat) (a : α) : Tab α :=
  match t with
  | [] => [(k, a)]
  | (j, b) :: r => if j = k then (j, a) :: r else (j, b) :: Tab.set r k a

/-- Table `t` without key `k`. -/
def Tab.drop {α : Type} (t : Tab α) (k : Nat) : Tab α :=
  match t with
  | [] => []
  | (j, b) :: r => if j = k then Tab.drop r k else (j, b) :: Tab.drop r k

theorem Tab.get_set_same {α : Type} (t : Tab α) (d a : α) (k : Nat) : (t.set k a).get d k = a := by
  induction t with
  | nil => simp [Tab.set, Tab.get]
  | cons h r ih =>
    obtain ⟨j, b⟩ := h
    simp only [Tab.set]
    split
    · next h => simp [Tab.get, h]
    · next h => simp [Tab.get, h, ih]

theorem Tab.set_set {α : Type} (t : Tab α) (a b : α) (k : Nat) : (t.set k a).set k b = t.set k b := by
  induction t with
  | nil => simp [Tab.set]
  | cons h r ih =>
    obtain ⟨j, c⟩ := h
    simp only [Tab.set]
    split
    · simp [Tab.set, *]
    · simp [Tab.set, *]

theorem Tab.get_set_ne {α : Type} (t : Tab α) (d a : α) (k j : Nat) (h : j ≠ k) :
    (t.set k a).get d j = t.get d j := by
  induction t with
  | nil => simp [Tab.set, Tab.get]; intro e; exact absurd e.symm h
  | cons p r ih =>
    obtain ⟨i, b⟩ := p
    simp only [Tab.set]
    split
    · next e =>
      subst e
      simp only [Tab.get]
      rw [if_neg (Ne.symm h), if_neg (Ne.symm h)]
    · simp only [Tab.get, ih]

namespace Machine

/-- The first `n` naturals. -/
abbrev upTo (n : Nat) : List Nat := List.range n

/-- Element `i` of a list, and `d` beyond its end. -/
def nth {α : Type} (l : List α) (d : α) (i : Nat) : α := (l[i]?).getD d

/-- List `l` with the element at place `i` replaced by its image under `f`. -/
def modAt {α : Type} (l : List α) (i : Nat) (f : α → α) : List α :=
  match l, i with
  | [], _ => []
  | a :: r, 0 => f a :: r
  | a :: r, i + 1 => a :: modAt r i f

/-- List `l` without the element at place `i`. -/
def dropAt {α : Type} (l : List α) (i : Nat) : List α := l.eraseIdx i

/-- The elements of `l` in runs of `n` (the last run may be shorter); `fuel` bounds the number of runs. -/
def chunksN {α : Type} (n : Nat) : Nat → List α → List (List α)
  | 0, _ => []
  | _ + 1, [] => []
  | fuel + 1, l => l.take n :: chunksN n fuel (l.drop n)

/-- The elements of `l` in runs of `n > 0`. -/
def chunks {α : Type} (n : Nat) (l : List α) : List (List α) := chunksN n l.length l

/-- Whether the list has no repeated element. -/
def noRepeat (l : List Nat) : Bool :=
  match l with
  | [] => true
  | a :: r => !r.contains a && noRepeat r

/-- Fold over a list carrying a state, stopping at the first element for which `f` answers none. -/
def foldOpt {α β : Type} (f : β → α → Option β) : β → List α → Option β
  | b, [] => some b
  | b, a :: r =>
    match f b a with
    | none => none
    | some b' => foldOpt f b' r

/-- The first place of `l` whose element satisfies `p`. -/
def findPos {α : Type} (p : α → Bool) : List α → Option Nat
  | [] => none
  | a :: r => if p a then some 0 else (findPos p r).map (· + 1)

end Machine
end Sys2Proof
end

