-- ==== Sys2Proof/Machine/Bits.lean ====
section
/-! DEFINITION. Bit fields of words, sign extension and byte order (R6, R48). -/

namespace Sys2Proof.Machine

/-- The value of the `n` bits of `w` from bit `lo` up. -/
def fld (w : Word) (lo n : Nat) : Nat := (w.toNat >>> lo) % 2 ^ n

/-- Word `w` with its `n` bits from bit `lo` up replaced by the low bits of `v`. -/
def setFld (w : Word) (lo n v : Nat) : Word :=
  BitVec.ofNat 64 (w.toNat - (fld w lo n) * 2 ^ lo + (v % 2 ^ n) * 2 ^ lo)

/-- Bit `i` of a word. -/
def bit (w : Word) (i : Nat) : Bool := w.getLsbD i

/-- A word from a natural number, modulo 2^64. -/
abbrev wd (n : Nat) : Word := BitVec.ofNat 64 n

/-- A word from an integer, modulo 2^64. -/
abbrev wdInt (n : Int) : Word := BitVec.ofInt 64 n

/-- A 16-bit code from a natural number. -/
abbrev code16 (n : Nat) : BitVec 16 := BitVec.ofNat 16 n

/-- The integer that the `n` low bits of `v` hold in two's complement. -/
def sext (v n : Nat) : Int :=
  let x := v % 2 ^ n
  if x < 2 ^ (n - 1) then (x : Int) else (x : Int) - (2 ^ n : Nat)

/-- A signed field of a word. -/
def sfld (w : Word) (lo n : Nat) : Int := sext (fld w lo n) n

/-- A Boolean as 0 or 1. -/
def b2n (b : Bool) : Nat := if b then 1 else 0

/-- The natural number that bytes hold, least significant first (R48). -/
def leNat : List Byte → Nat
  | [] => 0
  | b :: r => b.toNat + 256 * leNat r

/-- The `n` bytes of a natural number, least significant first (R48). -/
def leBytes : Nat → Nat → List Byte
  | 0, _ => []
  | n + 1, v => BitVec.ofNat 8 v :: leBytes n (v / 256)

/-- The word at byte offset `o` of a list of bytes. -/
def word64 (l : List Byte) (o : Nat) : Word := wd (leNat ((l.drop o).take 8))

/-- The number of `n` bytes at byte offset `o` of a list of bytes. -/
def bytesAt (l : List Byte) (o n : Nat) : Nat := leNat ((l.drop o).take n)

/-- `n` zero bytes. -/
def zeros (n : Nat) : List Byte := List.replicate n 0

/-- A list of bytes cut or padded with zeros to `n` bytes. -/
def padTo (n : Nat) (l : List Byte) : List Byte := l.take n ++ zeros (n - l.length)

/-- The bytes of a list of words. -/
def wordsBytes (l : List Word) : List Byte := l.flatMap (fun w => leBytes 8 w.toNat)

/-- Bytes `l` with the bytes `d` written over them from offset `o`. -/
def patch (l : List Byte) (o : Nat) (d : List Byte) : List Byte :=
  l.take o ++ d ++ l.drop (o + d.length)

theorem leBytes_length (n v : Nat) : (leBytes n v).length = n := by
  induction n generalizing v with
  | zero => rfl
  | succ n ih => simp [leBytes, ih]

theorem fld_lt (w : Word) (lo n : Nat) : fld w lo n < 2 ^ n := Nat.mod_lt _ (Nat.two_pow_pos n)

/-! ## Addresses (R6) -/

/-- The package number of an address, bits [63:50] (R6). -/
def addrPkg (a : Word) : Nat := fld a 50 14

/-- The local address, bits [49:0] (R6). -/
def addrLocal (a : Word) : Nat := fld a 0 50

/-- The address of a local address within a package (R6). -/
def mkAddr (pkg loc : Nat) : Word := wd (pkg % 2 ^ 14 * 2 ^ 50 + loc % 2 ^ 50)

end Sys2Proof.Machine
end

