-- ==== Sys2Proof/Machine/Float.lean ====
section
/-! DEFINITION. Exact numbers and their rounding: a finite value is a sign, a magnitude and a power of two, so that
products and sums are exact and each rounding is said once, where the spec puts it (R51, R52, R72, R112). -/

namespace Sys2Proof.Machine

/-- A number as the engines compute with it: NaN, an infinity, or the exact value ±m × 2^e. -/
inductive Val where
  | nan
  | inf (neg : Bool)
  | fin (neg : Bool) (m : Nat) (e : Int)
  deriving DecidableEq, Repr

/-- The zero of a sign. -/
abbrev Val.zero (neg : Bool) : Val := .fin neg 0 0

/-- Whether a value is a NaN. -/
def Val.isNan : Val → Bool
  | .nan => true
  | _ => false

/-- Whether a value is an infinity. -/
def Val.isInf : Val → Bool
  | .inf _ => true
  | _ => false

/-- Whether a value is a zero of either sign. -/
def Val.isZero : Val → Bool
  | .fin _ m _ => m == 0
  | _ => false

/-- The sign bit of a value (a NaN counts as positive). -/
def Val.sign : Val → Bool
  | .nan => false
  | .inf s => s
  | .fin s _ _ => s

/-- The value with its sign turned. -/
def Val.neg : Val → Val
  | .nan => .nan
  | .inf s => .inf (!s)
  | .fin s m e => .fin (!s) m e

/-- The value with its sign cleared. -/
def Val.abs : Val → Val
  | .nan => .nan
  | .inf _ => .inf false
  | .fin _ m e => .fin false m e

/-- The value of an integer. -/
def Val.ofInt (i : Int) : Val := .fin (decide (i < 0)) i.natAbs 0

/-- m × 2^e as a multiple of 2^g, for g ≤ e. -/
def scaleTo (m : Nat) (e g : Int) : Nat := m * 2 ^ (e - g).toNat

/-- The integer of units 2^g that a signed magnitude is, for g ≤ e. -/
def unitsAt (s : Bool) (m : Nat) (e g : Int) : Int :=
  if s then - (scaleTo m e g : Int) else (scaleTo m e g : Int)

/-- The value of `i` units of 2^g; an exact zero takes the sign `z`. -/
def ofUnits (i g : Int) (z : Bool) : Val :=
  if i = 0 then .fin z 0 0 else .fin (decide (i < 0)) i.natAbs g

/-- The exact product (R112); infinity times zero is NaN (R115). -/
def Val.mul : Val → Val → Val
  | .nan, _ => .nan
  | _, .nan => .nan
  | .inf s, .inf t => .inf (s != t)
  | .inf s, .fin t m _ => if m = 0 then .nan else .inf (s != t)
  | .fin t m _, .inf s => if m = 0 then .nan else .inf (s != t)
  | .fin s m e, .fin t n f => .fin (s != t) (m * n) (e + f)

/-- The exact sum. Opposite infinities give NaN; an exact zero sum of non-equal signs takes the sign `z`, and two zeros
of one sign keep it. -/
def Val.addZ (z : Bool) : Val → Val → Val
  | .nan, _ => .nan
  | _, .nan => .nan
  | .inf s, .inf t => if s = t then .inf s else .nan
  | .inf s, .fin _ _ _ => .inf s
  | .fin _ _ _, .inf t => .inf t
  | .fin s m e, .fin t n f =>
    if m = 0 && n = 0 then .fin (if s = t then s else z) 0 0
    else
      let g := min e f
      ofUnits (unitsAt s m e g + unitsAt t n f g) g z

/-- The exact sum with +0 for an exact zero sum of operands of different sign (round to nearest). -/
abbrev Val.add (a b : Val) : Val := Val.addZ false a b

/-- ⌊log2⌋ of a magnitude m × 2^e with m ≠ 0. -/
def expo (m : Nat) (e : Int) : Int := (Nat.log2 m : Int) + e

/-- A number greater, equal or less than another: the order of two exact values, none when unordered (R87). -/
def Val.cmp : Val → Val → Option Ordering
  | .nan, _ => none
  | _, .nan => none
  | .inf s, .inf t => some (if s = t then .eq else if s then .lt else .gt)
  | .inf s, .fin _ _ _ => some (if s then .lt else .gt)
  | .fin _ _ _, .inf t => some (if t then .gt else .lt)
  | .fin s m e, .fin t n f =>
    let g := min e f
    some (compare (unitsAt s m e g) (unitsAt t n f g))

/-- a < b; false when unordered (R87). -/
def Val.lt (a b : Val) : Bool := a.cmp b == some .lt
/-- a = b; false when unordered, true for zeros of either sign (R86, R87). -/
def Val.eqv (a b : Val) : Bool := a.cmp b == some .eq
/-- a ≤ b; false when unordered (R87). -/
def Val.le (a b : Val) : Bool := a.lt b || a.eqv b

/-- How a magnitude that falls between two grid points is rounded. -/
inductive Rnd where
  | nearestEven | towardZero | down | up | nearestAway
  deriving DecidableEq, Repr

/-- Whether to step up from the grid point below, for a remainder `r` of `d` (with something more below if `sticky`),
where the point below is odd or even and the value's sign is `neg`. -/
def roundUp (mode : Rnd) (neg odd : Bool) (r d : Nat) (sticky : Bool) : Bool :=
  match mode with
  | .nearestEven => decide (d < 2 * r) || (decide (2 * r = d) && (sticky || odd))
  | .nearestAway => decide (d ≤ 2 * r)
  | .towardZero => false
  | .down => neg && (decide (r ≠ 0) || sticky)
  | .up => !neg && (decide (r ≠ 0) || sticky)

/-- m × 2^e (and something more below its last place if `sticky`) as a multiple of 2^q, rounded, and whether it was
inexact. -/
def roundTo (mode : Rnd) (neg : Bool) (m : Nat) (e q : Int) (sticky : Bool) : Nat × Bool :=
  if q ≤ e then
    let u := scaleTo m e q
    (if roundUp mode neg (u % 2 == 1) 0 1 sticky then u + 1 else u, sticky)
  else
    let d := 2 ^ (q - e).toNat
    let u := m / d
    let r := m % d
    (if roundUp mode neg (u % 2 == 1) r d sticky then u + 1 else u, decide (r ≠ 0) || sticky)

/-- A floating-point format (R51): widths of its exponent and fraction, its bias, whether it has infinity and NaN, the
code of its largest finite value and its canonical NaN. -/
structure FFmt where
  ebits  : Nat
  frac   : Nat
  bias   : Nat
  hasInf : Bool
  hasNan : Bool
  maxC   : Nat
  nanC   : Nat
  deriving DecidableEq, Repr

/-- FP64 (R51). -/
def f64 : FFmt := ⟨11, 52, 1023, true, true, 0x7FEFFFFFFFFFFFFF, 0x7FF8000000000000⟩
/-- FP32 (R51). -/
def f32 : FFmt := ⟨8, 23, 127, true, true, 0x7F7FFFFF, 0x7FC00000⟩
/-- BF16 (R51). -/
def bf16 : FFmt := ⟨8, 7, 127, true, true, 0x7F7F, 0x7FC0⟩
/-- FP16 (R51). -/
def fp16 : FFmt := ⟨5, 10, 15, true, true, 0x7BFF, 0x7E00⟩
/-- E5M2 (R51). -/
def e5m2 : FFmt := ⟨5, 2, 15, true, true, 0x7B, 0x7E⟩
/-- E4M3 (R51, R53). -/
def e4m3 : FFmt := ⟨4, 3, 7, false, true, 0x7E, 0x7F⟩
/-- FP4, E2M1 (R51, R54). -/
def fp4 : FFmt := ⟨2, 1, 1, false, false, 0x7, 0x0⟩
/-- ACCF (R51, R61). -/
def accf : FFmt := ⟨9, 30, 255, true, true, 0x7FBFFFFFFF, 0x7FE0000000⟩

/-- The number of bits of a format. -/
def FFmt.width (t : FFmt) : Nat := 1 + t.ebits + t.frac

/-- The sign bit of a code. -/
def FFmt.signOf (t : FFmt) (c : Nat) : Bool := c / 2 ^ (t.ebits + t.frac) % 2 == 1

/-- The exponent of the last place of the smallest normal number, which is that of every subnormal. -/
def FFmt.qmin (t : FFmt) : Int := 1 - (t.bias : Int) - (t.frac : Int)

/-- The value of a code (R51 to R54, R61). -/
def FFmt.decode (t : FFmt) (c : Nat) : Val :=
  let s := t.signOf c
  let ex := c / 2 ^ t.frac % 2 ^ t.ebits
  let f := c % 2 ^ t.frac
  if t.hasInf && ex == 2 ^ t.ebits - 1 then (if f == 0 then .inf s else .nan)
  else if t.hasNan && !t.hasInf && ex == 2 ^ t.ebits - 1 && f == 2 ^ t.frac - 1 then .nan
  else if ex == 0 then .fin s f t.qmin
  else .fin s (2 ^ t.frac + f) ((ex : Int) - (t.bias : Int) - (t.frac : Int))

/-- The largest finite magnitude, as a value. -/
def FFmt.maxVal (t : FFmt) (s : Bool) : Val :=
  match t.decode t.maxC with
  | .fin _ m e => .fin s m e
  | v => v

/-- A code with a sign put on it. -/
def FFmt.withSign (t : FFmt) (s : Bool) (c : Nat) : Nat := if s then c + 2 ^ (t.ebits + t.frac) else c

/-- The code of an infinity. -/
def FFmt.infC (t : FFmt) (s : Bool) : Nat := t.withSign s ((2 ^ t.ebits - 1) * 2 ^ t.frac)

/-- The exponent of the last place that a magnitude m × 2^e has on the format's grid (R72). -/
def FFmt.quantum (t : FFmt) (m : Nat) (e : Int) : Int :=
  max (expo m e - (t.frac : Int)) t.qmin

/-- The code of a finite magnitude of `u` places of 2^q that stands on the grid and does not exceed the largest
finite value. -/
def FFmt.encodeMag (t : FFmt) (u : Nat) (q : Int) : Nat :=
  if u = 0 then 0
  else
    let x := expo u q
    if x < 1 - (t.bias : Int) then scaleTo u q t.qmin
    else
      let k := x - (t.frac : Int)
      let f := if k ≤ q then scaleTo u q k else u / 2 ^ (k - q).toNat
      ((x + (t.bias : Int)).toNat - 1) * 2 ^ t.frac + f

/-- Whether u × 2^q exceeds the largest finite magnitude of the format. -/
def FFmt.exceeds (t : FFmt) (u : Nat) (q : Int) : Bool :=
  match t.decode t.maxC with
  | .fin _ m e => let g := min q e; decide (scaleTo m e g < scaleTo u q g)
  | _ => false

/-- What a rounding met. -/
structure RndFlags where
  ovf : Bool
  unf : Bool
  inx : Bool
  deriving DecidableEq, Repr

/-- Whether a magnitude, rounded as if the exponent were unbounded below, stays under the smallest normal number
(tininess after rounding). -/
def FFmt.tiny (t : FFmt) (mode : Rnd) (neg : Bool) (m : Nat) (e : Int) (sticky : Bool) : Bool :=
  let q := expo m e - (t.frac : Int)
  let u := (roundTo mode neg m e q sticky).1
  decide (expo u q < 1 - (t.bias : Int))

/-- The overflow result of IEEE 754 for a rounding mode: an infinity or the largest finite value. -/
def FFmt.ovfC (t : FFmt) (mode : Rnd) (neg : Bool) : Nat :=
  match mode with
  | .nearestEven => t.infC neg
  | .nearestAway => t.infC neg
  | .towardZero => t.withSign neg t.maxC
  | .down => if neg then t.infC neg else t.withSign neg t.maxC
  | .up => if neg then t.withSign neg t.maxC else t.infC neg

/-- IEEE 754 rounding of an exact finite magnitude (with something more below it if `sticky`) into a format that has
infinity: the code and the flags. -/
def FFmt.roundMag (t : FFmt) (mode : Rnd) (neg : Bool) (m : Nat) (e : Int) (sticky : Bool) : Nat × RndFlags :=
  if m = 0 then (t.withSign neg 0, ⟨false, false, false⟩)
  else
    let q := t.quantum m e
    let (u, inx) := roundTo mode neg m e q sticky
    if t.exceeds u q then (t.ovfC mode neg, ⟨true, false, true⟩)
    else (t.withSign neg (t.encodeMag u q), ⟨false, inx && t.tiny mode neg m e sticky, inx⟩)

/-- IEEE 754 rounding of a value into a format that has infinity and NaN. -/
def FFmt.round (t : FFmt) (mode : Rnd) (v : Val) : Nat × RndFlags :=
  match v with
  | .nan => (t.nanC, ⟨false, false, false⟩)
  | .inf s => (t.infC s, ⟨false, false, false⟩)
  | .fin s m e => t.roundMag mode s m e false

/-- A value rounded to an integer in a mode. -/
def roundInt (mode : Rnd) (s : Bool) (m : Nat) (e : Int) : Int :=
  let u := (roundTo mode s m e 0 false).1
  if s then - (u : Int) else (u : Int)

/-- ⌊√n⌋, by bisection on the bits from bit `k` down. -/
def isqrtFrom (n : Nat) : Nat → Nat → Nat
  | 0, r => r
  | k + 1, r =>
    let c := r + 2 ^ k
    isqrtFrom n k (if c * c ≤ n then c else r)

/-- ⌊√n⌋. -/
def isqrt (n : Nat) : Nat := isqrtFrom n (Nat.log2 n / 2 + 1) 0

/-- The quotient of two non-zero finite magnitudes to at least `p` bits: units, exponent and whether something is left
below. -/
def divMag (m : Nat) (e : Int) (n : Nat) (f : Int) (p : Nat) : Nat × Int × Bool :=
  let sh := p + Nat.log2 n + 2
  let x := m * 2 ^ sh
  (x / n, e - f - (sh : Int), decide (x % n ≠ 0))

/-- The square root of a non-zero finite magnitude to at least `p` bits. -/
def sqrtMag (m : Nat) (e : Int) (p : Nat) : Nat × Int × Bool :=
  let sh := 2 * p + 2 + (if (e - (2 * p + 2 : Nat)) % 2 = 0 then 0 else 1)
  let x := m * 2 ^ sh
  let r := isqrt x
  (r, (e - (sh : Int)) / 2, decide (r * r ≠ x))

end Sys2Proof.Machine
end

