-- ==== Sys2Proof/Machine/Flags.lean ====
section
/-! DEFINITION. IEEE 754 arithmetic in a format and a rounding mode with the exception flags that it raises (R166, R296,
R297): exact operations rounded once, quotients and square roots. -/

namespace Sys2Proof.Machine

/-- The five exception flags of IEEE 754. -/
structure FpFlags where
  nv : Bool
  dz : Bool
  ovf : Bool
  unf : Bool
  inx : Bool
  deriving DecidableEq, Repr

/-- No flag. -/
def FpFlags.none : FpFlags := ⟨false, false, false, false, false⟩
/-- Invalid operation. -/
def FpFlags.invalid : FpFlags := ⟨true, false, false, false, false⟩
/-- The flags of a rounding. -/
def FpFlags.ofRnd (f : RndFlags) : FpFlags := ⟨false, false, f.ovf, f.unf, f.inx⟩
/-- The flags of two operations together. -/
def FpFlags.or (a b : FpFlags) : FpFlags := ⟨a.nv || b.nv, a.dz || b.dz, a.ovf || b.ovf, a.unf || b.unf, a.inx || b.inx⟩

/-- The flags as the five low bits of `SC_FCSR` (R333): [0] invalid, [1] division by zero, [2] overflow, [3] underflow,
[4] inexact. -/
def FpFlags.bits (f : FpFlags) : Nat :=
  (if f.nv then 1 else 0) + (if f.dz then 2 else 0) + (if f.ovf then 4 else 0) + (if f.unf then 8 else 0) + (if f.inx then 16 else 0)

/-- The code of an exact value rounded in a mode. -/
def FFmt.roundF (t : FFmt) (mode : Rnd) (v : Val) : Nat × FpFlags :=
  let r := t.round mode v
  (r.1, FpFlags.ofRnd r.2)

/-- The quotient a / b. -/
def FFmt.divF (t : FFmt) (mode : Rnd) (a b : Val) : Nat × FpFlags :=
  match a, b with
  | .nan, _ => (t.nanC, FpFlags.none)
  | _, .nan => (t.nanC, FpFlags.none)
  | .inf _, .inf _ => (t.nanC, FpFlags.invalid)
  | .inf s, .fin u _ _ => (t.infC (s != u), FpFlags.none)
  | .fin s _ _, .inf u => (t.withSign (s != u) 0, FpFlags.none)
  | .fin s m e, .fin u n f =>
    if n = 0 then
      if m = 0 then (t.nanC, FpFlags.invalid) else (t.infC (s != u), { FpFlags.none with dz := true })
    else if m = 0 then (t.withSign (s != u) 0, FpFlags.none)
    else
      let (x, q, st) := divMag m e n f 110
      let r := t.roundMag mode (s != u) x q st
      (r.1, FpFlags.ofRnd r.2)

/-- The square root of a. -/
def FFmt.sqrtF (t : FFmt) (mode : Rnd) (a : Val) : Nat × FpFlags :=
  match a with
  | .nan => (t.nanC, FpFlags.none)
  | .inf s => if s then (t.nanC, FpFlags.invalid) else (t.infC false, FpFlags.none)
  | .fin s m e =>
    if m = 0 then (t.withSign s 0, FpFlags.none)
    else if s then (t.nanC, FpFlags.invalid)
    else
      let (x, q, st) := sqrtMag m e 60
      let r := t.roundMag mode false x q st
      (r.1, FpFlags.ofRnd r.2)

end Sys2Proof.Machine
end

