-- ==== Sys2Proof/Machine/Formats.lean ====
section
/-! DEFINITION. The sixteen `FMT` codes (R44), reading an element (R48 to R62), and the conversions of R70 to R91. -/

namespace Sys2Proof.Machine

/-- The classes of R44. -/
inductive FmtClass where
  | float | int | sign | acc
  deriving DecidableEq, Repr

/-- Bits per element in storage (R44). -/
def fmtBits (f : Nat) : Nat :=
  match f with
  | 0x0 => 64 | 0x1 => 32 | 0x2 => 16 | 0x3 => 16 | 0x4 => 8 | 0x5 => 8 | 0x6 => 4 | 0x7 => 8
  | 0x8 => 4 | 0x9 => 2 | 0xA => 2 | 0xB => 1 | 0xC => 16 | 0xD => 32 | _ => 64

/-- The class of a format (R44). -/
def fmtClass (f : Nat) : FmtClass :=
  match f with
  | 0x0 => .float | 0x1 => .float | 0x2 => .float | 0x3 => .float | 0x4 => .float | 0x5 => .float | 0x6 => .float
  | 0x7 => .int | 0x8 => .int | 0x9 => .int | 0xA => .sign | 0xB => .sign | 0xC => .int | 0xD => .int
  | _ => .acc

/-- The floating-point format of a code; ACCF for 0xE. -/
def fmtFloat (f : Nat) : FFmt :=
  match f with
  | 0x0 => f64 | 0x1 => f32 | 0x2 => bf16 | 0x3 => fp16 | 0x4 => e4m3 | 0x5 => e5m2 | 0x6 => fp4 | _ => accf

/-- The value of an element's code (R45), and whether it is the reserved TER code 10, read as 0 (R58). -/
def elemVal (f c : Nat) : Val × Bool :=
  match fmtClass f with
  | .float => ((fmtFloat f).decode (c % 2 ^ fmtBits f), false)
  | .int => (Val.ofInt (sext c (fmtBits f)), false)
  | .sign =>
    if f = 0xA then
      match c % 4 with
      | 0 => (Val.zero false, false)
      | 1 => (Val.ofInt 1, false)
      | 3 => (Val.ofInt (-1), false)
      | _ => (Val.zero false, true)
    else (Val.ofInt (if c % 2 = 0 then 1 else -1), false)
  | .acc => if f = 0xE then (accf.decode (c % 2 ^ 40), false) else (Val.ofInt (sext c 48), false)

/-- What a conversion gives: the code, and whether the element was clipped (R82) or a NaN counts (R75). -/
structure Conv where
  code : Nat
  clip : Bool
  nan  : Bool
  deriving DecidableEq, Repr

/-- The two's-complement code of an integer in `w` bits. -/
def intCode (w : Nat) (i : Int) : Nat := (i % (2 ^ w : Nat)).toNat

/-- Saturation of an integer to a range: the value and whether it was outside. -/
def clamp (lo hi i : Int) : Int × Bool :=
  if i < lo then (lo, true) else if hi < i then (hi, true) else (i, false)

/-- The largest integer of a format of `w` bits. -/
def intMax (w : Nat) : Int := (2 ^ (w - 1) : Nat) - 1
/-- The smallest integer of a format of `w` bits. -/
def intMin (w : Nat) : Int := - (2 ^ (w - 1) : Nat)

/-- Narrowing of a value into a floating-point format (R70 to R75). A NaN counts also where the target has a NaN: R75's last
sentence and the worked example of chapter 2 count it, R75's pseudocode does not (DESIGN CHOICE, log 106). -/
def narrowFloat (t : FFmt) (v : Val) : Conv :=
  match v with
  | .nan => ⟨if t.hasNan then t.nanC else 0, false, true⟩
  | .inf s => if t.hasInf then ⟨t.infC s, false, false⟩ else ⟨t.withSign s t.maxC, true, false⟩
  | .fin s m e =>
    if m = 0 then ⟨t.withSign s 0, false, false⟩
    else
      let q := t.quantum m e
      let u := (roundTo .nearestEven s m e q false).1
      if t.exceeds u q then ⟨t.withSign s t.maxC, true, false⟩
      else ⟨t.withSign s (t.encodeMag u q), false, false⟩

/-- Conversion of a value into an integer format of `w` bits (R74 to R76). -/
def narrowInt (w : Nat) (v : Val) : Conv :=
  match v with
  | .nan => ⟨0, false, true⟩
  | .inf s => ⟨intCode w (if s then intMin w else intMax w), true, false⟩
  | .fin s m e =>
    let (i, c) := clamp (intMin w) (intMax w) (roundInt .nearestEven s m e)
    ⟨intCode w i, c, false⟩

/-- The TER code of -1, 0 or 1 (R57). -/
def terCode (i : Int) : Nat := if i = 0 then 0 else if i < 0 then 3 else 1

/-- Conversion into TER (R74, R75, R77). -/
def narrowTer (v : Val) : Conv :=
  match v with
  | .nan => ⟨0, false, true⟩
  | .inf s => ⟨if s then 3 else 1, true, false⟩
  | .fin s m e =>
    let (i, c) := clamp (-1) 1 (roundInt .nearestEven s m e)
    ⟨terCode i, c, false⟩

/-- Conversion into BIN1 (R74, R75, R78). -/
def narrowBin (v : Val) : Conv :=
  match v with
  | .nan => ⟨0, false, true⟩
  | .inf s => ⟨b2n s, false, false⟩
  | .fin s m _ => ⟨b2n (s && decide (m ≠ 0)), false, false⟩

/-- Conversion of a value into any storable format (R70 to R80); ACCF is a float and ACCI a 48-bit integer. -/
def narrow (f : Nat) (v : Val) : Conv :=
  match fmtClass f with
  | .float => narrowFloat (fmtFloat f) v
  | .int => narrowInt (fmtBits f) v
  | .sign => if f = 0xA then narrowTer v else narrowBin v
  | .acc => if f = 0xE then narrowFloat accf v else narrowInt 48 v

/-- Whether a code of a format is a NaN. -/
def codeNan (f c : Nat) : Bool := (elemVal f c).1.isNan

/-- Whether a conversion from format f into format g is no narrowing: the two are one, or both are floating-point formats and g holds
every value of f (R70). ACCF is 0xE. -/
def widens (f g : Nat) : Bool :=
  let float := fun (x : Nat) => fmtClass x == .float || x == 0xE
  f == g || (float f && float g && decide ((fmtFloat f).ebits ≤ (fmtFloat g).ebits ∧ (fmtFloat f).frac ≤ (fmtFloat g).frac))

/-- Conversion of a value of format f into format g: only a narrowing counts its NaNs (R70, R75). -/
def convert (f g : Nat) (v : Val) : Conv :=
  let k := narrow g v
  if widens f g then { k with nan := false } else k

/-- The FP32 value of a code. -/
abbrev f32v (x : BitVec 32) : Val := f32.decode x.toNat
/-- The FP64 value of a code. -/
abbrev f64v (x : Word) : Val := f64.decode x.toNat

/-- FP32 result of an exact value, rounded to nearest even, an overflow being infinity (IEEE 754). -/
def f32of (v : Val) : BitVec 32 := BitVec.ofNat 32 (f32.round .nearestEven v).1

/-- Maximum with R88 and R89. -/
def vmax (a b : Val) : Val :=
  match a.cmp b with
  | none => .nan
  | some .lt => b
  | some .gt => a
  | some .eq => if a.sign then b else a

/-- Minimum with R88 and R89. -/
def vmin (a b : Val) : Val :=
  match a.cmp b with
  | none => .nan
  | some .lt => a
  | some .gt => b
  | some .eq => if a.sign then a else b

/-! ## Tiles (R49, R50) -/

/-- Bytes of a row of `cols` elements (R50), rounded up to a byte boundary. -/
def rowBytes (f cols : Nat) : Nat := (cols * fmtBits f + 7) / 8

/-- Bytes of a tile (R50). -/
def tileBytes (f rows cols : Nat) : Nat := rows * rowBytes f cols

/-- The codes of one row, from its bytes (R48, R49). -/
def unpackRow (f cols : Nat) (l : List Byte) : List Nat :=
  let w := fmtBits f
  if w < 8 then (upTo cols).map (fun j => (nth l 0 (j * w / 8)).toNat / 2 ^ (j * w % 8) % 2 ^ w)
  else (upTo cols).map (fun j => bytesAt l (j * (w / 8)) (w / 8))

/-- The bits of a row as one number, element 0 lowest. -/
def rowNat (w : Nat) : List Nat → Nat
  | [] => 0
  | c :: r => c % 2 ^ w + 2 ^ w * rowNat w r

/-- The bytes of one row of codes (R48 to R50); R49 and R48 put element j at bit j × w of the row. -/
def packRow (f : Nat) (l : List Nat) : List Byte :=
  leBytes (rowBytes f l.length) (rowNat (fmtBits f) l)

/-- The rows of codes of a tile, from its bytes (R50). -/
def unpackTile (f rows cols : Nat) (l : List Byte) : List (List Nat) :=
  (upTo rows).map (fun i => unpackRow f cols (l.drop (i * rowBytes f cols)))

/-- The bytes of a tile (R50). -/
def packTile (f : Nat) (rows : List (List Nat)) : List Byte := rows.flatMap (packRow f)

/-! ## F32X (R92 to R97) -/

/-- The FP32 code of the exact difference of two FP32 values (exact in R92). -/
def f32sub (a b : Val) : Nat := (f32.round .nearestEven (Val.addZ false a b.neg)).1

/-- The top 16 bits of an FP32 pattern; a part that becomes zero is +0 (R92, R94). -/
def trunc16 (x : Nat) : Nat :=
  let h := x / 65536 * 65536
  if h % 2 ^ 31 = 0 then 0 else h

/-- The three BF16 parts of an FP32 code, as FP32 codes (R92, R94, R95). -/
def f32xParts (x : Nat) : Nat × Nat × Nat :=
  match f32.decode x with
  | .nan => (0x7FC00000, 0, 0)
  | .inf _ => (x, 0, 0)
  | v =>
    if v.isZero then (x, 0, 0)
    else
      let hi := trunc16 x
      let r1 := f32sub v (f32.decode hi)
      let mid := trunc16 r1
      let r2 := f32sub (f32.decode r1) (f32.decode mid)
      (hi, mid, trunc16 r2)

end Sys2Proof.Machine
end

