-- ==== Sys2Proof/Machine/Codes.lean ====
section
/-! DEFINITION. The status and error codes of the spec (R11), by their names. -/

namespace Sys2Proof.Machine

/-- CL_ME_SHAPE (R161): SHAPE = 0b11; K outside R111; operand or preload shape mismatch; 64 × 16 with BANK = 1. -/
abbrev Code.CL_ME_SHAPE : BitVec 16 := 0x0160
/-- CL_ME_FORMAT (R161): Unsupported compute pair, stored format, preload format or restore class; PASSES or IEEE invalid for the class. -/
abbrev Code.CL_ME_FORMAT : BitVec 16 := 0x0161
/-- CL_ME_CHAIN (R161): ACC = 0b11; opening on an open bank; KEEP without a chain or with changed fields; SHAPE after MREST that differs from the MREST; save, restore or drop. -/
abbrev Code.CL_ME_CHAIN : BitVec 16 := 0x0162
/-- CL_ME_RETAIN (R161): Retention would exceed a queue's bound depth. -/
abbrev Code.CL_ME_RETAIN : BitVec 16 := 0x0163
/-- CL_ME_SAVE (R161): Save of a chain under a relight policy; relight policy after a restore. -/
abbrev Code.CL_ME_SAVE : BitVec 16 := 0x0164
/-- CL_ME_OPERAND (R161): Queue ends not distinct; non-zero reserved bit; non-zero field that R109 requires to be zero; ODD set outside 64 × 16. -/
abbrev Code.CL_ME_OPERAND : BitVec 16 := 0x0165
/-- CL_EE_FORMAT (R207): FMT 0xE or 0xF on an input (including an ELOAD or WLOAD tile), an output or a CVT. -/
abbrev Code.CL_EE_FORMAT : BitVec 16 := 0x0170
/-- CL_EE_SHAPE (R207): Unsupported or mismatched shape; SHAPE = 0b11; row operation in 16 × 64; WLOAD tile under 256 B. -/
abbrev Code.CL_EE_SHAPE : BitVec 16 := 0x0171
/-- CL_EE_OPERAND (R207): Queue ends not distinct; unused field not zero; non-zero reserved bit. -/
abbrev Code.CL_EE_OPERAND : BitVec 16 := 0x0172
/-- CL_WICK_PROGRAM (R207): Program fails a check of R181. -/
abbrev Code.CL_WICK_PROGRAM : BitVec 16 := 0x0173
/-- CL_WICK_BUSY (R207): Register write to wick memory while the EE is busy. -/
abbrev Code.CL_WICK_BUSY : BitVec 16 := 0x0174
/-- CL_SRU_STAT (R207): STAT code above 0x0E. -/
abbrev Code.CL_SRU_STAT : BitVec 16 := 0x0178
/-- CL_SRU_OPERAND (R207): Non-zero reserved bit in SRCLR or SREAD. -/
abbrev Code.CL_SRU_OPERAND : BitVec 16 := 0x0179
/-- CL_ABSENT_ENGINE (R286): A command names an engine beyond its class count (R270). -/
abbrev Code.CL_ABSENT_ENGINE : BitVec 16 := 0x0101
/-- CL_BAD_COMMAND (R286): Malformed command entry (R269); misaligned or out-of-range submission address, or entry or table at an unmapped address (R236, R817). -/
abbrev Code.CL_BAD_COMMAND : BitVec 16 := 0x0102
/-- CL_BUSY (R286): Target running, pending or held by the other dispatcher. -/
abbrev Code.CL_BUSY : BitVec 16 := 0x0103
/-- CL_IMAGE (R286): Program image fails R265 or its length check. -/
abbrev Code.CL_IMAGE : BitVec 16 := 0x0104
/-- CL_BIND (R286): Binding table fails R236. -/
abbrev Code.CL_BIND : BitVec 16 := 0x0105
/-- CL_NOT_LOADED (R286): Launch of a cluster without a program or bindings. -/
abbrev Code.CL_NOT_LOADED : BitVec 16 := 0x0106
/-- CL_OVERRUN (R286): Launch fired while the cluster was still running. -/
abbrev Code.CL_OVERRUN : BitVec 16 := 0x0107
/-- CL_DSP_FULL (R286): Dispatcher already holds 8 lists. -/
abbrev Code.CL_DSP_FULL : BitVec 16 := 0x0108
/-- CL_OPCODE (R286): Opcode that no chapter defines, in any range (R213). -/
abbrev Code.CL_OPCODE : BitVec 16 := 0x0110
/-- CL_CC_OPERAND (R286): Reserved bit, unused field or excluded operand in a CC instruction. -/
abbrev Code.CL_CC_OPERAND : BitVec 16 := 0x0111
/-- CL_PC_RANGE (R286): PC at or beyond CODE_WORDS. -/
abbrev Code.CL_PC_RANGE : BitVec 16 := 0x0112
/-- CL_LOOP_WRITE (R286): WRLC to an active loop counter. -/
abbrev Code.CL_LOOP_WRITE : BitVec 16 := 0x0113
/-- CL_LOOP_FORM (R286): LOOP breaks R221; LEXIT with no active loop. -/
abbrev Code.CL_LOOP_FORM : BitVec 16 := 0x0114
/-- CL_SUM_INVALID (R286): MOVU of a summary register that is not valid. -/
abbrev Code.CL_SUM_INVALID : BitVec 16 := 0x0115
/-- CL_ALIGN (R286): LD or ST address not a multiple of 8. -/
abbrev Code.CL_ALIGN : BitVec 16 := 0x0116
/-- CL_UNMAPPED (R286): LD or ST to an unmapped local address. -/
abbrev Code.CL_UNMAPPED : BitVec 16 := 0x0117
/-- CL_MEM_FAULT (R286): LD or ST refused by memory or fabric. -/
abbrev Code.CL_MEM_FAULT : BitVec 16 := 0x0118
/-- CL_DEADLOCK (R286): Watchdog limit reached (R252). -/
abbrev Code.CL_DEADLOCK : BitVec 16 := 0x0119
/-- CL_QUEUE_END (R286): Queue unbound or end not owned by the engine. -/
abbrev Code.CL_QUEUE_END : BitVec 16 := 0x011A
/-- CL_REFUSED (R286): Program ended on an engine refusal (R228, R230). -/
abbrev Code.CL_REFUSED : BitVec 16 := 0x011B
/-- CL_SLOT (R286): Output tile larger than its slot. -/
abbrev Code.CL_SLOT : BitVec 16 := 0x011C
/-- CL_QUEUE_DESC (R286): QPUSH descriptor fails R242. -/
abbrev Code.CL_QUEUE_DESC : BitVec 16 := 0x011D
/-- CL_DM_RANGE (R286): Unmapped, misaligned, overlapping or oversized DM range; instruction memory in use. -/
abbrev Code.CL_DM_RANGE : BitVec 16 := 0x0180
/-- CL_DM_FORMAT (R286): DM format or row layout fails R260. -/
abbrev Code.CL_DM_FORMAT : BitVec 16 := 0x0181
/-- CL_DM_OPERAND (R286): Non-zero reserved bit or unused field in a DM instruction. -/
abbrev Code.CL_DM_OPERAND : BitVec 16 := 0x0182
/-- CL_DM_REMOTE (R286): Remote access failed; fabric code in DM_STATUS. -/
abbrev Code.CL_DM_REMOTE : BitVec 16 := 0x0183
/-- CL_DM_MEM_FAULT (R286): A local memory controller refused a DM access; its code in DM_STATUS.MEM_CODE (R261). -/
abbrev Code.CL_DM_MEM_FAULT : BitVec 16 := 0x0184
/-- LSE_IMAGE (R421): Schedule image fails R394. -/
abbrev Code.LSE_IMAGE : BitVec 16 := 0x0501
/-- LSE_DESC (R421): Descriptor fails R396 or R397. -/
abbrev Code.LSE_DESC : BitVec 16 := 0x0502
/-- LSE_BUSY (R421): A target engine is running a solve. -/
abbrev Code.LSE_BUSY : BitVec 16 := 0x0503
/-- LSE_WARM_REJECT (R421): Warm start requested and refused under R399; reported in NOTICE only. -/
abbrev Code.LSE_WARM_REJECT : BitVec 16 := 0x0504
/-- LSE_DEADLINE_ITER (R421): Deadline reached between iterations. -/
abbrev Code.LSE_DEADLINE_ITER : BitVec 16 := 0x0505
/-- LSE_DEADLINE_FACT (R421): Deadline reached in FORM, FACTOR or SOLVE. -/
abbrev Code.LSE_DEADLINE_FACT : BitVec 16 := 0x0506
/-- LSE_RANGE (R421): Saturation with RCONT = 0. -/
abbrev Code.LSE_RANGE : BitVec 16 := 0x0507
/-- LSE_PIVOT (R421): Pivot Dⱼ ≤ 0 in Gauss–Newton mode. -/
abbrev Code.LSE_PIVOT : BitVec 16 := 0x0508
/-- LSE_LAMBDA_MAX (R421): Exponent e above 63. -/
abbrev Code.LSE_LAMBDA_MAX : BitVec 16 := 0x0509
/-- LSE_DELTA (R421): Batch fails R408. -/
abbrev Code.LSE_DELTA : BitVec 16 := 0x050A
/-- LSE_WORK (R421): WORK_LEN below WORK_BYTES. -/
abbrev Code.LSE_WORK : BitVec 16 := 0x050B
/-- LSE_MEM_FAULT (R421): An access refused by memory or fabric. -/
abbrev Code.LSE_MEM_FAULT : BitVec 16 := 0x050C
/-- LSE_STOPPED (R421): Solve ended by LSE_CTRL.STOP. -/
abbrev Code.LSE_STOPPED : BitVec 16 := 0x050D
/-- UU_DESC (R451): Entry array, table or layer descriptor breaks R425, R424 or R429. -/
abbrev Code.UU_DESC : BitVec 16 := 0x0601
/-- UU_BUSY (R451): A target UU is running an earlier entry. -/
abbrev Code.UU_BUSY : BitVec 16 := 0x0602
/-- UU_NO_STEP (R451): UU_STEP.VALID = 0 at acceptance. -/
abbrev Code.UU_NO_STEP : BitVec 16 := 0x0603
/-- UU_PLACEMENT (R451): A region lies off the UU's home stack (R423). -/
abbrev Code.UU_PLACEMENT : BitVec 16 := 0x0604
/-- UU_RULE (R451): Rule not allowed in this mode or shape (R430). -/
abbrev Code.UU_RULE : BitVec 16 := 0x0605
/-- UU_STATE (R451): State header mismatch or STATE_LEN too small. -/
abbrev Code.UU_STATE : BitVec 16 := 0x0606
/-- UU_ROWLIST (R451): Row list breaks R442. -/
abbrev Code.UU_ROWLIST : BitVec 16 := 0x0607
/-- UU_MEM_FAULT (R451): An access refused by memory or fabric. -/
abbrev Code.UU_MEM_FAULT : BitVec 16 := 0x0608
/-- MC_UNCORRECTABLE (R496): Uncorrectable error detected on this access (R469). -/
abbrev Code.MC_UNCORRECTABLE : BitVec 16 := 0x0201
/-- MC_POISON (R496): Access to a poisoned unit (R470). -/
abbrev Code.MC_POISON : BitVec 16 := 0x0202
/-- MC_TENANT (R496): Request tenant tag differs from the granule's (R475). -/
abbrev Code.MC_TENANT : BitVec 16 := 0x0203
/-- MC_NO_KEY (R496): No key slot holds the granule's tag. -/
abbrev Code.MC_NO_KEY : BitVec 16 := 0x0204
/-- MC_REG_VALUE (R496): Register write with a value out of range, discarded. -/
abbrev Code.MC_REG_VALUE : BitVec 16 := 0x0205
/-- MC_HOT_REFRESH (R496): Stack above 85 °C. -/
abbrev Code.MC_HOT_REFRESH : BitVec 16 := 0x0210
/-- MC_HOT_THROTTLE (R496): Stack above 95 °C; die throttled. -/
abbrev Code.MC_HOT_THROTTLE : BitVec 16 := 0x0211
/-- MC_HOT_SHUTDOWN (R496): Stack above 105 °C; protective shutdown. -/
abbrev Code.MC_HOT_SHUTDOWN : BitVec 16 := 0x0212
/-- MC_CE (R496): Corrected error, recorded in the event ring. -/
abbrev Code.MC_CE : BitVec 16 := 0x0220
/-- FAB_KEY_MISMATCH (R556): Granule key is 0x0000 or differs from KEY (R530). -/
abbrev Code.FAB_KEY_MISMATCH : BitVec 16 := 0x0301
/-- FAB_TIMEOUT (R556): Untracked request unanswered after 4 re-sends. -/
abbrev Code.FAB_TIMEOUT : BitVec 16 := 0x0302
/-- FAB_ATOMIC_UNKNOWN (R556): Tracked request unanswered after 4 re-sends; it may or may not have taken effect. -/
abbrev Code.FAB_ATOMIC_UNKNOWN : BitVec 16 := 0x0303
/-- FAB_NO_ROUTE (R556): No valid entry or no UP port (R520). -/
abbrev Code.FAB_NO_ROUTE : BitVec 16 := 0x0304
/-- FAB_UNREACHABLE (R556): Unmapped address, instruction memory or register region. -/
abbrev Code.FAB_UNREACHABLE : BitVec 16 := 0x0305
/-- FAB_FORMAT (R556): Reserved opcode or bit, or a length or alignment that breaks R510. -/
abbrev Code.FAB_FORMAT : BitVec 16 := 0x0306
/-- FAB_BUSY (R556): Home agent without room (R542); request failed after 1 ms. -/
abbrev Code.FAB_BUSY : BitVec 16 := 0x0307
/-- FAB_PENDING (R556): Tracked request queued and not yet applied. -/
abbrev Code.FAB_PENDING : BitVec 16 := 0x0308
/-- FAB_SEAL (R556): No fabric key for the tenant at the source. -/
abbrev Code.FAB_SEAL : BitVec 16 := 0x0309
/-- FAB_KEY_RANGE (R556): SET_REGION_KEY argument invalid. -/
abbrev Code.FAB_KEY_RANGE : BitVec 16 := 0x030A
/-- FAB_KEY_TENANT (R556): SET_REGION_KEY on a granule of another tenant. -/
abbrev Code.FAB_KEY_TENANT : BitVec 16 := 0x030B
/-- FAB_LINK_DOWN (R556): Port left UP. -/
abbrev Code.FAB_LINK_DOWN : BitVec 16 := 0x0310
/-- FAB_LINK_AUTH (R556): Peer chain failed in KEYING. -/
abbrev Code.FAB_LINK_AUTH : BitVec 16 := 0x0311
/-- FAB_EPOCH (R556): Frames dropped for an unknown epoch. -/
abbrev Code.FAB_EPOCH : BitVec 16 := 0x0312
/-- FAB_VALLEY_LOST (R556): Both twin ports down (R538). -/
abbrev Code.FAB_VALLEY_LOST : BitVec 16 := 0x0313
/-- FAB_REG_VALUE (R556): Router register write discarded. -/
abbrev Code.FAB_REG_VALUE : BitVec 16 := 0x0314
/-- CU_DESC (R595): Descriptor breaks R573 to R575. -/
abbrev Code.CU_DESC : BitVec 16 := 0x0401
/-- CU_BUSY (R595): Target CU holds a group that is not FINAL. -/
abbrev Code.CU_BUSY : BitVec 16 := 0x0402
/-- CU_TORN (R595): Corruption detected by any member (R586). -/
abbrev Code.CU_TORN : BitVec 16 := 0x0403
/-- CU_TIMEOUT (R595): Group not FINAL within CU_TIMEOUT.LIMIT. -/
abbrev Code.CU_TIMEOUT : BitVec 16 := 0x0404
/-- CU_FABRIC (R595): A collective frame failed at the fabric. -/
abbrev Code.CU_FABRIC : BitVec 16 := 0x0405
/-- TM_LATE_LAUNCH (R595): Launch less than 2 µs ahead, or stepped over (R567, R570). -/
abbrev Code.TM_LATE_LAUNCH : BitVec 16 := 0x0410
/-- TM_LL_FULL (R595): Lamplighter holds 64 entries. -/
abbrev Code.TM_LL_FULL : BitVec 16 := 0x0411
/-- TM_NOT_LOCKED (R595): Time base not locked. -/
abbrev Code.TM_NOT_LOCKED : BitVec 16 := 0x0412
/-- TM_CANCEL_LATE (R595): Cancel arrived in or after the fire cycle. -/
abbrev Code.TM_CANCEL_LATE : BitVec 16 := 0x0413
/-- TM_UNLOCK (R595): Time base lost lock (R562). -/
abbrev Code.TM_UNLOCK : BitVec 16 := 0x0420
/-- SE_DESC (R649): Entry or table breaks R629 to R631. -/
abbrev Code.SE_DESC : BitVec 16 := 0x0701
/-- SE_BUSY (R649): Snapshot copying or restore running. -/
abbrev Code.SE_BUSY : BitVec 16 := 0x0702
/-- SE_NOT_DECLARED (R649): TAKE without a declaration. -/
abbrev Code.SE_NOT_DECLARED : BitVec 16 := 0x0703
/-- SE_LATE (R649): CUT less than 10 µs ahead. -/
abbrev Code.SE_LATE : BitVec 16 := 0x0704
/-- SE_MODE (R649): COW for a job beyond one chassis. -/
abbrev Code.SE_MODE : BitVec 16 := 0x0705
/-- SE_TWIN_LOST (R649): No twin port UP. -/
abbrev Code.SE_TWIN_LOST : BitVec 16 := 0x0706
/-- SE_COPY_FAULT (R649): A copy write failed at the fabric. -/
abbrev Code.SE_COPY_FAULT : BitVec 16 := 0x0707
/-- SE_NO_GEN (R649): No qualifying slot, or a live source not CLEAN. -/
abbrev Code.SE_NO_GEN : BitVec 16 := 0x0708
/-- SE_POISONED (R649): Restore copied poisoned units. -/
abbrev Code.SE_POISONED : BitVec 16 := 0x0709
/-- SE_CANCELLED (R649): TAKE ended by CANCEL or teardown. -/
abbrev Code.SE_CANCELLED : BitVec 16 := 0x070A
/-- JOB_BUSY (R649): Member not IDLE, not quiet, or attempt already cancelled. -/
abbrev Code.JOB_BUSY : BitVec 16 := 0x0710
/-- JOB_LATE (R649): Start handled too late, or deadlines break R619. -/
abbrev Code.JOB_LATE : BitVec 16 := 0x0711
/-- JOB_MANIFEST (R649): Manifest digest, membership or parent mismatch. -/
abbrev Code.JOB_MANIFEST : BitVec 16 := 0x0712
/-- JOB_PARTITION (R649): Twin missing from the manifest. -/
abbrev Code.JOB_PARTITION : BitVec 16 := 0x0713
/-- JOB_SILENT (R649): A child sent no JACK in time. -/
abbrev Code.JOB_SILENT : BitVec 16 := 0x0714
/-- JOB_CANCEL_LATE (R649): Cancel arrived in or after the fire cycle. -/
abbrev Code.JOB_CANCEL_LATE : BitVec 16 := 0x0715
/-- JOB_CANCEL_UNKNOWN (R649): A cancel was not confirmed (R623). -/
abbrev Code.JOB_CANCEL_UNKNOWN : BitVec 16 := 0x0716
/-- JOB_START_FAILED (R649): Attempt 3 failed. -/
abbrev Code.JOB_START_FAILED : BitVec 16 := 0x0717
/-- JOB_ENDED (R649): Work stopped or refused by teardown. -/
abbrev Code.JOB_ENDED : BitVec 16 := 0x0718
/-- JOB_TENANT (R649): No key slot for the tenant. -/
abbrev Code.JOB_TENANT : BitVec 16 := 0x0719
/-- SEC_IMAGE_SIG (R680): Image certificate, signature or digest fails R653. -/
abbrev Code.SEC_IMAGE_SIG : BitVec 16 := 0x0801
/-- SEC_ROLLBACK (R680): Image SVN below the fused value. -/
abbrev Code.SEC_ROLLBACK : BitVec 16 := 0x0802
/-- SEC_KX_EXPIRED (R680): Key package names a KX key no longer held. -/
abbrev Code.SEC_KX_EXPIRED : BitVec 16 := 0x0803
/-- SEC_KEY_PACKAGE (R680): Key package malformed, or tag or signature fails. -/
abbrev Code.SEC_KEY_PACKAGE : BitVec 16 := 0x0804
/-- SEC_TAG_IN_USE (R680): Tag bound to another ID_PUB. -/
abbrev Code.SEC_TAG_IN_USE : BitVec 16 := 0x0805
/-- SEC_SLOTS_FULL (R680): 64 tags bound. -/
abbrev Code.SEC_SLOTS_FULL : BitVec 16 := 0x0806
/-- SEC_DEBUG (R680): Key package refused while debug-unlocked. -/
abbrev Code.SEC_DEBUG : BitVec 16 := 0x0807
/-- SEC_LOCKED (R680): Freeze read-out on a locked package. -/
abbrev Code.SEC_LOCKED : BitVec 16 := 0x0808
/-- SEC_TOKEN (R680): Debug token fails its checks. -/
abbrev Code.SEC_TOKEN : BitVec 16 := 0x0809
/-- SEC_NOT_QUIET (R680): Unlock or key replacement outside a quiet point. -/
abbrev Code.SEC_NOT_QUIET : BitVec 16 := 0x080A
/-- SEC_TENANT_STATE (R680): Operator path refused under R666. -/
abbrev Code.SEC_TENANT_STATE : BitVec 16 := 0x080B
/-- SEC_DIGEST_DESC (R680): DIGEST arguments or descriptor break R673 or R674. -/
abbrev Code.SEC_DIGEST_DESC : BitVec 16 := 0x080C
/-- HE_PROTO (R716): Body that breaks its layout, including an unknown KIND or an invalid PD in a LAUNCH (R702). -/
abbrev Code.HE_PROTO : BitVec 16 := 0x0901
/-- HE_AUTH (R716): HELLO identity unknown or signature failed. -/
abbrev Code.HE_AUTH : BitVec 16 := 0x0902
/-- HE_RIGHTS (R716): Request outside the session's rights (R699). -/
abbrev Code.HE_RIGHTS : BitVec 16 := 0x0903
/-- HE_SESSIONS_FULL (R716): Port already holds 16 sessions. -/
abbrev Code.HE_SESSIONS_FULL : BitVec 16 := 0x0904
/-- HE_SESSION_LOST (R716): Session closed after 8 resends. -/
abbrev Code.HE_SESSION_LOST : BitVec 16 := 0x0905
/-- HE_ADDR (R716): Address or range breaks R701, R703 or R707. -/
abbrev Code.HE_ADDR : BitVec 16 := 0x0906
/-- HE_MGMT_KEY (R716): Management request from an unlisted package or with a wrong key. -/
abbrev Code.HE_MGMT_KEY : BitVec 16 := 0x0907
/-- HE_NOT_BOOT (R716): Request not allowed in the current boot mode. -/
abbrev Code.HE_NOT_BOOT : BitVec 16 := 0x0908
/-- HE_LINK_DOWN (R716): Host port left the up state. -/
abbrev Code.HE_LINK_DOWN : BitVec 16 := 0x0910
/-- DBG_REG_VALUE (R811): DBG register write out of range, or not allowed in the ring's state, discarded (R750). -/
abbrev Code.DBG_REG_VALUE : BitVec 16 := 0x0B01
/-- PWR_DOMAIN_OFF (R785): Command names an engine in a domain that is off. -/
abbrev Code.PWR_DOMAIN_OFF : BitVec 16 := 0x0A01
/-- PWR_DOMAIN_BUSY (R785): Domain switch refused (R758). -/
abbrev Code.PWR_DOMAIN_BUSY : BitVec 16 := 0x0A02
/-- PWR_PMBUS (R785): Regulator silent or faulted (R755). -/
abbrev Code.PWR_PMBUS : BitVec 16 := 0x0A03
/-- PWR_HBM_TRAIN (R785): Stack failed training. -/
abbrev Code.PWR_HBM_TRAIN : BitVec 16 := 0x0A04
/-- PWR_NO_IMAGE (R785): No source gave an accepted image. -/
abbrev Code.PWR_NO_IMAGE : BitVec 16 := 0x0A05
/-- PWR_BOOT_TIMEOUT (R785): Boot watchdog expired (R777). -/
abbrev Code.PWR_BOOT_TIMEOUT : BitVec 16 := 0x0A06
/-- PWR_REG_VALUE (R785): Register write out of range, discarded. -/
abbrev Code.PWR_REG_VALUE : BitVec 16 := 0x0A07
/-- PWR_THROTTLE (R785): Frequency step down (R764). -/
abbrev Code.PWR_THROTTLE : BitVec 16 := 0x0A10
/-- PWR_FLOOR_OVERRIDE (R785): Die held below its software floor. -/
abbrev Code.PWR_FLOOR_OVERRIDE : BitVec 16 := 0x0A11
/-- PWR_THERMTRIP (R785): Junction above 115 °C; protective shutdown. -/
abbrev Code.PWR_THERMTRIP : BitVec 16 := 0x0A12
/-- CLK_PLL_UNLOCK (R785): PLL lost lock. -/
abbrev Code.CLK_PLL_UNLOCK : BitVec 16 := 0x0A20
/-- CLK_REF_LOST (R785): Reference clock stopped. -/
abbrev Code.CLK_REF_LOST : BitVec 16 := 0x0A21
/-- CLK_PPS_LOST (R785): No 1PPS edge for 2 s. -/
abbrev Code.CLK_PPS_LOST : BitVec 16 := 0x0A22

end Sys2Proof.Machine
end

