-- ==== Sys2Proof/Machine/Mem.lean ====
section
/-! DEFINITION. The byte memory: a list of (address, byte) pairs with rising addresses and no zero byte, so that equal
memories are equal data. A byte that nothing has written reads as 0 (DESIGN CHOICE, log 2). -/

namespace Sys2Proof.Machine

/-- What a byte that no entry lists reads as (DESIGN CHOICE, log 2). -/
def unlisted : Byte := 0

/-- The byte at address `a`. -/
def memRd : List Host.Cell → Nat → Byte
  | [], _ => unlisted
  | (k, b) :: r, a => if k = a then b else memRd r a

/-- Put a byte before the entries of the rest of the memory, listing it only if it differs from `unlisted`. -/
def memCons (a : Nat) (b : Byte) (r : List Host.Cell) : List Host.Cell :=
  if b = unlisted then r else (a, b) :: r

/-- The memory with byte `b` at address `a`. -/
def memWr (m : List Host.Cell) (a : Nat) (b : Byte) : List Host.Cell :=
  match m with
  | [] => memCons a b []
  | (k, c) :: r =>
    if a < k then memCons a b ((k, c) :: r)
    else if a = k then memCons a b r
    else (k, c) :: memWr r a b

/-- The `n` bytes from address `a` up. -/
def memRdN (m : List Host.Cell) (a : Nat) : Nat → List Byte
  | 0 => []
  | n + 1 => memRd m a :: memRdN m (a + 1) n

/-- The memory with bytes `l` from address `a` up. -/
def memWrL (m : List Host.Cell) (a : Nat) (l : List Byte) : List Host.Cell :=
  match l with
  | [] => m
  | b :: r => memWrL (memWr m a b) (a + 1) r

/-- The memory without what it lists from address `lo` up to and not including `hi`. -/
def memClear (m : List Host.Cell) (lo hi : Nat) : List Host.Cell :=
  m.filter (fun c => c.1 < lo || hi ≤ c.1)

/-- The memory in canonical form: every byte reads as before, and nothing is listed twice or needlessly. -/
def memNorm (m : List Host.Cell) : List Host.Cell := m.foldr (fun c r => memWr r c.1 c.2) []

/-- Every listed address is above `a`. -/
def memAbove (a : Nat) : List Host.Cell → Bool
  | [] => true
  | (k, _) :: _ => decide (a < k)

/-- The canonical form: addresses strictly rising, no byte equal to what an unlisted address reads as. -/
def memWf : List Host.Cell → Bool
  | [] => true
  | (k, b) :: r => decide (b ≠ unlisted) && memAbove k r && memWf r

end Sys2Proof.Machine
end

