-- ==== Sys2Proof/Machine/RegTable.lean ====
section
/-! DEFINITION. The register region: which block an offset lies in (R22, R812), and for each register the types of its
fields and its reset value (R7, and the register tables of the chapters). -/

namespace Sys2Proof.Machine

/-- The register blocks of R22. -/
inductive Blk where
  | sys | pwr | clk | sec | dbg | ll | mc | uu | se | lse | dsp | fl | fr | cu | tm | he | scd | bootBuf | bootRom | cl
  deriving DecidableEq, Repr

/-- A block of R22: its first offset, its stride (R812) and the instances that R22 counts for grade A. -/
def blkSpan : Blk → Nat × Nat × Nat
  | .sys => (0x00000000, 0x10000, 1)
  | .pwr => (0x00010000, 0x10000, 1)
  | .clk => (0x00020000, 0x10000, 1)
  | .sec => (0x00030000, 0x10000, 1)
  | .dbg => (0x00040000, 0x10000, 1)
  | .ll => (0x00100000, 0x10000, 8)
  | .mc => (0x00200000, 0x10000, 16)
  | .uu => (0x00300000, 0x10000, 16)
  | .se => (0x00400000, 0x10000, 4)
  | .lse => (0x00500000, 0x10000, 8)
  | .dsp => (0x00600000, 0x10000, 2)
  | .fl => (0x00700000, 0x100000, 2)
  | .fr => (0x00900000, 0x10000, 2)
  | .cu => (0x00A00000, 0x10000, 2)
  | .tm => (0x00B00000, 0x10000, 2)
  | .he => (0x00C00000, 0x10000, 2)
  | .scd => (0x08000000, 0x1000, 96)
  | .bootBuf => (0x0E000000, 0x1000000, 1)
  | .bootRom => (0x0F000000, 0x40000, 1)
  | .cl => (0x10000000, 0x10000, 800)

/-- All the blocks. -/
def allBlks : List Blk :=
  [.sys, .pwr, .clk, .sec, .dbg, .ll, .mc, .uu, .se, .lse, .dsp, .fl, .fr, .cu, .tm, .he, .scd, .bootBuf, .bootRom, .cl]

/-- The block, instance and offset within the instance of an offset of the register region; none where it lies inside
no span (R23, R812). -/
def locateIn : List Blk → Nat → Option (Blk × Nat × Nat)
  | [], _ => none
  | b :: r, o =>
    let (base, stride, n) := blkSpan b
    if base ≤ o && o < base + stride * n then some (b, (o - base) / stride, (o - base) % stride) else locateIn r o

/-- The block, instance and offset within the instance of an offset of the register region (R812). -/
abbrev locate (o : Nat) : Option (Blk × Nat × Nat) := locateIn allBlks o

/-- The offset in the register region of offset `o` of instance `i` of a block. -/
def regAt (b : Blk) (i o : Nat) : Nat := (blkSpan b).1 + i * (blkSpan b).2.1 + o

/-- The fields of a register by type (R7), as masks: RW, RWL, W1C, RC; every other bit is RO, WO or reserved and takes
no write. `reset` is its value after reset. -/
structure RegDef where
  rw    : Nat
  rwl   : Nat
  w1c   : Nat
  rc    : Nat
  reset : Nat
  deriving DecidableEq, Repr

/-- The mask of bits [hi:lo]. -/
def mask (hi lo : Nat) : Nat := 2 ^ (hi + 1) - 2 ^ lo

/-- A register all of whose bits are read-only or reserved, with a reset value. -/
abbrev ro (reset : Nat) : RegDef := ⟨0, 0, 0, 0, reset⟩
/-- A register with RW fields. -/
abbrev rw (m reset : Nat) : RegDef := ⟨m, 0, 0, 0, reset⟩
/-- A register with RWL fields. -/
abbrev rwl (m reset : Nat) : RegDef := ⟨0, m, 0, 0, reset⟩
/-- A register with RC fields. -/
abbrev rc (m reset : Nat) : RegDef := ⟨0, 0, 0, m, reset⟩

/-- SYS (R33 to R40). -/
def regSys (o : Nat) : RegDef := if o = 0x30 then rwl (mask 29 16 + mask 13 0) 0 else ro 0

/-- PWR (R783). -/
def regPwr (o : Nat) : RegDef :=
  match o with
  | 0x00 => rc (mask 47 32 + mask 31 0) 0
  | 0x10 => rw (mask 43 0) (2 ^ 44 - 1)
  | 0x18 => rw (mask 23 0) 0xCCCCCC
  | 0x20 => rw (mask 23 0) 0
  | 0x28 => rw (mask 63 0) 0x01B801B801B801B8
  | 0x40 => rw (mask 63 0) 0
  | _ => ro 0

/-- CLK (R784). -/
def regClk (o : Nat) : RegDef := if o = 0x08 then rwl (mask 63 63 + mask 39 0) 0xEE6B2800 else ro 0

/-- SEC (R679). -/
def regSec (o : Nat) : RegDef := if o = 0x00 then rc (mask 47 32) 0 else ro 0

/-- The budgets of R735 by activity and kind of resource (0 stack, 1 pass direction, 2 twin port, 3 other port). -/
def budgetReset (a kind : Nat) : Nat :=
  match a, kind with
  | 2, 0 => 1048576 | 2, 2 => 262144 | 2, 3 => 0
  | 3, 0 => 65536 | 3, _ => 0
  | 4, 1 => 0 | 4, 2 => 0 | 4, 3 => 0
  | 5, 0 => 65536 | 5, _ => 10240
  | 6, 0 => 32768 | 6, _ => 10240
  | 7, _ => 0
  | _, _ => 0xFFFFFFFF

/-- The kind of budget resource `r` (R732): 0 to 15 stacks, 16 to 39 pass directions, 40 to 75 ports, of which 40 and
58 are the twin ports. -/
def budgetKind (r : Nat) : Nat :=
  if r < 16 then 0 else if r < 40 then 1 else if r = 40 || r = 58 then 2 else 3

/-- DBG (R748 to R752). -/
def regDbg (o : Nat) : RegDef :=
  if o = 0x00 then ⟨0, 0, mask 0 0, mask 47 32, 0⟩
  else if o = 0x08 then rw (mask 63 0) 0x0101010210100840
  else if 0x100 ≤ o && o < 0x200 then
    match o % 0x20 with
    | 0x00 => rw (mask 49 6 + mask 0 0) 0
    | 0x08 => rw (mask 4 0) 0x0A
    | 0x10 => rc (mask 63 32) 0
    | 0x18 => rw (mask 31 0) 0
    | _ => ro 0
  else if o = 0x200 then rw (mask 23 16 + mask 6 0) 0
  else if o = 0x210 then rw (mask 63 0) 0
  else if 0x2000 ≤ o && o < 0x2000 + 76 * 64 then
    let a := (o - 0x2000) / 8 % 8
    let b := budgetReset a (budgetKind ((o - 0x2000) / 64))
    if a = 7 then ro 0 else rw (mask 31 0) (b + 2 ^ 32 * b)
  else ro 0

/-- LL (R592). -/
def regLl (o : Nat) : RegDef := if o = 0x00 then rc (mask 47 32) 0 else ro 0

/-- MC (R491 to R495). -/
def regMc (o : Nat) : RegDef :=
  match o with
  | 0x00 => rc (mask 47 32) 0
  | 0x08 => rwl (mask 4 0) 0
  | 0x10 => rwl (mask 55 0) 0
  | 0x18 => rwl (0x8F8F8F8F) 0x87868381
  | 0x28 => rw (mask 1 0) 0
  | 0x30 => rw (mask 31 0) 0xE10
  | 0x38 => rc (mask 47 0) 0
  | 0x40 => rc (mask 47 0) 0
  | _ => if 0x100 ≤ o && o < 0x180 then rw (mask 63 63 + mask 47 32 + mask 27 16) 0 else ro 0

/-- UU (R449, R450). -/
def regUu (o : Nat) : RegDef :=
  match o with
  | 0x00 => rc (mask 47 32) 0
  | 0x08 => rw (mask 31 0) 0
  | _ => ro 0

/-- SE, with the job registers of instance 0 (R646 to R648). -/
def regSe (i o : Nat) : RegDef :=
  match o with
  | 0x00 => rc (mask 47 32) 3
  | 0x18 => rc (mask 63 0) 0
  | 0x1000 => if i = 0 then rc (mask 23 8) 8 else ro 0
  | 0x1008 => if i = 0 then rw (mask 31 0) 0x400000 else ro 0
  | _ => ro 0

/-- LSE (R419, R420). -/
def regLse (o : Nat) : RegDef :=
  match o with
  | 0x00 => rc (mask 47 32) 0
  | 0x10 => rc (mask 31 0) 0
  | _ => ro 0

/-- DSP (R285). -/
def regDsp (o : Nat) : RegDef := if o = 0x08 then rc (mask 15 0) 0 else ro 0

/-- FL (R551, R552), by offset within a port. -/
def regFl (o : Nat) : RegDef :=
  if o / 0x1000 < 18 then
    match o % 0x1000 with
    | 0x00 => ⟨mask 3 3, 0, 0, mask 31 16, 0x3FFF * 2 ^ 50 + 8⟩
    | 0x08 => rc (mask 63 0) 0
    | 0x10 => rc (mask 63 0) 0
    | _ => ro 0
  else ro 0

/-- FR (R554, R555). -/
def regFr (o : Nat) : RegDef :=
  match o with
  | 0x00 => ⟨mask 15 0, 0, 0, mask 47 32, 0x0400⟩
  | 0x08 => rw (mask 7 4 + mask 1 0) 0x240
  | 0x10 => rw (mask 14 0) 0
  | 0x20 => rc (mask 63 0) 0
  | 0x28 => rc (mask 63 0) 0
  | 0x30 => rc (mask 31 16) 0
  | 0x38 => rw (mask 31 0) 0x02020408
  | _ => ro 0

/-- CU (R594). -/
def regCu (o : Nat) : RegDef :=
  match o with
  | 0x00 => rc (mask 47 32) 0
  | 0x08 => rwl (mask 39 0) 0x989680
  | 0x18 => rc (mask 63 16) 0
  | _ => ro 0

/-- TM (R593). -/
def regTm (i o : Nat) : RegDef :=
  match o with
  | 0x00 => if i = 0 then rwl (mask 10 8 + mask 5 0) 0 else ro 0
  | 0x08 => rc (mask 31 16) 0
  | 0x18 => ro 0x0000000280000000
  | _ => ro 0

/-- HE (R713 to R715). -/
def regHe (o : Nat) : RegDef :=
  match o with
  | 0x00 => rc (mask 47 32) 0
  | 0x08 => rw (mask 47 16 + mask 0 0) (0x03E8 * 2 ^ 32 + 3 * 2 ^ 29 + 1)
  | 0x18 => rw (mask 37 0) 0
  | 0x20 => rw (mask 63 0) 0
  | 0x28 => rw (mask 63 0) 0
  | 0x30 => rwl 0xBFFFBFFFBFFFBFFF 0
  | 0x40 => rc (mask 63 0) 0
  | _ => ro 0

/-- A cluster block (R158 to R160, R204 to R206, R283, R284). -/
def regCl (o : Nat) : RegDef :=
  match o with
  | 0x0018 => rwl (mask 31 0) 0x01000000
  | 0x2000 => rw 1 0
  | 0x2008 => rc (mask 31 16) 0
  | 0x2018 => rc (mask 63 0) 0
  | 0x3000 => rc (mask 31 16) 0
  | 0x5000 => rc (mask 31 16) 0
  | 0x6000 => rc (mask 31 16) 0
  | _ => ro 0

/-- The definition of the register at an offset of an instance of a block. -/
def regDef (b : Blk) (i o : Nat) : RegDef :=
  match b with
  | .sys => regSys o
  | .pwr => regPwr o
  | .clk => regClk o
  | .sec => regSec o
  | .dbg => regDbg o
  | .ll => regLl o
  | .mc => regMc o
  | .uu => regUu o
  | .se => regSe i o
  | .lse => regLse o
  | .dsp => regDsp o
  | .fl => regFl o
  | .fr => regFr o
  | .cu => regCu o
  | .tm => regTm i o
  | .he => regHe o
  | .scd => ro 0
  | .bootBuf => ro 0
  | .bootRom => ro 0
  | .cl => regCl o

/-- The reset value of the register at an offset of the register region. -/
def regReset (o : Nat) : Word :=
  match locate o with
  | some (b, i, x) => wd (regDef b i x).reset
  | none => 0

end Sys2Proof.Machine
end

