-- ==== Sys2Proof/Machine/State.lean ====
section
/-! DEFINITION. The state of one HN-8 package as plain data: every register, queue, engine, table and pin that the
spec gives it, the queue of waiting commands, and the state right after a power-on reset. Register contents that are
storage stand in `regs`, keyed by their offset in the register region (R22); a register that shows a unit's own state
is computed from that unit by `State.regView` (Sys2Proof/Machine/RegOps.lean). -/

namespace Sys2Proof.Machine

/-! ## The part -/

/-- What fuses and the package fix for one part: grade (R3), disabled-unit map (R39), spares (R728), the fused
security version (R655), the MAC addresses (R714), the digest of the device public key (R651) and the strap of
R770. `stepDigit` is the stepping digit of `SYS_ID` (R33). -/
structure Part where
  grade     : Nat
  dumap     : BitVec 1024
  spare     : BitVec 1024
  svn       : Nat
  mac0      : BitVec 48
  mac1      : BitVec 48
  devid     : List Byte
  stepDigit : BitVec 4
  strapOut  : Bool
  opDigests : List (List Byte)
  deriving DecidableEq, Repr

/-! ## Clusters -/

/-- The four states of a cluster (R210). -/
inductive ClState where
  | empty | loaded | running | faulted
  deriving DecidableEq, Repr

/-- An instruction in an engine's issue queue (R225): where it stood, its word, the scalar operands read at issue,
and its place in the control core's issue order. -/
structure Issued where
  pc   : Nat
  word : Word
  ops  : List Word
  seq  : Nat
  deriving DecidableEq, Repr

/-- One queue of a cluster (R234 to R239): its binding word, the entries pushed and not yet released (descriptor and
slot), the slots reserved and not yet pushed, the slots that the ME retains with the bank of the chain that it retains each for
(R148), and the next slot to fill. -/
structure Queue where
  bind     : Word
  entries  : List Word
  reserved : Nat
  retained : List (Nat × Nat)
  next     : Nat
  deriving DecidableEq, Repr

/-- Counts that an engine's commit adds to the cluster's counts (R133, R192). -/
structure Counts where
  clips : Nat
  nans  : Nat
  bad   : Nat
  trigs : Nat
  relit : Nat
  deriving DecidableEq, Repr

/-- A pair of operand tiles that an open chain keeps for a relight (R148), by their descriptors. -/
structure Pair where
  qa : Nat
  a  : Word
  qb : Nat
  b  : Word
  deriving DecidableEq, Repr

/-- The state of an accumulator bank's chain (R125): open, or draining from the pop of its `LAST` instruction, or
relighting. -/
inductive BankState where
  | open | draining | relighting
  deriving DecidableEq, Repr

/-- One accumulation chain of the matrix engine (R123 to R140). `even` and `odd` hold the accumulators as the 64-bit
words of R68 (`odd` only for 64 × 16, R122); `fields` is the instruction that opened the chain, none after an
`MREST` until its first `MMA` (R136), and `offAt` is `RELIGHT_OFF` as the `MREST` found it (R144). -/
structure Chain where
  state     : BankState
  shape     : Nat
  isInt     : Bool
  fields    : Option Word
  restored  : Bool
  offAt     : Bool
  eff       : Nat
  even      : List Word
  odd       : List Word
  nextOdd   : Bool
  groups    : Nat
  preload   : Option (Nat × Word)
  pairs     : List Pair
  rest      : List (List Word × List Word)
  narrowed  : Bool
  clipIn    : Nat
  overflow  : Bool
  sat       : Bool
  clip      : Bool
  nan       : Bool
  preSat    : Bool
  preClip   : Bool
  counts    : Counts
  last      : Option Issued
  decided   : Bool
  relit     : Bool
  deriving DecidableEq, Repr

/-- An EE instruction executed and not yet committed (R192): the output tile, if it pushes one, and its counts. -/
structure EePend where
  seq    : Nat
  pc     : Nat
  wick   : Bool
  out    : Option (Nat × Word × List Byte)
  counts : Counts
  deriving DecidableEq, Repr

/-- A slice of 128 lanes that a `STAT` feeds (R195): the values of the fed lanes, none where a lane is not fed. -/
structure Feed where
  seq   : Nat
  lanes : List (Option (BitVec 32))
  deriving DecidableEq, Repr

/-- A statistic set of the SRU (R194), with the slices fed and not yet folded in, and the issue number of the
`SRCLR` that opened its interval (R200). -/
structure StatSet where
  n     : Nat
  c     : Word
  s1    : Word
  s2    : Word
  mn    : BitVec 32
  mx    : BitVec 32
  nans  : Nat
  feeds : List Feed
  since : Nat
  deriving DecidableEq, Repr

/-- A data-mover instruction in progress (R262): its issue, the descriptor of the tile it popped, the rows of a `DSTORE`
with their addresses, the counts of its conversion, the remote requests and held writes it still waits for, the pieces that
remote and local reads have brought, whether its writes are under way, and the local ones that have not started. -/
structure DmOp where
  id      : Nat
  ins     : Issued
  desc    : Word
  rows    : List (Word × List Byte)
  counts  : Counts
  rem     : Nat
  got     : List (Word × List Byte)
  loc     : List (Word × List Byte)
  writing : Bool
  put     : List (Word × List Byte)
  deriving DecidableEq, Repr

/-- What the control core waits for while a load or store of its own is under way (R216): an answer, or that memory of this
package lets the access start. -/
inductive CcWait where
  | load (rd : Nat)
  | store
  | mem
  deriving DecidableEq, Repr

/-- A program image on its way into a cluster (R266): its number in the cluster, where it stands, its length as the command names
it, the remote pieces still out, the remote and the local pieces come, and whether its header has been accepted. -/
structure ProgLoad where
  id   : Nat
  addr : Word
  len  : Nat
  rem  : Nat
  got  : List (Word × List Byte)
  loc  : List (Word × List Byte)
  body : Bool
  deriving DecidableEq, Repr

/-- One cluster: control core (R208), queues, the four engines and what a launch leaves in it (R267). -/
structure Cluster where
  st        : ClState
  bound     : Bool
  pendingLl : Bool
  codeWords : Nat
  entry     : Nat
  rfmode    : Bool
  pc        : Nat
  s         : Tab Word
  u         : Tab Word
  uValid    : List Nat
  lc        : Tab Nat
  loops     : List (Nat × Nat × Nat)
  tok       : Tab Nat
  latch     : Option (BitVec 16 × Nat × Nat)
  fault     : Word
  exit      : BitVec 16
  cyc       : Nat
  wdog      : Nat
  seq       : Nat
  open_     : List (Nat × Nat × Nat)
  wait      : Option CcWait
  meQ       : List Issued
  eeQ       : List Issued
  sruQ      : List Issued
  dmQ       : List Issued
  queues    : Tab Queue
  bank0     : Option Chain
  bank1     : Option Chain
  tb        : Tab (List (BitVec 32))
  k         : Tab (BitVec 32)
  eePend    : List EePend
  sets      : Tab StatSet
  reads     : List Issued
  log       : List (Nat × Counts)
  dm        : List DmOp
  dmNext    : Nat
  launchedBy : Option Creator
  heldBy    : Option Creator
  loading   : Option ProgLoad
  loads     : Nat
  deriving DecidableEq, Repr

/-! ## Solver cores -/

/-- What a solver core stalls on (R322, R329, R364): a remote load or atomic into a register, a remote fetch, a shared line
of the twin (for an element of a vector access its number too), a store that memory holds or that has to be answered, the post block of a `POST`, and an element of a vector load
or store; the word is the stalled instruction. -/
inductive ScWait where
  | load (op d : Nat) (addr : Word)
  | atomic (d : Nat) (addr : Word)
  | fetch (pc : Word)
  | line (addr : Word)
  | vline (i : Nat) (addr : Word)
  | store (addr : Word)
  | post (w addr : Word)
  | vload (w : Word) (i : Nat) (addr : Word)
  | vstore (w : Word) (i : Nat) (addr : Word)
  deriving DecidableEq, Repr

/-- One solver core: the scalar state of R287, the vector state of R338, the system registers of R331 and R369, and
its run state (R309, R306, R747, R775); `status` is held without `LEVEL`, which `level` is, and `fetched` is an instruction
word that has come from another package. -/
structure Core where
  g        : Tab Word
  v        : Tab (BitVec 2048)
  m        : Tab Word
  vl       : Nat
  ew32     : Bool
  vstart   : Nat
  pc       : Word
  level    : Nat
  fcsr     : Word
  status   : Word
  tvec     : Word
  epc      : Word
  cause    : Word
  tval     : Word
  scratch  : Word
  ien      : Word
  ipend    : Word
  tcmp     : Word
  prb      : Tab Word
  prl      : Tab Word
  vxcause  : Word
  fwStatus : Word
  fwTvec   : Word
  fwEpc    : Word
  fwCause  : Word
  fwTval   : Word
  fwScratch : Word
  fwIen    : Word
  fwIpend  : Word
  sigFrom  : Word
  postRec  : Word
  storeBad : Word × BitVec 16
  wfe      : Bool
  wait     : Option ScWait
  posted   : Nat
  run      : Bool
  stopped  : Bool
  halted   : Bool
  stepping : Bool
  retired  : Nat
  cyc      : Nat
  last     : Word
  fetched  : Option (Word × Word)
  deriving DecidableEq, Repr

/-! ## Dispatchers, lamplighters -/

/-- What a lamplighter entry starts (R566). -/
inductive LlTarget where
  | clusters (ns : List Nat) (args : List Word)
  | list (pd l : Nat)
  | collective (f : Nat)
  deriving DecidableEq, Repr

/-- An entry of a lamplighter (R566, R567). -/
structure LlEntry where
  t       : Word
  creator : Creator
  target  : LlTarget
  armed   : Bool
  deriving DecidableEq, Repr

/-- Who submitted a command list (R277): a session of a host port, a solver core with or without notify, or the job
agent. -/
inductive Submitter where
  | host (f sess : Nat)
  | core (c : Nat) (notify : Bool)
  | job
  deriving DecidableEq, Repr

/-- An entry that a list has started (R271): its targets still running, and the status of each that has ended. -/
structure EntryRun where
  idx    : Nat
  cmd    : Nat
  sync   : Bool
  left   : List Nat
  status : List (Nat × BitVec 16)
  deriving DecidableEq, Repr

/-- The progress of a command list: waiting for its start time, running, or ended with a status at an entry. -/
inductive ListState where
  | waiting | running | ended (code : BitVec 16) (idx : Nat)
  deriving DecidableEq, Repr

/-- A command list that a dispatcher holds (R277, R278), with what its reads for its current entry have brought: remote pieces
still out, remote and local pieces come, and the code of one that failed; when it ended; and of a record that it writes the pieces
still to be written, those that memory holds, and the code with which a `DIGEST` then ends. -/
structure CmdList where
  id     : Nat
  addr   : Word
  start  : Word
  record : Word
  tag    : Word
  by_    : Submitter
  tenant : BitVec 12
  idx    : Nat
  state  : ListState
  runs   : List EntryRun
  rem    : Nat
  got    : List (Word × List Byte)
  loc    : List (Word × List Byte)
  err    : BitVec 16
  endAt  : Word
  put    : List (Word × List Byte)
  heldW  : Nat
  fin    : Option (BitVec 16)
  deriving DecidableEq, Repr

/-- One dispatcher. -/
structure Disp where
  lists : List CmdList
  next  : Nat
  deriving DecidableEq, Repr

/-- One lamplighter with its entries (R566). -/
structure Lamp where
  entries : List LlEntry
  deriving DecidableEq, Repr

/-! ## Least-squares engines and update units -/

/-- The phases of a least-squares engine (R410). -/
inductive Phase where
  | idle | load | wait | test | form | factor | solve | publish
  deriving DecidableEq, Repr

/-- What follows a test once the slot of its batch is free again: the end of the solve, a `FORM`, or a rejection. -/
inductive LseNext where
  | end_ (code : BitVec 16) (reason : Nat)
  | form
  | reject
  deriving DecidableEq, Repr

/-- What a least-squares engine has under way with memory: clearing `DONE` and `REQ_SEQ`, the image, the work area, `JBASE` and
`RBASE` of LOAD, the accepted point, the candidate and the two parts of the request half of PUBLISH (each with whether a value of the
phase saturated), the header and the entries of a batch, the slot's `SEQ`, and the two parts of the result half (with the outcome,
and the time of `DONE`). -/
inductive LseAct where
  | rest
  | begin0 | begin1
  | image | work | jbase | rbase
  | point | cand (sat : Bool) | body (sat : Bool) | seq (sat : Bool)
  | poll | batch (count : Nat) | clear (k : LseNext)
  | result (code : BitVec 16) (t : Word) | last (code : BitVec 16)
  deriving DecidableEq, Repr

/-- One least-squares engine (R372 to R421), beside its registers: the descriptor of its solve, its progress (`known` says
whether the cost of the accepted iterate has been computed), its resident schedule and linearisation, the product matrix,
gradient, factor, diagonal (of N after FORM, D after FACTOR) and step, and what it has under way with memory: the pieces come, the
pieces to be written, and the writes that memory holds. Fixed-point values are held as integers of their class (R379). -/
structure Lse where
  phase    : Phase
  desc     : List Word
  entry    : Option Creator
  tenant   : BitVec 12
  soft     : Bool
  deadline : Word
  stop     : Bool
  warm     : Bool
  notice   : Bool
  cur      : Nat
  req      : Nat
  e        : Int
  facts    : Nat
  accepted : Nat
  prev     : Nat
  cost     : Int
  known    : Bool
  fresh    : Bool
  img      : List Byte
  j        : List Int
  r        : List Int
  p        : Tab Int
  g        : List Int
  l        : Tab Int
  dg       : List Int
  x        : List Int
  satAny   : Bool
  satClass : Nat
  satCount : Nat
  resident : Bool
  hash     : Word
  work     : Word × Word
  act      : LseAct
  got      : List (Word × List Byte)
  put      : List (Word × List Byte)
  heldW    : Nat
  deriving DecidableEq, Repr

/-- What an update unit has under way with memory: reading a layer, writing its state, its parameters (with their width), or its
result record. `p` is what is still to become of the parameters, `rec` the record. -/
inductive UuAct where
  | rest
  | read
  | state (pw : Nat) (p : List (Word × List Byte)) (rec : List Byte)
  | param (pw : Nat) (rec : List Byte)
  | record (code : BitVec 16)
  deriving DecidableEq, Repr

/-- One update unit (R422 to R451): the layer table of its running entry and what it has done of it, and what it has under way with
memory: the pieces come, the pieces to be written, and the writes that memory holds. -/
structure Upd where
  busy   : Bool
  table  : Word
  count  : Nat
  idx    : Nat
  eta    : BitVec 32
  status : BitVec 16
  entry  : Option Creator
  tenant : BitVec 12
  act    : UuAct
  got    : List (Word × List Byte)
  put    : List (Word × List Byte)
  heldW  : Nat
  deriving DecidableEq, Repr

/-! ## Memory controllers -/

/-- Who waits for the outcome of a memory or fabric access. -/
inductive Owner where
  | none
  | cc (n : Nat)
  | sc (c : Nat)
  | post (c : Nat) (addr : Word)
  | dm (n id : Nat) (addr : Word) (len : Nat)
  | load (n id : Nat) (addr : Word)
  | disp (pd l : Nat) (addr : Word)
  | fabric (f : Nat) (x : JFrame)
  | host (f sess seq : Nat)
  | cu (f id : Nat)
  | cuWrite (f id : Nat)
  | cuSeg (f id : Nat) (x : JFrame) (at_ : Word)
  | uu (k n : Nat)
  | lse (n : Nat)
  | digest (pd l : Nat)
  | ring (d : Nat)
  | snap
  | restore (addr : Word) (len : Nat)
  | job (pkg : BitVec 14)
  | jman (job : BitVec 32) (attempt : Nat) (addr : Word)
  | jcopy
  | line (addr : Word) (excl : Bool)
  | recall (addr : Word) (excl : Bool)
  deriving DecidableEq, Repr

/-- The outcome of an access that reaches its unit when the current command ends: a code (0 = success) and the bytes. -/
structure Done where
  owner : Owner
  code  : BitVec 16
  data  : List Byte
  deriving DecidableEq, Repr

/-- Who makes an access: requester class, activity, tenant tag, priority mark, and the die it comes from (R459, R463, R20). -/
structure Req where
  cls  : Nat
  act  : Nat
  tag  : BitVec 12
  prio : Bool
  die  : Nat
  deriving DecidableEq, Repr

/-- A write or atomic that a memory controller holds on a pending granule (R483): its requester, the stack offset and the bytes
still to be written, the operation and operands of an atomic, and who waits. -/
structure HeldWrite where
  req   : Req
  addr  : Word
  data  : List Byte
  atom  : Option (Byte × Word × Word)
  owner : Owner
  deriving DecidableEq, Repr

/-- A key slot (R474). -/
structure KeySlot where
  tag  : BitVec 12
  key1 : List Byte
  key2 : List Byte
  deriving DecidableEq, Repr

/-- One memory controller (R452 to R496), beside its registers: the priority bucket (R465), the pending granules of
the copy-on-write bitmap (R481), urgent copies and those of them let beyond the budget in this period (R486), the units that granules being copied have read
(R483), the held writes, the scrub position (R471), the
count of refreshes and the key slots. -/
structure Mc where
  prio     : Nat
  cow      : List Nat
  sweep    : List Nat
  urgent   : List Nat
  overs    : List Nat
  staged   : Tab Nat
  held     : List HeldWrite
  scrubAt  : Nat
  refreshes : Nat
  keys     : List KeySlot
  deriving DecidableEq, Repr

/-- What a unit at rest is enciphered under (R474): the key pair and the data-unit sequence number. -/
structure Crypt where
  key1 : List Byte
  key2 : List Byte
  seq  : Nat
  deriving DecidableEq, Repr

/-- A retag scrub under way (R476): the granule, its new tag and the bytes of it already zeroed. -/
structure Retag where
  gran : Nat
  tag  : BitVec 12
  done : Nat
  deriving DecidableEq, Repr

/-- The answer of a memory controller to the last request that a command put to it directly (R461). -/
structure MemAnswer where
  code : BitVec 16
  data : List Byte
  deriving DecidableEq, Repr

/-! ## Fabric -/

/-- The link end of a port (R501 to R505), beside its registers: the last link counter accepted, the counter that a
sync word announced, whether words are being discarded up to the next sync word, the sender's counter, the frames sent
under the current key, the bytes sent since the last sync word, whether the port is retired (R729), the number of the ephemeral key of
an exchange under way, the transmit key, the receive key and its index, the receive key of the other index (R502), and the place of the
round robin (R523). -/
structure Port where
  rxCtr    : Nat
  expect   : Option Nat
  lost     : Bool
  txCtr    : Nat
  txFrames : Nat
  synced   : Nat
  retired  : Bool
  eph      : Option Nat
  txKey    : List Byte
  rxKey    : List Byte
  rxIdx    : Bool
  rxOther  : Option (List Byte)
  wrrAt    : Nat
  wrrLeft  : Nat
  deriving DecidableEq, Repr

/-- What a port puts on its link (R501, R503, R504): what it says in KEYING, a frame, or a sync word. -/
inductive WireItem where
  | hello (x : LinkHello)
  | frame (x : LinkFrame)
  | sync (ctr : Nat)
  deriving DecidableEq, Repr

/-- A frame at hand in a fabric die: when it arrived and over which port (36 = from this package). -/
structure InFrame where
  frame : JFrame
  at_   : Word
  port  : Nat
  deriving DecidableEq, Repr

/-- A frame that waits in a router for its output port (R506, R512). -/
structure BufFrame where
  frame : JFrame
  port  : Nat
  since : Word
  deriving DecidableEq, Repr

/-- An entry of a home agent's replay table (R541). -/
structure HaEntry where
  spkg : Nat
  seq  : Nat
  done : Bool
  resp : JFrame
  last : Word
  deriving DecidableEq, Repr

/-- One router with its home agent: route tables (R518; key bank × 16384 + package), delivered frames that wait for
their unit, frames that wait for a port, the home agent's queue and replay table (R541), and a pending retirement of
the old bank (R522). -/
structure Router where
  rt     : Tab Word
  inbox  : List InFrame
  buf    : List BufFrame
  haQ    : List InFrame
  haT    : List HaEntry
  retire : Bool
  deriving DecidableEq, Repr

/-- A request that this package has sent, or holds back, and not yet seen answered (R513 to R515, R543). -/
structure OutReq where
  seq     : Nat
  die     : Nat
  frame   : JFrame
  owner   : Owner
  sentAt  : Word
  firstAt : Word
  attempt : Nat
  busyAt  : Option Word
  held    : Bool
  deriving DecidableEq, Repr

/-- A tracked request that still counts against its destination (R543). -/
structure Tracked where
  dpkg    : Nat
  seq     : Nat
  release : Option Word
  deriving DecidableEq, Repr

/-- An entry of the outgoing key table (R532, R533). -/
structure OutKey where
  tenant : BitVec 12
  first  : Nat
  last   : Nat
  lo     : Word
  hi     : Word
  key    : BitVec 16
  deriving DecidableEq, Repr

/-- What the directory knows of the twin's copy of a line (R536). -/
inductive TwinHold where
  | none | shared | exclusive
  deriving DecidableEq, Repr

/-- A line of the twin's HBM that this package's solver caches hold (R536). -/
structure TwinLine where
  excl  : Bool
  dirty : Bool
  data  : List Byte
  deriving DecidableEq, Repr

/-! ## Collectives and time -/

/-- What a collective unit has still to do with memory: send segment i of its contribution to chunk c, gather segment i of its own
part, reduce segment i of its chunk, take ring segment i of part k, store segment i of its output. -/
inductive CuJob where
  | contrib (c i : Nat)
  | own (i : Nat)
  | reduce (i : Nat)
  | ring (k i : Nat)
  | store (i : Nat) (put : List (Word × List Byte))
  deriving DecidableEq, Repr

/-- The group that a collective unit holds (R572 to R591): its number in the unit, its descriptor and the entry that opened it; the
segments received, by opcode, owner and index (R581); the reduced segments of its own chunk; the segments of output written, by the
rank that owns them; the members whose `CDONE` has come and the arrivals of R589; the writes still held by a memory
controller; the times and code of its end; what it has to do, the pieces of memory it has read for that, and the pieces of its
record still to be written. -/
structure Group where
  id      : Nat
  cfg     : List Word
  entry   : Option Creator
  tenant  : BitVec 12
  members : List Nat
  rank    : Nat
  started : Bool
  openAt  : Word
  seen    : List (Nat × Nat × Nat)
  red     : Tab (List Byte)
  out     : List (Nat × Nat)
  cdone   : List Nat
  arrive  : Tab Word
  heldW   : Nat
  local_  : Option Word
  final   : Option Word
  code    : BitVec 16
  origin  : Nat
  todo    : List CuJob
  got     : List (Word × List Byte)
  recPut  : List (Word × List Byte)
  deriving DecidableEq, Repr

/-- One collective unit: the group it holds, the last four it closed (R584), and how many it has opened. -/
structure Cu where
  group  : Option Group
  closed : List Word
  opened : Nat
  deriving DecidableEq, Repr

/-- The package's time keeping (R557 to R565, R771): of each die the increment of its time base where it is not the
nominal one, the dies that are locked and held, and their counts of good comparisons; of FD0 the `SEQ` and send time of
the exchange under way and the time of the last completed one; the stamps of a PTP exchange; the last 1PPS edge; and of the
boundary clock's master the time of its last `Sync` and how many it has sent. -/
structure TimeUnit where
  rates   : Tab Nat
  locks   : List Nat
  holds   : List Nat
  good    : Tab Nat
  seq     : Nat
  t1      : Option Word
  lastX   : Word
  ptpT1   : Option Word
  ptpT2   : Option Word
  ptpT3   : Option Word
  ppsAt   : Option Word
  ptpAt   : Option Word
  ptpSent : Nat
  deriving DecidableEq, Repr

/-! ## Jobs and snapshots -/

/-- The snapshot engines' declaration (R629 to R631). -/
structure SnapDecl where
  stop    : Bool
  live    : Bool
  buddy   : Word
  len     : Word
  period  : Word
  key     : BitVec 16
  job     : BitVec 32
  warn    : Bool
  src     : BitVec 14
  regions : List (Word × Word)
  digest  : Word
  deriving DecidableEq, Repr

/-- How far a TAKE or RESTORE has come (R635, R643): reading the commit record of slot 0 or 1, waiting for the chosen
slot's `SEQ` to be cleared, copying, writing the commit record's body, and its `SEQ`. -/
inductive SnapPhase where
  | read0 | read1 | clear | copy | body | seq
  deriving DecidableEq, Repr

/-- A TAKE or RESTORE under way (R635, R643), with the first 64 B of both slots, the accelerator dies that have taken the cut, the
writes or pieces still outstanding,
and for a RESTORE the bytes of the regions already asked for. -/
structure SnapRun where
  take    : Bool
  entry   : Option Creator
  table   : SnapDecl
  cut     : Word
  step    : Word
  wanted  : Word
  phase   : SnapPhase
  rec0    : List Byte
  rec1    : List Byte
  slot    : Nat
  cuts    : List Nat
  left    : Nat
  at_     : Nat
  poison  : Nat
  tenant  : BitVec 12
  deriving DecidableEq, Repr

/-- The job agent's start under way (R611 to R624). -/
structure JobRun where
  job      : BitVec 32
  attempt  : Nat
  depth    : Nat
  fanout   : Nat
  n        : Nat
  tenant   : BitVec 12
  root     : BitVec 14
  tl       : Word
  ta       : Word
  list     : Word
  record   : Word
  mdigest  : List Byte
  manifest : List Nat
  maddr    : Word
  parent   : Option (BitVec 14)
  index    : Nat
  ownCode  : BitVec 16
  acks     : List (Nat × BitVec 16 × Nat × Nat)
  acked    : Bool
  gone     : List (Nat × BitVec 16)
  sentAt   : Word
  decided  : Bool
  host     : Option (Nat × Nat)
  deriving DecidableEq, Repr

/-- A start whose manifest is on its way to this package, or whose copy of it is being written (R614, R615, R622): its sender (none
at the root), its payload, where the copy stands, the session that asked for it, the `JMREAD` answers still out, the pieces come,
the manifest once it is whole, the pieces of the copy still to be written and those that memory holds. -/
structure JobFetch where
  sender : Option (BitVec 14)
  body   : List Byte
  maddr  : Word
  host   : Option (Nat × Nat)
  rem    : Nat
  got    : List (Word × List Byte)
  m      : Option (List Byte)
  put    : List (Word × List Byte)
  heldW  : Nat
  deriving DecidableEq, Repr

/-- The snapshot engines and the job agent; `rootGot` holds what has come of the manifest that a host's start names. -/
structure JobState where
  decl      : Option SnapDecl
  snap      : Option SnapRun
  lastCut   : Option Word
  start     : Option JobRun
  handled   : List (BitVec 32 × Nat)
  cancelled : List (BitVec 32 × Nat)
  tearStep  : Nat
  tearBy    : List (Nat × Nat)
  localTag  : BitVec 12
  fetch     : Option JobFetch
  rootGot   : List (Word × List Byte)
  deriving DecidableEq, Repr

/-! ## Security -/

/-- The SEC block (R650 to R672), beside its registers: MR0 to MR3, the alias key's presence stands in its register,
the KX keys held with the nonce of their report, the bindings of tags to identities (R662), the fabric keys (R547), and
the unlock nonce, the alias certificate, and the debug token whose unlock waits for retag scrubs (R670). Keys are named by the number
of the draw that made them. -/
structure Sec where
  mr       : List (List Byte)
  kx       : List (Nat × List Byte)
  bind     : List (BitVec 12 × List Byte)
  fabric   : List (BitVec 12 × List Byte)
  nonce    : List Byte
  alias_   : Option Nat
  svnRun   : Nat
  sealCtr  : Nat
  aliasCert : List Byte
  unlock   : Option (List Byte)
  deriving DecidableEq, Repr

/-! ## Host ports -/

/-- The body of a Buwen message (R692). -/
inductive BwMsg where
  | ack
  | report (nonce : List Byte)
  | keypkg (pkg : List Byte)
  | nonce
  | token (tok : List Byte)
  | list (pd : Nat) (list start record tag : Word)
  | jobStart (body : List Byte)
  | teardown (job : BitVec 32) (pkg : BitVec 14)
  | badPd (boot : Bool)
  | boot (len : Nat)
  | reset (pkg : BitVec 14)
  | snuff (pkg : BitVec 14)
  | write (addr : Word) (data : List Byte)
  | read (addr : Word) (len : Nat)
  | regWrite (addr val : Word)
  | regRead (addr : Word)
  deriving DecidableEq, Repr

/-- A message that the device sends (R692): a response, an event or a `HELLO`, and the control frames of R682. -/
inductive HostOut where
  | ack (sess n : Nat)
  | resp (sess req : Nat) (code : BitVec 16) (more : Bool) (data : List Byte)
  | event (sess kind lost : Nat) (payload : List Byte)
  | hello (sess role : Nat) (body : List Byte)
  | announce (v4 : Bool) (body : List Byte)
  | control (x : CtlFrame)
  | ptp (m : PtpMsg)
  | gram (sess seq ack nctr : Nat) (body : HostOut)
  deriving DecidableEq, Repr

/-- The role of a session (R696). -/
inductive Role where
  | none | operator | tenant (t : BitVec 12)
  deriving DecidableEq, Repr

/-- A `WRITE` of a session under way (R691): its number, the pieces still to be written, the count of those that memory holds, and
the code of one that was refused. -/
structure HostWrite where
  seq   : Nat
  put   : List (Word × List Byte)
  heldW : Nat
  code  : BitVec 16
  deriving DecidableEq, Repr

/-- One Buwen session (R687 to R698): the receive window of datagram counters, the sequence numbers of both
directions, messages received and not yet started (ahead of a gap, or waiting for an earlier one), messages sent and not
acknowledged with the time of their last send and the resends of the oldest, the events queued and lost, the requests relayed
and not answered, the writes under way, the pieces that a `READ` under way has brought, the two session keys (R697), responses that wait, the time
of the last valid datagram, and when an `ACK` is due. -/
structure Session where
  id     : Nat
  role   : Role
  seen   : List Nat
  rxSeq  : Nat
  held   : List (Nat × BwMsg)
  txSeq  : Nat
  unack  : List (Nat × Word × HostOut)
  resent : Nat
  txCtr  : Nat
  events : List HostOut
  lost   : Nat
  relays : Nat
  writes : List HostWrite
  got    : List (Word × List Byte)
  keys   : List Byte
  resps  : List HostOut
  heard  : Word
  ackDue : Option Word
  deriving DecidableEq, Repr

/-- One host port: its sessions, what it has sent, what a pause holds back (R684), the session numbers used, the priorities
paused by PFC, and the time of its last announcement. -/
structure HostPort where
  sessions : List Session
  out      : List HostOut
  stalled  : List HostOut
  nextSess : Nat
  paused   : List Nat
  lastAnn  : Option Word
  deriving DecidableEq, Repr

/-! ## Errors, tests, power, debug -/

/-- An error record (R717). -/
structure Rec where
  code   : BitVec 16
  kind   : Nat
  flags  : Nat
  die    : Nat
  unit   : Nat
  index  : Nat
  time   : Word
  addr   : Word
  array  : Nat
  test   : Nat
  detail : BitVec 16
  job    : BitVec 32
  tag    : BitVec 12
  count  : Nat
  map    : BitVec 1024
  info   : Word
  late   : Bool
  deriving DecidableEq, Repr

/-- A self-test that a corrected error or a trigger has asked for (R724): unit class, unit, array, position, die, and
whether it runs. -/
structure Test where
  unit    : Nat
  index   : Nat
  array   : Nat
  addr    : Word
  die     : Nat
  running : Bool
  deriving DecidableEq, Repr

/-- The writing of records to a ring (R720 to R722): the records on their way, the oldest first, the number of the one being
written, its pieces still to be written, the count of those that memory holds, and whether that record has failed. -/
structure Ring where
  queue : List Rec
  cur   : Option Nat
  put   : List (Word × List Byte)
  heldW : Nat
  bad   : Bool
  deriving DecidableEq, Repr

/-- Error reporting beside the DBG registers: the records that the current command has raised, in order (none between
commands), the records held on chip per die (R722), the writing of the rings, the number of records by code,
kind and unit (COUNT of R717), the warning counts (R730), tests asked for, corrected errors by position (R726), the units
retired and the rows of HBM to be repaired (R727), and the stack of each repair row used (R729). -/
structure Err where
  fresh   : List Rec
  held    : Tab (List Rec)
  rings   : Tab Ring
  counts  : List ((Nat × Nat × Nat × Nat) × Nat)
  warns   : List ((Nat × Nat) × Nat)
  tests   : List Test
  hits    : List ((Nat × Nat × Nat × Word) × Word)
  retired : BitVec 1024
  rows    : List (Nat × Nat)
  usedRows : List Nat
  deriving DecidableEq, Repr

/-- Power, clocks and start (R753 to R785), beside the PWR and CLK registers: power, pin reset, freeze (and whether the
package was debug-unlocked when it froze, R667) and protective shutdown; the start phase, the time by which phase 5 has to
begin (R777) and by which network boot has to give an image (R775); attempts, failures in a row, the back-off with its
start and end and the state code of the phase that failed (R778, R782); domains switched on and not yet in operation
(R760); per die the last junction reading and what holds it down (R763), the last `READ_PIN` sums, dies that stay at their
lowest level (R755) and dies above their floor (R764); `THERMTRIP_N`; the last `SYNC_IO` pulse; a firmware core stopped
after Ready (R781); and the response after which the package resets or, if marked, freezes (R710, R743). -/
structure Power where
  powered   : Bool
  pinReset  : Bool
  frozen    : Bool
  frozenDebug : Bool
  shutdown  : Bool
  phase     : Nat
  phase5By  : Option Word
  netBy     : Option Word
  fails     : Nat
  backoff   : Option (Word × Word)
  lastFail  : Nat
  turningOn : List (Nat × Word)
  tj        : Tab Nat
  hotTj     : List Nat
  overI     : List Nat
  overP     : Bool
  pins      : List Nat
  stuckLow  : List Nat
  excursion : List Nat
  thermtrip : Bool
  syncOut   : Nat
  fwStopped : Bool
  attempts  : Nat
  after     : Option (Bool × JFrame)
  deriving DecidableEq, Repr

/-- The JTAG port (R745, R746): the bridge address, the selected scan chain, what the last instruction has shifted out, the
bits preloaded into the boundary register and those that drive the pins, and the last refusal of the bridge. -/
structure Jtag where
  addr : Word
  sel  : Byte
  out  : List Bool
  pre  : List Bool
  pins : List Bool
  code : BitVec 16
  deriving DecidableEq, Repr

/-! ## The package -/

/-- The state of the package. `pending` is the queue of commands that wait, first in first out. `mem` holds every
byte of HBM (keyed by stack × 24 GiB + stack offset, deciphered), of fonts, instruction memories and wick memories and of the boot
buffer (keyed by local address). `cryptP` holds what the units of a 4 KiB page were last enciphered under (by key / 4,096), and
`cryptU` what a unit was where that differs (by unit number); none is plaintext. `recalls` and `done` hold what the current command has asked back from the twin and the
outcomes it has brought; both are empty between commands. `wire` is what the ports have sent. `valleyLost` stands from the loss of the
valley until both packages have been reset (R538), of which `valleyOwn` is this one's part. `free` counts the free values drawn (the model's own field, not the spec's). -/
structure State where
  pending  : List Instr
  part     : Part
  mem      : List Host.Cell
  regs     : Tab Word
  clusters : Tab Cluster
  cores    : Tab Core
  disps    : Tab Disp
  lamps    : Tab Lamp
  lses     : Tab Lse
  upds     : Tab Upd
  mcs      : Tab Mc
  tags     : Tab (BitVec 12)
  retags   : List Retag
  cryptP   : Tab (Option Crypt)
  cryptU   : Tab (Option Crypt)
  poison   : List Nat
  flips    : Tab Nat
  answer   : MemAnswer
  ports    : Tab Port
  routers  : Tab Router
  wire     : List (Nat × WireItem)
  seqCtr   : Nat
  reqs     : List OutReq
  tracked  : List Tracked
  homeKeys : Tab (BitVec 16)
  fontKeys : Tab (BitVec 16)
  outKeys  : Tab OutKey
  dir      : Tab TwinHold
  lines    : Tab TwinLine
  recalls  : List (Nat × Bool)
  done     : List Done
  valleyLost : Bool
  valleyOwn : Bool
  cus      : Tab Cu
  time     : Tab Nat
  tm       : TimeUnit
  job      : JobState
  sec      : Sec
  hosts    : Tab HostPort
  err      : Err
  power    : Power
  jtag     : Jtag
  free     : Nat
  deriving DecidableEq, Repr

/-! ## How a step can stop -/

/-- Why a step ends in a fault: the spec describes no way for the package to stop, so there is no such reason and no
meaning raises one. Safe: nothing is cut short. -/
inductive Fault where
  deriving DecidableEq, Repr

/-- Why a step is refused. -/
inductive Refusal where
  /-- No meaning yet for this row. Safe: nothing can be proved of what it does. -/
  | notModelled (mnemonic : String)
  deriving DecidableEq, Repr

/-! ## Reset

Where the spec gives a field no reset value, it is zero, empty or absent (DESIGN CHOICE, log 1). A table lists only
what differs from the reset value of its unit. -/

/-- An unbound queue. -/
def Queue.unbound : Queue := ⟨0, [], 0, [], 0⟩
/-- No counts. -/
def Counts.none : Counts := ⟨0, 0, 0, 0, 0⟩
/-- An empty statistic set (R194). -/
def StatSet.empty : StatSet := ⟨0, 0, 0, 0, 0x7F800000, 0xFF800000, 0, [], 0⟩

/-- A cluster after its reset: EMPTY (R210, R283). -/
def Cluster.reset : Cluster where
  st := .empty
  bound := false
  pendingLl := false
  codeWords := 0
  entry := 0
  rfmode := false
  pc := 0
  s := []
  u := []
  uValid := []
  lc := []
  loops := []
  tok := []
  latch := none
  fault := 0
  exit := 0
  cyc := 0
  wdog := 0
  seq := 0
  open_ := []
  wait := none
  meQ := []
  eeQ := []
  sruQ := []
  dmQ := []
  queues := []
  bank0 := none
  bank1 := none
  tb := []
  k := []
  eePend := []
  sets := []
  reads := []
  log := []
  dm := []
  dmNext := 0
  launchedBy := none
  heldBy := none
  loading := none
  loads := 0

/-- A solver core after reset: at firmware level with interrupts disabled, round to nearest even (R333, R775). -/
def Core.reset : Core where
  g := []
  v := []
  m := []
  vl := 0
  ew32 := false
  vstart := 0
  pc := 0
  level := 2
  fcsr := 0x100
  status := 0
  tvec := 0
  epc := 0
  cause := 0
  tval := 0
  scratch := 0
  ien := 0
  ipend := 0
  tcmp := 0
  prb := []
  prl := []
  vxcause := 0
  fwStatus := 0
  fwTvec := 0
  fwEpc := 0
  fwCause := 0
  fwTval := 0
  fwScratch := 0
  fwIen := 0
  fwIpend := 0
  sigFrom := 0
  postRec := 0
  storeBad := (0, 0)
  wfe := false
  wait := none
  posted := 0
  run := false
  stopped := false
  halted := false
  stepping := false
  retired := 0
  cyc := 0
  last := 0
  fetched := none

/-- An idle dispatcher. -/
def Disp.reset : Disp := ⟨[], 0⟩
/-- A lamplighter that holds nothing. -/
def Lamp.reset : Lamp := ⟨[]⟩

/-- A least-squares engine after reset: IDLE, nothing resident (R419). -/
def Lse.reset : Lse where
  phase := .idle
  desc := []
  entry := none
  tenant := 0
  soft := false
  deadline := 0
  stop := false
  warm := false
  notice := false
  cur := 0
  req := 0
  e := 0
  facts := 0
  accepted := 0
  prev := 0
  cost := 0
  known := false
  fresh := false
  img := []
  j := []
  r := []
  p := []
  g := []
  l := []
  dg := []
  x := []
  satAny := false
  satClass := 0
  satCount := 0
  resident := false
  hash := 0
  work := (0, 0)
  act := .rest
  got := []
  put := []
  heldW := 0

/-- An idle update unit (R449). -/
def Upd.reset : Upd := ⟨false, 0, 0, 0, 0, 0, none, 0, .rest, [], [], 0⟩
/-- A memory controller after reset: full priority bucket (R465), nothing held. -/
def Mc.reset : Mc := ⟨64, [], [], [], [], [], [], 0, 0, []⟩
/-- A link end after reset. -/
def Port.reset : Port := ⟨0, none, false, 0, 0, 0, false, none, [], [], false, none, 0, 0⟩
/-- A router after reset. -/
def Router.reset : Router := ⟨[], [], [], [], [], false⟩
/-- A collective unit after reset. -/
def Cu.reset : Cu := ⟨none, [], 0⟩
/-- The time unit after reset. -/
def TimeUnit.reset : TimeUnit := ⟨[], [], [], [], 0, none, 0, none, none, none, none, none, 0⟩
/-- The snapshot engines and the job agent after reset. -/
def JobState.reset : JobState := ⟨none, none, none, none, [], [], 0, [], 0, none, []⟩
/-- The SEC block after reset: MR0 to MR3 zero (R656). -/
def Sec.reset : Sec := ⟨List.replicate 4 (List.replicate 64 0), [], [], [], [], none, 0, 0, [], none⟩
/-- A host port after reset. -/
def HostPort.reset : HostPort := ⟨[], [], [], 1, [], none⟩
/-- A ring to which nothing is being written. -/
def Ring.reset : Ring := ⟨[], none, [], 0, false⟩
/-- Error reporting after reset. -/
def Err.reset : Err := ⟨[], [], [], [], [], [], [], 0, [], []⟩

/-- Power, clocks and start right after a power-on reset: powered, start phase 0 (R775). -/
def Power.reset : Power where
  powered := true
  pinReset := false
  frozen := false
  frozenDebug := false
  shutdown := false
  phase := 0
  phase5By := none
  netBy := none
  fails := 0
  backoff := none
  lastFail := 0
  turningOn := []
  tj := []
  hotTj := []
  overI := []
  overP := false
  pins := []
  stuckLow := []
  excursion := []
  thermtrip := false
  syncOut := 0
  fwStopped := false
  attempts := 0
  after := none

/-- The JTAG port after reset, BYPASS selected. -/
def Jtag.reset : Jtag := ⟨0, 0, [], [], [], 0⟩

/-- The disabled-unit map of the part that `State.reset` describes (DESIGN CHOICE, log 3): grade A with clusters 50 and
51 of every quadrant disabled (R39). -/
def Part.mapA : BitVec 1024 :=
  BitVec.ofNat 1024 ((List.range 16).foldl (fun a q => a + 3 * 2 ^ (q * 52 + 50)) 0)

/-- The part that `State.reset` describes (DESIGN CHOICE, log 3): grade A, stepping B1 (R33). -/
def Part.reset : Part where
  grade := 1
  dumap := Part.mapA
  spare := 0
  svn := 0
  mac0 := 0
  mac1 := 0
  devid := List.replicate 64 0
  stepDigit := 1
  strapOut := false
  opDigests := []

/-- The package right after a power-on reset. -/
def State.reset : State where
  pending := []
  part := Part.reset
  mem := []
  regs := []
  clusters := []
  cores := []
  disps := []
  lamps := []
  lses := []
  upds := []
  mcs := []
  tags := []
  retags := []
  cryptP := []
  cryptU := []
  poison := []
  flips := []
  answer := ⟨0, []⟩
  ports := []
  routers := []
  wire := []
  seqCtr := 0
  reqs := []
  tracked := []
  homeKeys := []
  fontKeys := []
  outKeys := []
  dir := []
  lines := []
  recalls := []
  done := []
  valleyLost := false
  valleyOwn := false
  cus := []
  time := []
  tm := TimeUnit.reset
  job := JobState.reset
  sec := Sec.reset
  hosts := []
  err := Err.reset
  power := Power.reset
  jtag := Jtag.reset
  free := 0

end Sys2Proof.Machine
end

