-- ==== Sys2Proof/Machine/Units.lean ====
section
/-! DEFINITION. The units of a part by grade (R3, R15, R29 to R31), reading and writing a unit's state, the raw
contents of registers, node time, and raising an error record (R717). -/

namespace Sys2Proof.Machine

/-! ## Counts by grade (R3) -/

/-- Enabled clusters per accelerator die (R3). -/
def Part.clPerAd (p : Part) : Nat := if p.grade = 1 then 200 else if p.grade = 2 then 180 else 160
/-- Enabled clusters (R3). -/
def Part.clusters (p : Part) : Nat := 4 * p.clPerAd
/-- Solver cores (R3). -/
def Part.sc (p : Part) : Nat := if p.grade = 3 then 80 else 96
/-- Least-squares engines (R3). -/
def Part.lse (p : Part) : Nat := if p.grade = 3 then 4 else 8
/-- Populated stacks (R3), which is also the count of update units. -/
def Part.stacks (p : Part) : Nat := if p.grade = 3 then 12 else 16
/-- Stacks per accelerator die (R16, R17). -/
def Part.stPerAd (p : Part) : Nat := if p.grade = 3 then 3 else 4
/-- Power envelope in W (R3). -/
def Part.envelope (p : Part) : Nat := if p.grade = 1 then 2200 else if p.grade = 2 then 2050 else 1850
/-- The size of a stack: 24 GiB (R15). -/
def stackSize : Nat := 24 * 2 ^ 30
/-- Bytes of HBM (R3). -/
def Part.hbm (p : Part) : Nat := p.stacks * stackSize

/-- The accelerator die of logical cluster n (R29). -/
def Part.dieOfCl (p : Part) (n : Nat) : Nat := n / p.clPerAd
/-- The processor die of logical solver core c (R30), as a die number. -/
def Part.dieOfSc (p : Part) (c : Nat) : Nat := 4 + c / (p.sc / 2)
/-- The processor die of logical least-squares engine n (R30). -/
def Part.dieOfLse (p : Part) (n : Nat) : Nat := 4 + n / (p.lse / 2)
/-- The accelerator die of logical stack k (R16, R31). -/
def Part.dieOfStack (p : Part) (k : Nat) : Nat := k / p.stPerAd

/-! ## Units -/

/-- Cluster n. -/
def State.cl (s : State) (n : Nat) : Cluster := s.clusters.get Cluster.reset n
/-- The state with cluster n replaced. -/
def State.setCl (s : State) (n : Nat) (c : Cluster) : State := { s with clusters := s.clusters.set n c }
/-- The state with cluster n changed by f. -/
def State.modCl (s : State) (n : Nat) (f : Cluster → Cluster) : State := s.setCl n (f (s.cl n))
/-- Solver core c. -/
def State.sc (s : State) (c : Nat) : Core := s.cores.get Core.reset c
/-- The state with solver core c replaced. -/
def State.setSc (s : State) (c : Nat) (x : Core) : State := { s with cores := s.cores.set c x }
/-- The state with solver core c changed by f. -/
def State.modSc (s : State) (c : Nat) (f : Core → Core) : State := s.setSc c (f (s.sc c))
/-- Dispatcher pd. -/
def State.dsp (s : State) (pd : Nat) : Disp := s.disps.get Disp.reset pd
/-- The state with dispatcher pd replaced. -/
def State.setDsp (s : State) (pd : Nat) (d : Disp) : State := { s with disps := s.disps.set pd d }
/-- The lamplighter of die d. -/
def State.lamp (s : State) (d : Nat) : Lamp := s.lamps.get Lamp.reset d
/-- The state with the lamplighter of die d replaced. -/
def State.setLamp (s : State) (d : Nat) (l : Lamp) : State := { s with lamps := s.lamps.set d l }
/-- Least-squares engine n. -/
def State.lse (s : State) (n : Nat) : Lse := s.lses.get Lse.reset n
/-- The state with least-squares engine n replaced. -/
def State.setLse (s : State) (n : Nat) (l : Lse) : State := { s with lses := s.lses.set n l }
/-- Update unit k. -/
def State.uu (s : State) (k : Nat) : Upd := s.upds.get Upd.reset k
/-- The state with update unit k replaced. -/
def State.setUu (s : State) (k : Nat) (u : Upd) : State := { s with upds := s.upds.set k u }
/-- The memory controller of logical stack k. -/
def State.mc (s : State) (k : Nat) : Mc := s.mcs.get Mc.reset k
/-- The state with the memory controller of stack k replaced. -/
def State.setMc (s : State) (k : Nat) (m : Mc) : State := { s with mcs := s.mcs.set k m }
/-- Fabric port p. -/
def State.port (s : State) (p : Nat) : Port := s.ports.get Port.reset p
/-- The state with port p replaced. -/
def State.setPort (s : State) (p : Nat) (x : Port) : State := { s with ports := s.ports.set p x }
/-- The router of fabric die f. -/
def State.fr (s : State) (f : Nat) : Router := s.routers.get Router.reset f
/-- The state with the router of fabric die f replaced. -/
def State.setFr (s : State) (f : Nat) (r : Router) : State := { s with routers := s.routers.set f r }
/-- The collective unit of fabric die f. -/
def State.cu (s : State) (f : Nat) : Cu := s.cus.get Cu.reset f
/-- The state with the collective unit of fabric die f replaced. -/
def State.setCu (s : State) (f : Nat) (c : Cu) : State := { s with cus := s.cus.set f c }
/-- Host port f. -/
def State.he (s : State) (f : Nat) : HostPort := s.hosts.get HostPort.reset f
/-- The state with host port f replaced. -/
def State.setHe (s : State) (f : Nat) (h : HostPort) : State := { s with hosts := s.hosts.set f h }

/-! ## Raw register contents -/

/-- The stored contents of the register at an offset of the register region. -/
def State.reg (s : State) (o : Nat) : Word := s.regs.get (regReset o) o
/-- The state with the stored contents of a register replaced. -/
def State.setReg (s : State) (o : Nat) (w : Word) : State := { s with regs := s.regs.set o w }
/-- A field of a stored register: n bits from bit lo. -/
def State.rfld (s : State) (o lo n : Nat) : Nat := fld (s.reg o) lo n
/-- The state with a field of a stored register replaced. -/
def State.setRfld (s : State) (o lo n v : Nat) : State := s.setReg o (setFld (s.reg o) lo n v)
/-- The state with k added to a counting field, modulo its width. -/
def State.bump (s : State) (o lo n k : Nat) : State := s.setRfld o lo n (s.rfld o lo n + k)
/-- The state with k added to a counting field that stops at its largest value. -/
def State.bumpSat (s : State) (o lo n k : Nat) : State :=
  s.setRfld o lo n (min (s.rfld o lo n + k) (2 ^ n - 1))
/-- The offset of a register of cluster n. -/
abbrev clReg (n o : Nat) : Nat := regAt .cl n o

/-- A word that the spec leaves open (log 33), and the state that has drawn it. -/
def State.openWord (s : State) : Word × State := (Config.openWord s.free, { s with free := s.free + 1 })

/-! ## Keys of the SEC block -/

/-- The number of the device key (R650); drawn keys take numbers from 1. -/
def deviceKey : Nat := 0

/-- A fresh key of the SEC block: its number (R656, R658). -/
def State.drawKey (s : State) : Nat × State := (s.free + 1, { s with free := s.free + 1 })

/-- `n` fresh random bytes (R669, R695). -/
def State.drawBytes (s : State) (n : Nat) : List Byte × State :=
  (padTo n (Config.entropy s.free), { s with free := s.free + 1 })

/-! ## Node time and identity -/

/-- The time base of die d in units of 2^-32 ticks (R557). -/
def State.base (s : State) (d : Nat) : Nat := s.time.get 0 d
/-- Node time by the time base of die d, in ticks. -/
def State.now (s : State) (d : Nat) : Word := wd (s.base d / 2 ^ 32)
/-- The package number, `SYS_NODE.PKG` (R37). -/
def State.pkg (s : State) : Nat := s.rfld 0x30 0 14
/-- The twin's package number, `SYS_NODE.TWIN` (R37). -/
def State.twin (s : State) : Nat := s.rfld 0x30 16 14
/-- `JOB_STATUS.STATE` (R648): 0 IDLE, 1 ARMED, 2 RUNNING, 3 ENDING. -/
def State.jobState (s : State) : Nat := s.rfld (regAt .se 0 0x1000) 0 3
/-- `JOB_STATUS.ID` (R648). -/
def State.jobId (s : State) : BitVec 32 := BitVec.ofNat 32 (s.rfld (regAt .se 0 0x1000) 32 32)
/-- The code of the job agent: `JOB_STATUS.LAST_CODE` (R648). -/
def State.jobCode (s : State) (c : BitVec 16) : State := s.setRfld (regAt .se 0 0x1000) 8 16 c.toNat
/-- A job is launched on the package (R10). -/
def State.launched (s : State) : Bool := s.jobState != 0

/-- The tenant tag that the work of this package carries: the job's, or 0 without a job (R663). -/
def State.workTag (s : State) : BitVec 12 := if s.launched then s.job.localTag else 0

/-! ## Error records (R717) -/

/-- The unit classes of R717. -/
abbrev uCluster : Nat := 0
abbrev uCore : Nat := 1
abbrev uLse : Nat := 2
abbrev uUu : Nat := 3
abbrev uMc : Nat := 4
abbrev uSe : Nat := 5
abbrev uDsp : Nat := 6
abbrev uLl : Nat := 7
abbrev uPort : Nat := 8
abbrev uRouter : Nat := 9
abbrev uCu : Nat := 10
abbrev uTm : Nat := 11
abbrev uHost : Nat := 12
abbrev uSec : Nat := 13
abbrev uPower : Nat := 14
abbrev uPass : Nat := 15
abbrev uPackage : Nat := 16

/-- How often a table of counts has counted key k. -/
def countOf {α : Type} [DecidableEq α] (l : List (α × Nat)) (k : α) : Nat :=
  match l with
  | [] => 0
  | (j, n) :: r => if j = k then n else countOf r k

/-- A table of counts with n more at key k. -/
def countUp {α : Type} [DecidableEq α] (l : List (α × Nat)) (k : α) (n : Nat) : List (α × Nat) :=
  match l with
  | [] => [(k, n)]
  | (j, m) :: r => if j = k then (j, m + n) :: r else (j, m) :: countUp r k n

/-- The record that a unit raises now: die, class, logical number, code and kind; the rest empty (R717). -/
def State.rec0 (s : State) (die unit index : Nat) (code : BitVec 16) (kind : Nat) : Rec where
  code := code
  kind := kind
  flags := 0
  die := die
  unit := unit
  index := index
  time := s.now die
  addr := 0
  array := 0
  test := 0
  detail := 0
  job := s.jobId
  tag := s.job.localTag
  count := min (countOf s.err.counts (code.toNat, kind, unit, index) + 1) (2 ^ 32 - 1)
  map := s.part.dumap
  info := 0
  late := false

/-- Raise an error record (R717): it is written to its die's ring when the current command ends (R719 to R722). -/
def State.raise (s : State) (r : Rec) : State :=
  { s with err := { s.err with
      fresh := s.err.fresh ++ [r]
      counts := countUp s.err.counts (r.code.toNat, r.kind, r.unit, r.index) 1 } }

/-- Raise a record of a code and kind with nothing further to say. -/
def State.raise0 (s : State) (die unit index : Nat) (code : BitVec 16) (kind : Nat) : State :=
  s.raise (s.rec0 die unit index code kind)

/-! ## Memory keys -/

/-- The key of byte `o` of the font of cluster n (R21). -/
def fontKey (n o : Nat) : Nat := 0x0001000000000000 + n * 0x100000 + o
/-- The key of byte `o` of the instruction memory of cluster n (R21). -/
def imemKey (n o : Nat) : Nat := 0x0001100000000000 + n * 0x10000 + o
/-- The key of byte `o` of the wick memory of cluster n: its place in the register region (R203). -/
def wickKey (n o : Nat) : Nat := 0x0002000010000000 + n * 0x10000 + 0x4000 + o
/-- The key of byte `o` of the boot buffer (R25). -/
def bootKey (o : Nat) : Nat := 0x000200000E000000 + o
/-- The key of byte `o` of logical stack k. -/
def hbmKey (k o : Nat) : Nat := k * stackSize + o

/-- Bytes of a font. -/
def State.font (s : State) (n o len : Nat) : List Byte := memRdN s.mem (fontKey n o) len
/-- The state with bytes written to a font. -/
def State.setFont (s : State) (n o : Nat) (l : List Byte) : State := { s with mem := memWrL s.mem (fontKey n o) l }
/-- Instruction word j of cluster n (R209). -/
def State.imem (s : State) (n j : Nat) : Word := word64 (memRdN s.mem (imemKey n (8 * j)) 8) 0

end Sys2Proof.Machine
end

