-- ==== Sys2Proof/Machine/ClusterOps.lean ====
section
/-! DEFINITION. What the engines of a cluster share: tile descriptors (R234), queues (R235 to R245), counts (R133,
R192), engine refusals (R228) and the stop of a program (R231). -/

namespace Sys2Proof.Machine

/-! ## Tile descriptors (R234) -/

abbrev dAddr (d : Word) : Nat := fld d 0 20
abbrev dCols (d : Word) : Nat := fld d 20 8 + 1
abbrev dRows (d : Word) : Nat := fld d 28 8 + 1
abbrev dFmt (d : Word) : Nat := fld d 36 4
abbrev dRelit (d : Word) : Bool := bit d 40
abbrev dNan (d : Word) : Bool := bit d 41
abbrev dClip (d : Word) : Bool := bit d 42
abbrev dSat (d : Word) : Bool := bit d 43

/-- Bytes of the tile of a descriptor (R234, R50). -/
def dBytes (d : Word) : Nat := tileBytes (dFmt d) (dRows d) (dCols d)

/-- A descriptor (R234). -/
def mkDesc (fmt rows cols addr : Nat) (sat clip nan relit : Bool) : Word :=
  wd (addr + (cols - 1) * 2 ^ 20 + (rows - 1) * 2 ^ 28 + fmt * 2 ^ 36 + b2n relit * 2 ^ 40 + b2n nan * 2 ^ 41
    + b2n clip * 2 ^ 42 + b2n sat * 2 ^ 43)

/-- The codes of a tile in the font of cluster n. -/
def State.tile (s : State) (n : Nat) (d : Word) : List (List Nat) :=
  unpackTile (dFmt d) (dRows d) (dCols d) (s.font n (dAddr d) (dBytes d))

/-! ## Binding words and queues (R235 to R239) -/

abbrev Queue.valid (q : Queue) : Bool := bit q.bind 60
abbrev Queue.prod (q : Queue) : Nat := fld q.bind 57 3
abbrev Queue.cons (q : Queue) : Nat := fld q.bind 54 3
abbrev Queue.depth (q : Queue) : Nat := fld q.bind 48 6
abbrev Queue.slot (q : Queue) : Nat := fld q.bind 38 10 * 128
abbrev Queue.base (q : Queue) : Nat := fld q.bind 0 20

/-- Queue i of a cluster. -/
def Cluster.q (c : Cluster) (i : Nat) : Queue := c.queues.get Queue.unbound i
/-- The cluster with queue i replaced. -/
def Cluster.setQ (c : Cluster) (i : Nat) (q : Queue) : Cluster := { c with queues := c.queues.set i q }

/-- Occupied entries (R239): pushed, reserved and retained. -/
def Queue.occ (q : Queue) : Nat := q.entries.length + q.reserved + q.retained.length
/-- Whether k more entries fit: the next k slots are free (R238, R239), none of them retained (R148). -/
def Queue.room (q : Queue) (k : Nat) : Bool :=
  decide (q.entries.length + q.reserved + k ≤ q.depth)
    && (q.retained.isEmpty
      || (List.range k).all (fun j => q.retained.all (fun x => x.2 != (q.next + q.reserved + j) % q.depth)))
/-- The font offset of the next slot to fill (R238). -/
def Queue.nextAddr (q : Queue) : Nat := q.base + q.next * q.slot
/-- The queue with a descriptor pushed (R238). -/
def Queue.push (q : Queue) (d : Word) : Queue :=
  { q with entries := q.entries ++ [d], next := (q.next + 1) % q.depth }
/-- The queue with its first entry popped and released. -/
def Queue.pop (q : Queue) : Queue := { q with entries := q.entries.drop 1 }
/-- The queue with its first entry popped and its slot retained for the chain of bank b (R148). -/
def Queue.popKeep (q : Queue) (b : Nat) : Queue :=
  { q with entries := q.entries.drop 1, retained := q.retained ++ [(b, (q.next + q.depth - q.entries.length) % q.depth)] }
/-- The first entry, or 0. -/
def Queue.head (q : Queue) : Word := nth q.entries 0 0

/-- Tile bytes written to the next slot of queue i of cluster n, and the descriptor pushed (R238, R240). -/
def State.pushTile (s : State) (n i : Nat) (bytes : List Byte) (desc : Nat → Word) : State :=
  let q := (s.cl n).q i
  (s.setFont n q.nextAddr bytes).modCl n (fun c => c.setQ i (q.push (desc q.nextAddr)))

/-- Whether queue i names an end that the engine owns in the role: producer or consumer (R237). -/
def Cluster.owns (c : Cluster) (eng : Nat) (producer : Bool) (i : Nat) : Bool :=
  let q := c.q i
  q.valid && (if producer then q.prod else q.cons) == eng

/-! ## Counts (R133, R192) -/

/-- The sum of two counts. -/
def Counts.add (a b : Counts) : Counts :=
  ⟨a.clips + b.clips, a.nans + b.nans, a.bad + b.bad, a.trigs + b.trigs, a.relit + b.relit⟩

/-- Add the counts that the instruction issued as number `seq` commits to the counts of cluster n, and keep them for
`SREAD` (R133, R192, R200, R206). -/
def State.addCounts (s : State) (n seq : Nat) (k : Counts) : State :=
  ((((((s.bump (clReg n 0x5008) 0 48 k.clips).bump (clReg n 0x5010) 0 48 k.nans).bump (clReg n 0x5018) 0 48 k.bad).bump
    (clReg n 0x2018) 32 32 k.trigs).bump (clReg n 0x2018) 0 32 k.relit)).modCl n
      (fun c => { c with log := c.log ++ [(seq, k)] })

/-! ## Issue and completion (R224 to R227) -/

/-- The issue queue of an engine (R224). -/
def Cluster.queueOf (c : Cluster) (eng : Nat) : List Issued :=
  match eng with
  | 1 => c.meQ
  | 2 => c.eeQ
  | 3 => c.sruQ
  | _ => c.dmQ

/-- The cluster with the issue queue of an engine replaced. -/
def Cluster.setQueueOf (c : Cluster) (eng : Nat) (l : List Issued) : Cluster :=
  match eng with
  | 1 => { c with meQ := l }
  | 2 => { c with eeQ := l }
  | 3 => { c with sruQ := l }
  | _ => { c with dmQ := l }

/-- A bank whose chain has popped its `LAST` instruction and not committed (R125). -/
def bankBusy (b : Option Chain) : Bool :=
  match b with
  | none => false
  | some ch => ch.state != .open

/-- Whether an engine has started instructions that have not completed (R226, R227). -/
def Cluster.engBusy (c : Cluster) (eng : Nat) : Bool :=
  match eng with
  | 1 => bankBusy c.bank0 || bankBusy c.bank1
  | 2 => !c.eePend.isEmpty
  | 3 => !c.reads.isEmpty
  | _ => !c.dm.isEmpty

/-- Every issued instruction has completed (R229, R232). -/
def Cluster.drained (c : Cluster) : Bool :=
  c.meQ.isEmpty && c.eeQ.isEmpty && c.sruQ.isEmpty && c.dmQ.isEmpty
    && !c.engBusy 1 && !c.engBusy 2 && !c.engBusy 3 && !c.engBusy 4

/-- The cluster with the instruction at the head of an engine's issue queue removed. -/
def Cluster.dequeue (c : Cluster) (eng : Nat) : Cluster := c.setQueueOf eng ((c.queueOf eng).drop 1)

/-! ## The end of a launch (R276) -/

/-- The run of an entry with a target ended with a status. -/
def EntryRun.done (r : EntryRun) (target : Nat) (status : BitVec 16) : EntryRun :=
  if r.left.contains target then
    { r with left := r.left.filter (· != target), status := r.status ++ [(target, status)] }
  else r

/-- The status of an entry: the first non-zero one in ascending order of its targets (R276). -/
def EntryRun.code (r : EntryRun) : BitVec 16 :=
  (r.status.foldl (fun (acc : Option (Nat × BitVec 16)) x =>
    if x.2 = 0 then acc
    else match acc with
      | some y => if x.1 < y.1 then some x else acc
      | none => some x) none).elim 0 (·.2)

/-- Every target of an entry has ended. -/
def EntryRun.ended (r : EntryRun) : Bool := r.left.isEmpty

/-- A list ends at an entry with a code (R272), at a time (R279). -/
def CmdList.stop (l : CmdList) (code : BitVec 16) (idx : Nat) (now : Word) : CmdList := { l with state := .ended code idx, endAt := now }

/-- A list with a target's status entered into one of its runs; a `SYNC` entry that has so failed stops it (R272). -/
def CmdList.targetDone (l : CmdList) (idx target : Nat) (status : BitVec 16) (now : Word) : CmdList :=
  let l : CmdList := { l with runs := l.runs.map (fun (r : EntryRun) => if r.idx = idx then r.done target status else r) }
  match l.runs.find? (fun (r : EntryRun) => r.idx == idx && r.sync && r.ended && r.code != 0) with
  | some r => if l.state = .running then l.stop r.code r.idx now else l
  | none => l

/-- `DSP_LAST` of a dispatcher: the last failed entry (R285). -/
def State.dspLast (s : State) (pd idx : Nat) (code : BitVec 16) : State :=
  s.setReg (regAt .dsp pd 8) (wd (idx % 2 ^ 32 * 2 ^ 16 + code.toNat))

/-- Report to the creator of an entry that a target has ended with a status (R231, R232, R276). -/
def State.targetDone (s : State) (cr : Creator) (target : Nat) (status : BitVec 16) : State :=
  let d := s.dsp cr.unit
  let lists := d.lists.map (fun l => if l.id = cr.list then l.targetDone cr.entry target status (s.now (4 + cr.unit)) else l)
  let s := s.setDsp cr.unit { d with lists := lists }
  match lists.findSome? (fun l => if l.id = cr.list then l.runs.find? (fun r => r.idx == cr.entry) else none) with
  | some r => if r.ended && r.code != 0 then s.dspLast cr.unit cr.entry r.code else s
  | none => s

/-- Report the end of the program of cluster n to the dispatcher that launched it. -/
def State.reportEnd (s : State) (n : Nat) (status : BitVec 16) : State :=
  match (s.cl n).launchedBy with
  | none => s
  | some cr => (s.targetDone cr n status).modCl n (fun c => { c with launchedBy := none })

/-! ## Stops and refusals (R228, R231, R282) -/

/-- The word of `CC_FAULT` (R282). -/
def faultWord (code : BitVec 16) (eng pc : Nat) (detail : BitVec 16) : Word :=
  wd (eng % 8 + pc % 4096 * 2 ^ 16 + code.toNat * 2 ^ 32 + detail.toNat * 2 ^ 48)

/-- A cluster whose program has stopped (R231). -/
def Cluster.stopped (c : Cluster) (f : Word) (code : BitVec 16) : Cluster :=
  { c with st := .faulted, fault := f, exit := code, wait := none, meQ := [], eeQ := [], sruQ := [], dmQ := []
           bank0 := none, bank1 := none, eePend := [], reads := [], dm := [], loops := [], wdog := 0 }

/-- The program of cluster n stops (R231): `CC_FAULT`, FAULTED, an error record, and the code to the dispatcher. -/
def State.stopProgram (s : State) (n : Nat) (code : BitVec 16) (eng pc : Nat) (detail : BitVec 16) : State :=
  let f := faultWord code eng pc detail
  let s := s.modCl n (fun c => c.stopped f code)
  let r := s.rec0 (s.part.dieOfCl n) uCluster n code 0
  (s.raise { r with detail := detail, info := f }).reportEnd n code

/-- The offset of an engine's `LAST_CODE` register (R228). -/
def lastCodeReg (eng : Nat) : Nat :=
  match eng with
  | 1 => 0x2008
  | 2 => 0x3000
  | 3 => 0x5000
  | _ => 0x6000

/-- Engine `eng` of cluster n refuses an instruction (R228): its `LAST_CODE`, the refusal latch if it is clear, and
under `RFMODE` = 0 the stop of the program. -/
def State.refuse (s : State) (n eng pc : Nat) (code : BitVec 16) : State :=
  let s := s.setRfld (clReg n (lastCodeReg eng)) 16 16 code.toNat
  let s := s.modCl n (fun c =>
    { c with latch := (match c.latch with | none => some (code, eng, pc) | some x => some x), wdog := 0 })
  if (s.cl n).rfmode then s else s.stopProgram n Code.CL_REFUSED eng pc code

/-- Engine `eng` refuses the instruction at the head of its issue queue, which leaves the queue (R226 to R228). -/
def State.refuseHead (s : State) (n eng : Nat) (i : Issued) (code : BitVec 16) : State :=
  (s.modCl n (fun c => c.dequeue eng)).refuse n eng i.pc code

/-- The program of cluster n is running. -/
def State.running (s : State) (n : Nat) : Bool := (s.cl n).st == .running

end Sys2Proof.Machine
end

