-- ==== Sys2Proof/Machine/MatrixOps.lean ====
section
/-! DEFINITION. The matrix engine's arithmetic and checks: compute classes (R100), exact group sums (R112 to R115),
the accumulator addition (R116 to R120), summation order (R121, R122), entry narrowing (R102, R103), and the order of the
checks of an ME instruction (R813). -/

namespace Sys2Proof.Machine

/-- The first code that a list of checks gives (R813, R814, R815). -/
def firstCode : List (Bool × BitVec 16) → Option (BitVec 16)
  | [] => none
  | (bad, c) :: r => if bad then some c else firstCode r

/-! ## Fields of `MMA` (R105) -/

abbrev opOf (w : Word) : Nat := fld w 56 8
abbrev mQA (w : Word) : Nat := fld w 51 5
abbrev mQB (w : Word) : Nat := fld w 46 5
abbrev mQP (w : Word) : Nat := fld w 41 5
abbrev mQO (w : Word) : Nat := fld w 36 5
abbrev mFA (w : Word) : Nat := fld w 32 4
abbrev mFB (w : Word) : Nat := fld w 28 4
abbrev mFO (w : Word) : Nat := fld w 24 4
abbrev mShape (w : Word) : Nat := fld w 22 2
abbrev mAcc (w : Word) : Nat := fld w 20 2
abbrev mLast (w : Word) : Bool := bit w 19
abbrev mBank (w : Word) : Nat := fld w 18 1
abbrev mPasses (w : Word) : Nat := fld w 16 2
abbrev mIeee (w : Word) : Bool := bit w 15
abbrev mPolicy (w : Word) : Nat := fld w 13 2
abbrev mThresh (w : Word) : Nat := fld w 0 13

/-- M of a shape (R110). -/
def shapeM (s : Nat) : Nat := if s = 0 then 32 else if s = 1 then 16 else 64
/-- N of a shape (R110). -/
def shapeN (s : Nat) : Nat := if s = 0 then 32 else if s = 1 then 64 else 16

/-- A compute class (R100): dot depth, whether it accumulates in ACCI, and its row of the relight table (0 FP4, 1 FP8,
2 every other). -/
structure MClass where
  d     : Nat
  isInt : Bool
  kind  : Nat
  deriving DecidableEq, Repr

/-- The compute class of a pair of compute formats (R100), none for any other pair (R101). -/
def mClass (fa fb : Nat) : Option MClass :=
  if fa = 6 && fb = 6 then some ⟨8, false, 0⟩
  else if fa = 8 && fb = 8 then some ⟨8, true, 2⟩
  else if (fa = 4 || fa = 5) && (fb = 4 || fb = 5) then some ⟨4, false, 1⟩
  else if fa = 7 && fb = 7 then some ⟨4, true, 2⟩
  else if (fa = 2 || fa = 3) && (fb = 2 || fb = 3) then some ⟨2, false, 2⟩
  else if fa = 1 && fb = 1 then some ⟨2, false, 2⟩
  else if (fa = 9 || fa = 10) && (fb = 9 || fb = 10) then some ⟨16, true, 2⟩
  else if fa = 11 && fb = 11 then some ⟨32, true, 2⟩
  else none

/-- The class of an instruction; the 16-bit float class stands in where none is supported. -/
def mClassOf (w : Word) : MClass := (mClass (mFA w) (mFB w)).getD ⟨2, false, 2⟩

/-- The effective policy of a chain (R144): 0 OFF, 1 FLAG, 2 RELIGHT_FP8, 3 RELIGHT_BF16. -/
def effPolicy (policy kind : Nat) (relightOff : Bool) : Nat :=
  if policy ≤ 1 then policy
  else if relightOff || kind = 2 then 1
  else if kind = 1 && policy = 2 then 1
  else policy

/-! ## Exact products and sums (R112 to R115) -/

/-- The products of one element pair: one, or the part products that `PASSES` selects (R96). An F32X element is its
three parts; any other element is one value. -/
def pairProducts (passes : Nat) (a b : List Val) : List Val :=
  match a, b with
  | [ah, am, al], [bh, bm, bl] =>
    match passes with
    | 1 => [ah.mul bh]
    | 2 => [ah.mul bh, ah.mul bm, am.mul bh]
    | _ => [ah.mul bh, ah.mul bm, am.mul bh, am.mul bm, ah.mul bl, al.mul bh]
  | x :: _, y :: _ => [x.mul y]
  | _, _ => []

/-- The exact sum of a list of products (R112, R114, R115). -/
def sumVals : List Val → Val
  | [] => Val.zero false
  | [p] => p
  | p :: q :: r => p.add (sumVals (q :: r))

/-- The exact group sum of the element pairs of one group (R113). -/
def groupSum (passes : Nat) (a b : List (List Val)) : Val :=
  sumVals ((a.zip b).flatMap (fun p => pairProducts passes p.1 p.2))

/-! ## The accumulator addition (R116 to R120) -/

/-- What an accumulator addition gives: the accumulator as a word of R68, whether it overflowed from finite values, and
whether it saturated. -/
structure AccRes where
  acc : Word
  ovf : Bool
  sat : Bool
  deriving DecidableEq, Repr

/-- A signed magnitude truncated toward zero to units of 2^q. -/
def truncUnits (s : Bool) (m : Nat) (e q : Int) : Int :=
  let u := if q ≤ e then scaleTo m e q else m / 2 ^ (q - e).toNat
  if s then - (u : Int) else (u : Int)

/-- The accumulator addition in ACCF (R116 to R119). -/
def accfAdd (ieee : Bool) (a : Word) (s : Val) : AccRes :=
  match accf.decode (a.toNat % 2 ^ 40), s with
  | .fin sa m e, .fin ss n f =>
    if m = 0 && n = 0 then ⟨wd (accf.withSign (sa && ss) 0), false, false⟩
    else
      let big := if m = 0 then expo n f else if n = 0 then expo m e else max (expo m e) (expo n f)
      let q := big - 33
      let t := truncUnits sa m e q + truncUnits ss n f q
      if t = 0 then ⟨0, false, false⟩
      else
        let neg := decide (t < 0)
        let qq := accf.quantum t.natAbs q
        let u := (roundTo .nearestEven neg t.natAbs q qq false).1
        if accf.exceeds u qq then
          if ieee then ⟨wd (accf.infC neg), true, false⟩ else ⟨wd (accf.withSign neg accf.maxC), true, true⟩
        else ⟨wd (accf.withSign neg (accf.encodeMag u qq)), false, false⟩
  | x, y => ⟨wd (accf.round .nearestEven (x.add y)).1, false, false⟩

/-- The accumulator addition in ACCI (R67, R120). -/
def acciAdd (a : Word) (s : Val) : AccRes :=
  let i := match s with
    | .fin sg m e => unitsAt sg m e 0
    | _ => 0
  let (v, c) := clamp (intMin 48) (intMax 48) (sext a.toNat 48 + i)
  ⟨wdInt v, c, c⟩

/-- The accumulator addition of a chain. -/
def accAdd (isInt ieee : Bool) (a : Word) (s : Val) : AccRes := if isInt then acciAdd a s else accfAdd ieee a s

/-- The accumulator word of an exact value that the format holds (R128, R136). -/
def accOf (isInt : Bool) (v : Val) : Word :=
  if isInt then wdInt (match v with | .fin s m e => unitsAt s m e 0 | _ => 0) else wd (narrowFloat accf v).code

/-- The value of an accumulator word. -/
def accVal (isInt : Bool) (a : Word) : Val :=
  if isInt then Val.ofInt (sext a.toNat 48) else accf.decode (a.toNat % 2 ^ 40)

/-! ## Accumulating one `MMA` (R121, R122) -/

/-- The two partials of one output, and what its additions met. -/
structure Partial where
  ev  : Word
  od  : Word
  ovf : Bool
  sat : Bool
  deriving DecidableEq, Repr

/-- Add the group sums of one output in ascending g; in 64 × 16 the parity decides the partial (R121, R122). -/
def addSums (isInt ieee fold : Bool) : Bool → Partial → List Val → Partial
  | _, p, [] => p
  | odd, p, s :: r =>
    if fold && odd then
      let x := accAdd isInt ieee p.od s
      addSums isInt ieee fold (!odd) ⟨p.ev, x.acc, p.ovf || x.ovf, p.sat || x.sat⟩ r
    else
      let x := accAdd isInt ieee p.ev s
      addSums isInt ieee fold (!odd) ⟨x.acc, p.od, p.ovf || x.ovf, p.sat || x.sat⟩ r

/-- The group sums of output (i, j), from row i of A and column j of B. -/
def outSums (d passes : Nat) (a b : List (List Val)) : List Val :=
  ((chunks d a).zip (chunks d b)).map (fun p => groupSum passes p.1 p.2)

/-- Column j of a tile given by rows. -/
def colOf (rows : List (List (List Val))) (j : Nat) : List (List Val) := rows.map (fun r => nth r [] j)

/-- Every output of one `MMA`, in row-major order, from the accumulators before it. -/
def mmaOutputs (isInt ieee fold odd : Bool) (d passes n : Nat) (a b : List (List (List Val))) (ev od : List Word) :
    List Partial :=
  let cols := (upTo n).map (colOf b)
  let sums := a.flatMap (fun row => cols.map (fun col => outSums d passes row col))
  (upTo sums.length).map (fun k =>
    addSums isInt ieee fold odd ⟨nth ev 0 k, nth od 0 k, false, false⟩ (nth sums [] k))

/-- The merge of the two partials of a 64 × 16 chain (R122). -/
def mergePartial (isInt ieee : Bool) (ev od : Word) : AccRes := accAdd isInt ieee ev (accVal isInt od)

/-! ## Entry (R102 to R104, R152) -/

/-- A tile as the ME takes it in: its elements as values (three parts in F32X), and what the entry counted. -/
structure Entry where
  rows : List (List (List Val))
  clips : Nat
  nans  : Nat
  bad   : Nat
  deriving DecidableEq, Repr

/-- One element on entry: from its stored format to the compute format, with clip, replaced NaN and bad code. -/
def enterElem (stored compute code : Nat) : List Val × Bool × Bool × Bool :=
  if compute = 1 then
    let (h, m, l) := f32xParts code
    ([f32.decode h, f32.decode m, f32.decode l], false, false, false)
  else
    let (v, bad) := elemVal stored code
    if stored = compute then ([v], false, false, bad)
    else
      let c := convert stored compute v
      ([(elemVal compute c.code).1], c.clip, c.nan, bad)

/-- A tile on entry (R102, R103). -/
def enterTile (stored compute : Nat) (codes : List (List Nat)) : Entry :=
  let es := codes.map (fun r => r.map (enterElem stored compute))
  let all := es.flatten
  ⟨es.map (fun r => r.map (·.1)), (all.filter (·.2.1)).length, (all.filter (·.2.2.1)).length,
    (all.filter (·.2.2.2)).length⟩

/-- The compute format of an operand in a relight (R152): E4M3 under RELIGHT_FP8; under RELIGHT_BF16 the stored 16-bit
format, or BF16, into which the others widen exactly. -/
def relightFmt (eff stored : Nat) : Nat :=
  if eff = 2 then 4 else if stored = 2 || stored = 3 then stored else 2

/-- Whether a stored format may feed a compute format (R102). -/
def entryOk (stored compute : Nat) : Bool :=
  stored == compute || ((stored == 2 || stored == 3) && (compute == 4 || compute == 5 || compute == 6))

/-- Whether a preload format fits the chain's accumulators (R128). -/
def preloadOk (isInt : Bool) (f : Nat) : Bool :=
  if isInt then f == 0xD || f == 0xC || f == 7 || f == 8 || f == 9 || f == 0xA || f == 0xB
  else f == 1 || f == 2 || f == 3 || f == 4 || f == 5 || f == 6

/-! ## Banks (R123 to R127) -/

/-- Bank b of a cluster. -/
def Cluster.bank (c : Cluster) (b : Nat) : Option Chain := if b = 0 then c.bank0 else c.bank1
/-- The cluster with bank b replaced. -/
def Cluster.setBank (c : Cluster) (b : Nat) (x : Option Chain) : Cluster :=
  if b = 0 then { c with bank0 := x } else { c with bank1 := x }

/-- Whether a bank holds an open chain. -/
def bankOpen (b : Option Chain) : Bool :=
  match b with
  | none => false
  | some ch => ch.state == .open

/-- Whether bank 0 holds a 64 × 16 chain that satisfies p (such a chain takes both banks, R110). -/
def Cluster.folded (c : Cluster) (p : Option Chain → Bool) : Bool :=
  match c.bank0 with
  | none => false
  | some ch => ch.shape == 2 && p c.bank0

/-- Whether the opening of a chain of a shape on a bank waits (R125). -/
def Cluster.openWaits (c : Cluster) (shape b : Nat) : Bool :=
  if shape = 2 then bankBusy c.bank0 || bankBusy c.bank1
  else bankBusy (c.bank b) || c.folded bankBusy

/-- Whether the opening of a chain of a shape on a bank is refused with `CL_ME_CHAIN` (R125, R137). -/
def Cluster.openRefused (c : Cluster) (shape b : Nat) : Bool :=
  if shape = 2 then bankOpen c.bank0 || bankOpen c.bank1
  else bankOpen (c.bank b) || c.folded bankOpen

/-- The fields of an `MMA` that every instruction of its chain shares (R126). -/
def chainFields (w : Word) : List Nat := [mFA w, mFB w, mShape w, mPasses w, b2n (mIeee w), mPolicy w, mThresh w]

/-! ## The checks of `MMA` (R813) -/

/-- Queue ends that R108 does not allow, or fields that R109 requires to be zero. -/
def mmaOperandBad (w : Word) : Bool :=
  let ins := [mQA w, mQB w] ++ (if mAcc w = 1 then [mQP w] else [])
  (mAcc w != 1 && mQP w != 0) || (!mLast w && (mQO w != 0 || mFO w != 0))
    || !noRepeat ins || (mLast w && ins.contains (mQO w))

/-- `PASSES`, `IEEE` or `FO` invalid, or a compute pair outside R100 (R101, R106, R107, R131). -/
def mmaFormatBad (w : Word) : Bool :=
  match mClass (mFA w) (mFB w) with
  | none => true
  | some k =>
    (if mFA w = 1 then mPasses w == 0 else mPasses w != 0) || (k.isInt && mIeee w) || (mFO w ≥ 14)

/-- The state of the bank, or a field that differs from the open chain's (R125, R126, R136). -/
def Cluster.mmaChainBad (c : Cluster) (w : Word) : Bool :=
  if mAcc w = 2 then
    match c.bank (mBank w) with
    | none => true
    | some ch =>
      ch.state != .open ||
        (match ch.fields with
         | some f => chainFields f != chainFields w
         | none => mShape w != ch.shape)
  else c.openRefused (mShape w) (mBank w)

/-- The first `MMA` after an `MREST` on its bank. -/
def Cluster.firstAfterRest (c : Cluster) (w : Word) : Bool :=
  mAcc w == 2 && (match c.bank (mBank w) with | some ch => ch.fields.isNone | none => false)

/-- The effective policy that an `MMA` works under: that of its chain, or the one it latches, with `RELIGHT_OFF` as it was when the
chain opened (R144). -/
def Cluster.mmaEff (c : Cluster) (w : Word) (off : Bool) : Nat :=
  match c.bank (mBank w) with
  | some ch =>
    if mAcc w = 2 then (if ch.fields.isSome then ch.eff else effPolicy (mPolicy w) (mClassOf w).kind ch.offAt)
    else effPolicy (mPolicy w) (mClassOf w).kind off
  | none => effPolicy (mPolicy w) (mClassOf w).kind off

/-- Retention would need more entries of a queue for the chain than its depth (R149). -/
def Cluster.retainBad (c : Cluster) (w : Word) (eff : Nat) : Bool :=
  2 ≤ eff && ([mQA w, mQB w] ++ (if mAcc w = 1 then [mQP w] else [])).any
    (fun i => (c.q i).depth < ((c.q i).retained.filter (fun x => x.1 == mBank w)).length + 1)

/-- Checks 1 to 8 of R813 for an `MMA`. -/
def Cluster.mmaCheck (c : Cluster) (w : Word) (off : Bool) : Option (BitVec 16) :=
  let eff := c.mmaEff w off
  firstCode
    [(mmaOperandBad w, Code.CL_ME_OPERAND),
     (mAcc w == 3, Code.CL_ME_CHAIN),
     (mShape w == 3 || (mShape w == 2 && mBank w == 1), Code.CL_ME_SHAPE),
     (mmaFormatBad w, Code.CL_ME_FORMAT),
     (c.mmaChainBad w, Code.CL_ME_CHAIN),
     (c.firstAfterRest w && (match c.bank (mBank w) with
        | some ch => ch.isInt != (mClassOf w).isInt | none => false), Code.CL_ME_FORMAT),
     (c.firstAfterRest w && 2 ≤ eff, Code.CL_ME_SAVE),
     (mLast w && (c.q (mQO w)).slot < tileBytes (mFO w) (shapeM (mShape w)) (shapeN (mShape w)), Code.CL_SLOT),
     (c.retainBad w eff, Code.CL_ME_RETAIN)]

/-- Check 9 of R813 for an `MMA`, on the tiles at the heads of its queues. -/
def mmaTileCheck (w a b : Word) (p : Option Word) : Option (BitVec 16) :=
  let k := dCols a
  let d := (mClassOf w).d
  let m := shapeM (mShape w)
  let n := shapeN (mShape w)
  firstCode
    [(k % d != 0 || k < d || 256 < k || dRows a != m || dRows b != k || dCols b != n
        || (match p with | some x => dRows x != m || dCols x != n | none => false), Code.CL_ME_SHAPE),
     (!entryOk (dFmt a) (mFA w) || !entryOk (dFmt b) (mFB w)
        || (match p with | some x => !preloadOk (mClassOf w).isInt (dFmt x) | none => false), Code.CL_ME_FORMAT)]

/-- Whether every tile that an `MMA` pops is at the head of its queue. -/
def Cluster.mmaReady (c : Cluster) (w : Word) : Bool :=
  !(c.q (mQA w)).entries.isEmpty && !(c.q (mQB w)).entries.isEmpty
    && (mAcc w != 1 || !(c.q (mQP w)).entries.isEmpty)

/-! ## A chain opened, continued and closed -/

/-- 1,024 accumulators at +0. -/
def zeroBank : List Word := List.replicate 1024 0

/-- The chain that an opening instruction opens (R124), with the preload widened into the accumulators (R128). -/
def newChain (w : Word) (eff : Nat) (pre : Option (Nat × Word × List (List Nat))) : Chain where
  state := .open
  shape := mShape w
  isInt := (mClassOf w).isInt
  fields := some w
  restored := false
  offAt := false
  eff := eff
  even := match pre with
    | some (_, d, t) => t.flatten.map (fun c => accOf (mClassOf w).isInt (elemVal (dFmt d) c).1)
    | none => zeroBank
  odd := if mShape w = 2 then zeroBank else []
  nextOdd := false
  groups := 0
  preload := pre.map (fun x => (x.1, x.2.1))
  pairs := []
  rest := []
  narrowed := false
  clipIn := 0
  overflow := false
  sat := false
  clip := false
  nan := false
  preSat := match pre with | some (_, d, _) => dSat d | none => false
  preClip := match pre with | some (_, d, _) => dClip d | none => false
  counts := match pre with
    | some (_, d, t) => ⟨0, 0, (t.flatten.filter (fun c => (elemVal (dFmt d) c).2)).length, 0, 0⟩
    | none => Counts.none
  last := none
  decided := false
  relit := false

/-- A chain after one pair of operand tiles, taken in with dot depth d and passes, has been accumulated. -/
def Chain.accumulate (ch : Chain) (ieee : Bool) (d passes : Nat) (a b : Entry) : Chain :=
  let fold := ch.shape == 2
  let n := shapeN ch.shape
  let g := (nth a.rows [] 0).length / d
  let ps := mmaOutputs ch.isInt ieee fold ch.nextOdd d passes n a.rows b.rows ch.even ch.odd
  { ch with
    even := ps.map (·.ev)
    odd := if fold then ps.map (·.od) else []
    nextOdd := if g % 2 = 1 then !ch.nextOdd else ch.nextOdd
    groups := ch.groups + g
    overflow := ch.overflow || ps.any (·.ovf)
    sat := ch.sat || ps.any (·.sat)
    clip := ch.clip || decide (0 < a.clips + b.clips)
    nan := ch.nan || decide (0 < a.nans + b.nans)
    counts := ch.counts.add ⟨a.clips + b.clips, a.nans + b.nans, a.bad + b.bad, 0, 0⟩ }

/-- The merge of a 64 × 16 chain after its final addition (R122); other shapes are unchanged. -/
def Chain.merge (ch : Chain) (ieee : Bool) : Chain :=
  if ch.shape = 2 then
    let ms := (ch.even.zip ch.odd).map (fun p => mergePartial ch.isInt ieee p.1 p.2)
    { ch with
      even := ms.map (·.acc), odd := []
      overflow := ch.overflow || ms.any (·.ovf), sat := ch.sat || ms.any (·.sat) }
  else ch

/-- Whether a chain triggers (R145). -/
def Chain.triggered (ch : Chain) : Bool :=
  decide (mThresh (ch.fields.getD 0) < ch.clipIn) || ch.overflow

/-- The cluster with what the chain of bank b retains released (R142, R148). -/
def Cluster.releaseBank (c : Cluster) (b : Nat) : Cluster :=
  { c with queues := c.queues.map (fun e => (e.1, { e.2 with retained := e.2.retained.filter (fun x => x.1 != b) })) }

end Sys2Proof.Machine
end

