-- ==== Sys2Proof/Machine/ElementOps.lean ====
section
/-! DEFINITION. The element engine's arithmetic: the operations of a wick program (R182), its functions (R184 to R187),
row reductions (R189, R190), the checks of a program (R181), and the FP64 arithmetic of the side reduction unit (R195,
R198, R199). -/

namespace Sys2Proof.Machine

/-! ## Functions (R184) -/

/-- ⌊ln 2 × 2^192⌋. -/
def ln2Fix : Nat := 0xB17217F7D1CF79ABC9E3B39803F2F6AF40F343267298B62D

/-- The sum of t^k / k! from term k on, in units of 2^-192, where `term` is the k-th term; `fuel` bounds the terms. -/
def expSeries (t : Nat) : Nat → Nat → Nat → Nat
  | 0, _, _ => 0
  | fuel + 1, k, term => term + expSeries t fuel (k + 1) (term * t / 2 ^ 192 / (k + 1))

/-- 2^f in units of 2^-192, for f in units of 2^-192 below 1. -/
def exp2Fix (f : Nat) : Nat := expSeries (f * ln2Fix / 2 ^ 192) 60 0 (2 ^ 192)

/-- The sum of z^(2k+1) / (2k+1) from term k on, in units of 2^-192. -/
def atanhSeries (z2 : Nat) : Nat → Nat → Nat → Nat
  | 0, _, _ => 0
  | fuel + 1, k, pow => pow / (2 * k + 1) + atanhSeries z2 fuel (k + 1) (pow * z2 / 2 ^ 192)

/-- log2 of y / 2^k in units of 2^-192, for 2^k ≤ y < 2^(k+1). -/
def log2Fix (y k : Nat) : Nat :=
  let z := (y - 2 ^ k) * 2 ^ 192 / (y + 2 ^ k)
  2 * atanhSeries (z * z / 2 ^ 192) 66 0 z * 2 ^ 192 / ln2Fix

/-- FP32 code of a magnitude with something more below its last place if `sticky`. -/
def f32mag (neg : Bool) (m : Nat) (e : Int) (sticky : Bool) : BitVec 32 :=
  BitVec.ofNat 32 (f32.roundMag .nearestEven neg m e sticky).1

/-- FP32 canonical NaN. -/
def nan32 : BitVec 32 := 0x7FC00000
/-- FP32 infinity of a sign. -/
def inf32 (neg : Bool) : BitVec 32 := BitVec.ofNat 32 (f32.infC neg)
/-- FP32 zero of a sign. -/
def zero32 (neg : Bool) : BitVec 32 := BitVec.ofNat 32 (f32.withSign neg 0)
/-- FP32 1.0. -/
def one32 : BitVec 32 := 0x3F800000
/-- An FP32 code with every NaN made canonical (R90). -/
def canon32 (x : BitVec 32) : BitVec 32 := if (f32v x).isNan then nan32 else x

/-- `EXP2` (R184): correctly rounded. An input of magnitude below 2^-26 gives 1, the nearest value. -/
def exp2R (x : BitVec 32) : BitVec 32 :=
  match f32v x with
  | .nan => nan32
  | .inf s => if s then zero32 false else inf32 false
  | .fin s m e =>
    if m = 0 || expo m e < -26 then one32
    else if !s && 7 ≤ expo m e then inf32 false
    else if s && 8 ≤ expo m e then zero32 false
    else
      let u := unitsAt s (scaleTo m e (-192)) (-192) (-192)
      let i := u / (2 ^ 192 : Nat)
      let f := (u % (2 ^ 192 : Nat)).toNat
      if f = 0 then f32mag false 1 i false else f32mag false (exp2Fix f) (i - 192) true

/-- `LOG2` (R184): correctly rounded. -/
def log2R (x : BitVec 32) : BitVec 32 :=
  match f32v x with
  | .nan => nan32
  | .inf s => if s then nan32 else inf32 false
  | .fin s m e =>
    if m = 0 then inf32 true
    else if s then nan32
    else
      let k := Nat.log2 m
      let i : Int := (k : Int) + e
      if m = 2 ^ k then f32of (Val.ofInt i)
      else
        let t := i * (2 ^ 192 : Nat) + (log2Fix m k : Int)
        f32mag (decide (t < 0)) t.natAbs (-192) true

/-- `RCP` (R184): correctly rounded. Where 1 ÷ x lies beyond FP32, rounding gives an infinity of the sign of x, also for a negative x,
of which R184's table says that the result is finite (DESIGN CHOICE, log 109). -/
def rcpR (x : BitVec 32) : BitVec 32 :=
  match f32v x with
  | .nan => nan32
  | .inf s => zero32 s
  | .fin s m e =>
    if m = 0 then inf32 s
    else
      let (u, q, st) := divMag 1 0 m e 60
      f32mag s u q st

/-- `RSQRT` (R184): correctly rounded. -/
def rsqrtR (x : BitVec 32) : BitVec 32 :=
  match f32v x with
  | .nan => nan32
  | .inf s => if s then nan32 else zero32 false
  | .fin s m e =>
    if m = 0 then inf32 s
    else if s then nan32
    else
      let (m, e) := if e % 2 = 0 then (m, e) else (2 * m, e - 1)
      let r := isqrt (2 ^ 200 / m)
      f32mag false r (-100 - e / 2) (decide (r * r * m ≠ 2 ^ 200))

/-- a × b + c with one rounding, in FP32. -/
def fma32 (a b c : BitVec 32) : BitVec 32 := f32of (((f32v a).mul (f32v b)).add (f32v c))

/-- The polynomial of a `TANH` segment, from coefficient k downwards (R185). -/
def tanhPoly (i : Nat) (t : BitVec 32) : Nat → BitVec 32 → BitVec 32
  | 0, p => p
  | k + 1, p => tanhPoly i t k (fma32 p t (Config.tanhTable (i * 6 + k)))

/-- The value x with the sign s. -/
def copySign32 (s : Bool) (x : BitVec 32) : BitVec 32 :=
  BitVec.ofNat 32 (x.toNat % 2 ^ 31 + (if s then 2 ^ 31 else 0))

/-- FP32 minimum under R88 and R89. -/
def min32 (a b : BitVec 32) : BitVec 32 := f32of (vmin (f32v a) (f32v b))
/-- FP32 maximum under R88 and R89. -/
def max32 (a b : BitVec 32) : BitVec 32 := f32of (vmax (f32v a) (f32v b))

/-- `TANH` (R185). -/
def tanhR (x : BitVec 32) : BitVec 32 :=
  match f32v x with
  | .nan => nan32
  | .inf s => copySign32 s one32
  | .fin s m e =>
    if m = 0 || expo m e < -12 then x
    else if (Val.fin false 9 0).le (.fin false m e) then copySign32 s one32
    else
      let i := (roundTo .towardZero false m (e + 2) 0 false).1
      let t := f32of ((Val.fin false m e).add (.fin true i (-2)))
      copySign32 s (min32 (tanhPoly i t 5 (Config.tanhTable (i * 6 + 5))) one32)

/-- `SIGM` (R187). -/
def sigmR (x : BitVec 32) : BitVec 32 :=
  let half : BitVec 32 := 0x3F000000
  fma32 half (tanhR (f32of ((f32v half).mul (f32v x)))) half

/-! ## Element-wise operations (R182) -/

/-- Whether a comparison holds (R86, R87): 0 EQ, 1 NE, 2 LT, 3 LE, 4 GT, 5 GE. -/
def cmpHolds (cond : Nat) (a b : Val) : Bool :=
  match cond with
  | 0 => a.eqv b
  | 1 => !a.eqv b
  | 2 => a.lt b
  | 3 => a.le b
  | 4 => b.lt a
  | _ => b.le a

/-- Whether a value differs from 0; a NaN does (R87). -/
def nonZero32 (x : BitVec 32) : Bool := !(f32v x).eqv (Val.zero false)

/-- The result of an element-wise operation, and the clip and replaced NaN that a `CVT` counts (R182, R183). -/
def wickElem (op aux : Nat) (a b c : BitVec 32) : BitVec 32 × Bool × Bool :=
  match op with
  | 0x00 => (canon32 a, false, false)
  | 0x01 => (f32of ((f32v a).add (f32v b)), false, false)
  | 0x02 => (f32of ((f32v a).add (f32v b).neg), false, false)
  | 0x03 => (f32of ((f32v a).mul (f32v b)), false, false)
  | 0x04 => (fma32 a b c, false, false)
  | 0x05 => (f32of (((f32v a).mul (f32v b)).add (f32v c).neg), false, false)
  | 0x06 => (min32 a b, false, false)
  | 0x07 => (max32 a b, false, false)
  | 0x08 => (f32of (f32v a).abs, false, false)
  | 0x09 => (f32of (f32v a).neg, false, false)
  | 0x0A => (if cmpHolds aux (f32v a) (f32v b) then one32 else 0, false, false)
  | 0x0B => (canon32 (if nonZero32 a then b else c), false, false)
  | 0x0C =>
    let k := convert 1 aux (f32v a)
    (f32of (elemVal aux k.code).1, k.clip, k.nan)
  | 0x10 => (exp2R a, false, false)
  | 0x11 => (log2R a, false, false)
  | 0x12 => (rcpR a, false, false)
  | 0x13 => (rsqrtR a, false, false)
  | 0x14 => (tanhR a, false, false)
  | _ => (sigmR a, false, false)

/-! ## Row reductions (R189, R190) -/

/-- One level of the pairwise tree: adjacent pairs, lower index first. -/
def pairLevel {α : Type} (f : α → α → α) : List α → List α
  | a :: b :: r => f a b :: pairLevel f r
  | l => l

/-- The pairwise tree over a list, by `fuel` levels. -/
def treeN {α : Type} (f : α → α → α) : Nat → List α → List α
  | 0, l => l
  | fuel + 1, l => treeN f fuel (pairLevel f l)

/-- The result of the pairwise tree over 2^levels elements. -/
def tree {α : Type} (f : α → α → α) (levels : Nat) (d : α) (l : List α) : α := nth (treeN f levels l) d 0

/-- Every row of `cols` elements reduced, its result in every element of the row (R189). -/
def rowReduce (f : BitVec 32 → BitVec 32 → BitVec 32) (cols : Nat) (l : List (BitVec 32)) : List (BitVec 32) :=
  (chunks cols l).flatMap (fun r => List.replicate r.length (tree f (Nat.log2 cols) 0 r))

/-- FP32 sum. -/
def add32 (a b : BitVec 32) : BitVec 32 := f32of ((f32v a).add (f32v b))

/-! ## Wick operations (R177, R178, R181) -/

abbrev wOp (w : Word) : Nat := fld w 58 6
abbrev wDst (w : Word) : Nat := fld w 53 5
abbrev wSA (w : Word) : Nat := fld w 48 5
abbrev wSB (w : Word) : Nat := fld w 43 5
abbrev wSC (w : Word) : Nat := fld w 38 5
abbrev wAux (w : Word) : Nat := fld w 34 4
abbrev wLast (w : Word) : Bool := bit w 33
abbrev wImm (w : Word) : BitVec 32 := BitVec.ofNat 32 (fld w 0 32)

/-- How many sources an operation reads (R182); none for a reserved `WOP`. -/
def wickArity (op : Nat) : Option Nat :=
  match op with
  | 0x00 => some 1 | 0x01 => some 2 | 0x02 => some 2 | 0x03 => some 2 | 0x04 => some 3 | 0x05 => some 3
  | 0x06 => some 2 | 0x07 => some 2 | 0x08 => some 1 | 0x09 => some 1 | 0x0A => some 2 | 0x0B => some 3
  | 0x0C => some 1 | 0x10 => some 1 | 0x11 => some 1 | 0x12 => some 1 | 0x13 => some 1 | 0x14 => some 1
  | 0x15 => some 1 | 0x18 => some 1 | 0x19 => some 1 | 0x1A => some 1 | 0x20 => some 2
  | _ => none

/-- A row operation (R189). -/
def isRowOp (w : Word) : Bool := wOp w == 0x18 || wOp w == 0x19 || wOp w == 0x1A

/-- Whether a code may be a source with `nin` inputs (R178, R181). -/
def srcOk (nin k : Nat) : Bool :=
  k < 0x10 || (0x10 ≤ k && k ≤ 0x12 && k - 0x10 < nin) || (0x14 ≤ k && k ≤ 0x1C)
/-- Whether a code may be a destination (R178). -/
def dstOk (k : Nat) : Bool := k < 0x10 || (0x14 ≤ k && k ≤ 0x17) || k == 0x1F

/-- The sources that an operation reads. -/
def wickSrcs (w : Word) : List Nat := [wSA w, wSB w, wSC w].take ((wickArity (wOp w)).getD 0)

/-- Whether an operation's `AUX` is allowed (R182); a `CVT` of 0xE or 0xF is refused elsewhere (R167). -/
def auxOk (w : Word) : Bool :=
  match wOp w with
  | 0x0A => wAux w ≤ 5
  | 0x0C => true
  | 0x20 => wAux w ≤ 3
  | _ => wAux w == 0

/-- Whether one operation breaks R181 or R182. -/
def wickOpBad (nin : Nat) (out : Bool) (w : Word) : Bool :=
  match wickArity (wOp w) with
  | none => true
  | some k =>
    !(wickSrcs w).all (srcOk nin)
      || (if wOp w = 0x20 then wDst w != 0 else !dstOk (wDst w))
      || (k < 2 && wSB w != 0) || (k < 3 && wSC w != 0) || bit w 32 || !auxOk w
      || (!(wickSrcs w).contains 0x1C && wImm w != 0)
      || (!out && wOp w != 0x20 && wDst w == 0x1F)

/-- The operations of a slot up to its first `LAST`, none when it holds no `LAST` (R176, R181). -/
def wickProgram : List Word → Option (List Word)
  | [] => none
  | w :: r => if wLast w then some [w] else (wickProgram r).map (w :: ·)

/-- Whether a program fails a check of R181, other than the `CVT` and row checks. -/
def wickBad (nin : Nat) (out : Bool) (p : Option (List Word)) : Bool :=
  match p with
  | none => true
  | some ops => ops.any (wickOpBad nin out) || (out && !ops.any (fun w => wOp w != 0x20 && wDst w == 0x1F))

/-- A `CVT` with `AUX` 0xE or 0xF (R167). -/
def wickCvtBad (p : Option (List Word)) : Bool := (p.getD []).any (fun w => wOp w == 0x0C && 14 ≤ wAux w)
/-- A row operation appears (R181). -/
def wickRows (p : Option (List Word)) : Bool := (p.getD []).any isRowOp

/-- What a program holds while it runs over a tile: the lists of operands by code (R178), clips and replaced NaNs of
its `CVT`s, and the slices its `STAT`s feed, by set. -/
structure WickRun where
  ops   : Tab (List (BitVec 32))
  clips : Nat
  nans  : Nat
  feeds : List (Nat × List (Option (BitVec 32)))
  deriving DecidableEq, Repr

/-- The value list of a source operand; temporaries and OUT start at +0 (R179, R180). -/
def WickRun.src (r : WickRun) (imm : BitVec 32) (k : Nat) : List (BitVec 32) :=
  if k = 0x1C then List.replicate 1024 imm else r.ops.get (List.replicate 1024 0) k

/-- One operation of a wick program over a whole tile of `cols` columns (R179, R182, R191, R195). -/
def WickRun.step (cols : Nat) (r : WickRun) (w : Word) : WickRun :=
  let a := r.src (wImm w) (wSA w)
  let b := r.src (wImm w) (wSB w)
  let c := r.src (wImm w) (wSC w)
  match wOp w with
  | 0x18 => { r with ops := r.ops.set (wDst w) (rowReduce add32 cols a) }
  | 0x19 => { r with ops := r.ops.set (wDst w) (rowReduce max32 cols (a.map canon32)) }
  | 0x1A => { r with ops := r.ops.set (wDst w) (rowReduce min32 cols (a.map canon32)) }
  | 0x20 =>
    let fed := (a.zip b).map (fun p => if nonZero32 p.2 then some p.1 else none)
    { r with feeds := r.feeds ++ (chunks 128 fed).map (fun l => (wAux w, l)) }
  | op =>
    let res := (a.zip (b.zip c)).map (fun p => wickElem op (wAux w) p.1 p.2.1 p.2.2)
    { r with
      ops := r.ops.set (wDst w) (res.map (·.1))
      clips := r.clips + (res.filter (·.2.1)).length
      nans := r.nans + (res.filter (·.2.2)).length }

/-! ## FP64 arithmetic of the side reduction unit (R195, R199) -/

/-- FP64 result of an exact value, rounded to nearest even. -/
def f64of (v : Val) : Word := wd (f64.round .nearestEven v).1
/-- FP64 sum. -/
def add64 (a b : Word) : Word := f64of ((f64v a).add (f64v b))
/-- FP64 difference. -/
def sub64 (a b : Word) : Word := f64of ((f64v a).add (f64v b).neg)
/-- FP64 product. -/
def mul64 (a b : Word) : Word := f64of ((f64v a).mul (f64v b))
/-- FP64 canonical NaN. -/
def nan64 : Word := 0x7FF8000000000000

/-- FP64 quotient, rounded to nearest even. -/
def div64 (a b : Word) : Word := wd (f64.divF .nearestEven (f64v a) (f64v b)).1

/-- FP64 of a natural number. -/
def nat64 (n : Nat) : Word := f64of (.fin false n 0)
/-- FP64 of an FP32 code. -/
def widen64 (x : BitVec 32) : Word := f64of (f32v x)
/-- FP64 maximum under R88 and R89. -/
def max64 (a b : Word) : Word := f64of (vmax (f64v a) (f64v b))

/-- One slice of a `STAT` added to a set (R195, R196). -/
def StatSet.addSlice (z : StatSet) (lanes : List (Option (BitVec 32))) : StatSet :=
  let vs := lanes.filterMap id
  let z := match z.n, vs with
    | 0, v :: _ => { z with c := if (f32v v).isNan || (f32v v).isInf then 0 else widen64 v }
    | _, _ => z
  let d := lanes.map (fun l => match l with | some v => sub64 (widen64 v) z.c | none => 0)
  let q := (d.zip lanes).map (fun p => match p.2 with | some _ => mul64 p.1 p.1 | none => 0)
  { z with
    n := z.n + vs.length
    nans := z.nans + (vs.filter (fun v => (f32v v).isNan)).length
    mn := vs.foldl min32 z.mn
    mx := vs.foldl max32 z.mx
    s1 := add64 z.s1 (tree add64 7 0 d)
    s2 := add64 z.s2 (tree add64 7 0 q) }

/-- The set with the slices folded in that instructions issued before `seq` have fed, in their order (R200). -/
def StatSet.fold (z : StatSet) (seq : Nat) : StatSet :=
  let now := z.feeds.filter (fun f => f.seq < seq)
  { now.foldl (fun z f => z.addSlice f.lanes) z with feeds := z.feeds.filter (fun f => !(f.seq < seq)) }

/-- The sum of the counts committed by the instructions issued after `since` and before `seq` (R200). -/
def countsBetween (log : List (Nat × Counts)) (since seq : Nat) : Counts :=
  (log.filter (fun x => since < x.1 && x.1 < seq)).foldl (fun a x => a.add x.2) Counts.none

/-- The value of an `SREAD` code (R198, R199). -/
def statValue (z : StatSet) (k : Counts) (code : Nat) : Word :=
  let n := nat64 z.n
  let var := fun (den : Word) => max64 0 (div64 (sub64 z.s2 (mul64 z.s1 (div64 z.s1 n))) den)
  match code with
  | 0x00 => wd z.n
  | 0x01 => add64 z.s1 (mul64 z.c n)
  | 0x02 => add64 z.s2 (mul64 z.c (add64 (mul64 (nat64 2) z.s1) (mul64 z.c n)))
  | 0x03 => if z.n = 0 then nan64 else add64 z.c (div64 z.s1 n)
  | 0x04 => if z.n = 0 then nan64 else var n
  | 0x05 => if z.n < 2 then nan64 else var (sub64 n (nat64 1))
  | 0x06 => widen64 z.mn
  | 0x07 => widen64 z.mx
  | 0x08 => wd z.nans
  | 0x09 => wd k.clips
  | 0x0A => wd k.nans
  | 0x0B => wd k.bad
  | 0x0C => wd k.trigs
  | 0x0D => wd k.relit
  | _ => z.c

end Sys2Proof.Machine
end

