-- ==== Sys2Proof/Machine/ControlOps.lean ====
section
/-! DEFINITION. The control core (R208 to R252): instruction fields, which words stop a program, advancing the PC with
the end-of-body rule, launching, and what an instruction waits on. -/

namespace Sys2Proof.Machine

/-! ## Fields (R212) -/

abbrev ccRD (w : Word) : Nat := fld w 51 5
abbrev ccRA (w : Word) : Nat := fld w 46 5
abbrev ccRB (w : Word) : Nat := fld w 41 5
abbrev ccCond (w : Word) : Nat := fld w 38 3
abbrev ccImm (w : Word) : Word := wdInt (sfld w 0 32)
abbrev ccImmU (w : Word) : Nat := fld w 0 32
/-- `ENG` of `MARK` and `WAIT` (R246). -/
abbrev ccEng (w : Word) : Nat := fld w 53 3
/-- `TOK` of `MARK` and `WAIT` (R246). -/
abbrev ccTok (w : Word) : Nat := fld w 48 4

/-- Scalar register i. -/
def Cluster.sr (c : Cluster) (i : Nat) : Word := c.s.get 0 i
/-- The cluster with scalar register i written. -/
def Cluster.setSr (c : Cluster) (i : Nat) (v : Word) : Cluster := { c with s := c.s.set i v }

/-- The bits of a defined control-core instruction that no field of it covers (R212, R213, R242, R246, R249); none where
no chapter defines the opcode as the control core's. -/
def ccUnused (op : Nat) : Option Nat :=
  let rd := mask 55 51
  let ra := mask 50 46
  let rb := mask 45 41
  let cond := mask 40 38
  let res := mask 37 32
  let imm := mask 31 0
  match op with
  | 0x00 => some (mask 55 0)
  | 0x0A => some (rb + cond + res)
  | 0x0B => some (ra + rb + cond + res)
  | 0x0C => some (rb + cond + res)
  | 0x0D => some (res + imm)
  | 0x0E => some (rb + cond + res + imm)
  | 0x0F => some (rb + cond + res + imm)
  | 0x10 => some (rb + cond + res + imm)
  | 0x11 => some (ra + rb + cond + res + imm)
  | 0x12 => some (rb + cond + res)
  | 0x13 => some (rd + cond + res)
  | 0x14 => some (rd + res)
  | 0x15 => some (ra + rb + cond + res)
  | 0x16 => some (rd + rb + cond + res + imm)
  | 0x17 => some (rb + cond + res)
  | 0x18 => some (mask 55 0)
  | 0x19 => some (rd + ra + rb + cond + res + mask 31 16)
  | 0x70 => some (mask 52 52 + mask 47 0)
  | 0x71 => some (mask 52 52 + mask 47 0)
  | 0x72 => some (mask 55 16)
  | 0x73 => some (mask 50 0)
  | 0x74 => some (rd + mask 45 41 + mask 35 0)
  | _ => if 0x01 ≤ op ∧ op ≤ 0x09 then some (cond + res + imm) else none

/-- The opcodes of the engines that a chapter defines. -/
def engineOps : List Nat := [0x40, 0x41, 0x42, 0x43, 0x50, 0x51, 0x52, 0x53, 0x54, 0x58, 0x59, 0x60, 0x61, 0x62]

/-- An operand value that the table of R213 or R246 excludes. -/
def ccExcluded (w : Word) : Bool :=
  match opOf w with
  | 0x0D => decide (5 < ccCond w)
  | 0x0E => decide (15 < ccRA w)
  | 0x0F => decide (3 < ccRA w)
  | 0x10 => decide (3 < ccRD w)
  | 0x14 => decide (6 < ccCond w)
  | 0x70 => decide (4 < ccEng w)
  | 0x71 => decide (4 < ccEng w)
  | _ => false

/-- The code with which a word stops the program when the control core reaches it, if any (R213). -/
def ccIllegal (w : Word) : Option (BitVec 16) :=
  if engineOps.contains (opOf w) then none
  else
    match ccUnused (opOf w) with
    | none => some Code.CL_OPCODE
    | some m => if w.toNat &&& m ≠ 0 ∨ ccExcluded w then some Code.CL_CC_OPERAND else none

/-! ## Fetch and advance (R214, R222) -/

/-- The instruction that the control core of cluster n executes next: none unless its program runs and waits for no load
or store that is under way (R216); one that memory has not let start is tried again. -/
def State.ccFetch (s : State) (n : Nat) : Option (Nat × Word) :=
  let c := s.cl n
  if c.st = .running ∧ (c.wait = none ∨ c.wait = some .mem) then some (c.pc, s.imem n c.pc) else none

/-- A row of the control core: where the PC stands at a word that stops the program, it stops; where the word has the
row's opcode, `f` executes it; otherwise the row's event does not occur. -/
def State.ccRow (s : State) (n op : Nat) (f : Nat → Word → State) : State :=
  match s.ccFetch n with
  | none => s
  | some (pc, w) =>
    match ccIllegal w with
    | some code => s.stopProgram n code 0 pc 0
    | none => if opOf w = op then f pc w else s

/-- The end-of-body rule after the instruction at `x`, for at most as many loops as `fuel` (R222). -/
def endOfBody : Nat → Nat → Cluster → Cluster
  | 0, _, c => c
  | fuel + 1, x, c =>
    match c.loops with
    | [] => c
    | (k, a, e) :: rest =>
      if x = e then
        let v := c.lc.get 0 k - 1
        let c := { c with lc := c.lc.set k v }
        if v ≠ 0 then { c with pc := a } else endOfBody fuel x { c with loops := rest }
      else c

/-- Set the PC of cluster n; at or beyond `CODE_WORDS` the program stops, with the PC of the instruction that took it
there (R214; log 29). -/
def State.setPc (s : State) (n pc target : Nat) : State :=
  if (s.cl n).codeWords ≤ target then s.stopProgram n Code.CL_PC_RANGE 0 pc 0
  else s.modCl n (fun c => { c with pc := target, wdog := 0 })

/-- The instruction at `pc` has executed and the next one follows (R214, R222). -/
def State.ccNext (s : State) (n pc : Nat) : State :=
  let c := endOfBody (s.cl n).loops.length pc { s.cl n with pc := pc + 1 }
  (s.setCl n c).setPc n pc c.pc

/-- A branch from `pc` by an offset (R214). -/
def State.ccBranch (s : State) (n pc : Nat) (off : Int) : State :=
  let t : Int := (pc : Int) + off
  if t < 0 then s.stopProgram n Code.CL_PC_RANGE 0 pc 0 else s.setPc n pc t.toNat

/-- A scalar instruction that writes its RD with a value computed from the cluster (R213). -/
def State.ccAlu (s : State) (n op : Nat) (f : Cluster → Word → Word) : State :=
  s.ccRow n op (fun pc w => (s.modCl n (fun c => c.setSr (ccRD w) (f c w))).ccNext n pc)

/-- An opcode that may not end a loop body (R221). -/
def endsBadly (op : Nat) : Bool := 0x14 ≤ op && op ≤ 0x19

/-- Whether a `LOOP` at `pc` breaks R221. -/
def State.loopBad (s : State) (n pc : Nat) (w : Word) : Bool :=
  let c := s.cl n
  let last := pc + ccImmU w
  decide (4 ≤ c.loops.length) || c.loops.any (fun l => l.1 == ccRD w)
    || (match c.loops with | [] => false | (_, _, e) :: _ => decide (e < last))
    || decide (c.codeWords ≤ last) || endsBadly (opOf (s.imem n last)) || ccImmU w == 0 || decide (3 < ccRD w)

/-! ## Queue ends (R237) -/

/-- The queues that an engine instruction pops. -/
def insOf (w : Word) : List Nat :=
  match opOf w with
  | 0x40 => [mQA w, mQB w] ++ (if mAcc w = 1 then [mQP w] else [])
  | 0x42 => [fld w 51 5]
  | 0x50 => (upTo (fld w 27 2)).map (fun i => fld w (51 - 5 * i) 5)
  | 0x51 => [fld w 51 5]
  | 0x54 => [fld w 51 5]
  | 0x61 => [fld w 36 5]
  | _ => []

/-- The queue that an engine instruction pushes into. -/
def outsOf (w : Word) : List Nat :=
  match opOf w with
  | 0x40 => if mLast w then [mQO w] else []
  | 0x41 => [fld w 36 5]
  | 0x50 => if bit w 26 then [fld w 36 5] else []
  | 0x52 => [fld w 36 5]
  | 0x60 => [fld w 36 5]
  | _ => []

/-- The engine of an opcode (R211); `MARK` and `WAIT` name theirs. -/
def engOf (w : Word) : Nat :=
  let op := opOf w
  if op = 0x70 ∨ op = 0x71 then ccEng w
  else if op < 0x50 then 1
  else if op < 0x58 then 2
  else if op < 0x60 then 3
  else 4

/-- Every queue end that an instruction names is bound and belongs to its engine in that role (R237). -/
def Cluster.endsOk (c : Cluster) (w : Word) : Bool :=
  (insOf w).all (c.owns (engOf w) false) && (outsOf w).all (c.owns (engOf w) true)

/-- The scalar operands that the control core reads at issue (R172, R256). -/
def Cluster.issueOps (c : Cluster) (w : Word) : List Word :=
  match opOf w with
  | 0x53 => [c.sr (fld w 0 5)]
  | 0x60 => [c.sr (ccRD w), c.sr (ccRA w)]
  | 0x61 => [c.sr (ccRD w), c.sr (ccRA w)]
  | 0x62 => [c.sr (ccRD w), c.sr (ccRA w), c.sr (ccRB w)]
  | _ => []

/-- A descriptor that `QPUSH` does not accept (R242). -/
def Cluster.descBad (c : Cluster) (d : Word) : Bool :=
  decide (0 < fld d 44 20) || decide (14 ≤ dFmt d) || decide (0x100000 < dAddr d + dBytes d)
    || (upTo 32).any (fun i =>
      let q := c.q i
      q.valid && decide (0 < q.slot) && decide (dAddr d < q.base + q.depth * q.slot ∧ q.base < dAddr d + dBytes d))

/-! ## What an instruction waits on (R252) -/

/-- The queue that an instruction waits on: the first that it pops and finds without the tiles it needs, two of them for a 64 × 16
`MREST`, else one whose slot it has to wait for before it starts; 0xFFFF for none. -/
def Cluster.waitsOn (c : Cluster) (w : Word) : Nat :=
  let need := if opOf w = 0x42 ∧ fld w 22 2 = 2 then 2 else 1
  match (insOf w).find? (fun i => decide ((c.q i).entries.length < need)) with
  | some i => i
  | none =>
    if opOf w = 0x40 then 0xFFFF
    else
      match (outsOf w).find? (fun i => !(c.q i).room 1) with
      | some i => i
      | none => 0xFFFF

/-- The queue without room among those that an instruction which has popped its inputs still pushes into; 0xFFFF for none. -/
def Cluster.waitsRoom (c : Cluster) (q : Option Nat) : Nat :=
  match q with
  | some i => if (c.q i).room 1 then 0xFFFF else i
  | none => 0xFFFF

/-- The issued instructions that have not completed, with their engine and the queue that each waits on (R252): a chain that
drains and an output tile not yet pushed wait on their output queue; an `SREAD` and a transfer in progress on none; an
instruction in an issue queue on what it still pops or pushes. -/
def Cluster.incomplete (c : Cluster) : List (Nat × Issued × Nat) :=
  let bank := fun (b : Option Chain) =>
    match b with
    | some ch => (match ch.last with
      | some i => if ch.state = .open then [] else [(1, i, c.waitsRoom (outsOf i.word).head?)]
      | none => [])
    | none => []
  bank c.bank0 ++ bank c.bank1
    ++ c.eePend.map (fun p => (2, (⟨p.pc, 0, [], p.seq⟩ : Issued), c.waitsRoom (p.out.map (fun o => o.1))))
    ++ c.reads.map (fun i => (3, i, 0xFFFF)) ++ c.dm.map (fun d => (4, d.ins, 0xFFFF))
    ++ c.meQ.map (fun i => (1, i, c.waitsOn i.word)) ++ c.eeQ.map (fun i => (2, i, c.waitsOn i.word))
    ++ c.sruQ.map (fun i => (3, i, c.waitsOn i.word)) ++ c.dmQ.map (fun i => (4, i, c.waitsOn i.word))

/-- The oldest incomplete instruction in issue order: engine, PC and the queue it waits on (R252); the control core's own
where every issued one has completed. -/
def State.oldest (s : State) (n : Nat) : Nat × Nat × Nat :=
  let c := s.cl n
  match c.incomplete.foldl (fun (acc : Option (Nat × Issued × Nat)) x =>
      match acc with
      | none => some x
      | some y => if x.2.1.seq < y.2.1.seq then some x else some y) none with
  | some (e, i, q) => (e, i.pc, q)
  | none =>
    let w := s.imem n c.pc
    (0, c.pc, if opOf w = 0x74 then fld w 36 5 else 0xFFFF)

/-- A request of the cluster to memory or the fabric is outstanding (R252): a load or store of the control core under way, or a
data-mover instruction that has started and has its accesses still to make. -/
def Cluster.outstanding (c : Cluster) : Bool := c.wait.isSome || !c.dm.isEmpty

/-! ## Launch (R267, R275) -/

/-- A launch fires for cluster n with its arguments and time (R267). -/
def State.launchCluster (s : State) (n : Nat) (t : Word) (args : List Word) (cr : Creator) : State :=
  let regs : Tab Word := [(0, wd n), (1, nth args 0 0), (2, nth args 0 1), (3, nth args 0 2), (4, nth args 0 3), (5, t), (6, wd s.pkg)]
  s.modCl n (fun c =>
    { c with
      st := .running, pendingLl := false, heldBy := none, pc := c.entry, s := regs, u := [], uValid := [], lc := []
      loops := [], tok := [], latch := none, fault := 0, wdog := 0, seq := 0, open_ := [], wait := none
      meQ := [], eeQ := [], sruQ := [], dmQ := []
      queues := c.queues.map (fun q => (q.1, { Queue.unbound with bind := q.2.bind }))
      bank0 := none, bank1 := none, tb := [], k := [], eePend := [], sets := [], reads := [], log := [], dm := []
      launchedBy := some cr })

end Sys2Proof.Machine
end

