-- ==== Sys2Proof/Machine/Hash.lean ====
section
/-! DEFINITION. The two hashes that the package computes itself: SHA-512 (R40, R657, R675) and CRC-32C (R508). The
spec names them; their definitions are FIPS 180-4 and the Castagnoli polynomial (log 9). -/

namespace Sys2Proof.Machine

/-- The round constants of SHA-512, part 0. -/
def shaK0 : List Word :=
  [0x428A2F98D728AE22, 0x7137449123EF65CD, 0xB5C0FBCFEC4D3B2F, 0xE9B5DBA58189DBBC,
   0x3956C25BF348B538, 0x59F111F1B605D019, 0x923F82A4AF194F9B, 0xAB1C5ED5DA6D8118,
   0xD807AA98A3030242, 0x12835B0145706FBE, 0x243185BE4EE4B28C, 0x550C7DC3D5FFB4E2,
   0x72BE5D74F27B896F, 0x80DEB1FE3B1696B1, 0x9BDC06A725C71235, 0xC19BF174CF692694,
   0xE49B69C19EF14AD2, 0xEFBE4786384F25E3, 0x0FC19DC68B8CD5B5, 0x240CA1CC77AC9C65]
/-- The round constants of SHA-512, part 1. -/
def shaK1 : List Word :=
  [0x2DE92C6F592B0275, 0x4A7484AA6EA6E483, 0x5CB0A9DCBD41FBD4, 0x76F988DA831153B5,
   0x983E5152EE66DFAB, 0xA831C66D2DB43210, 0xB00327C898FB213F, 0xBF597FC7BEEF0EE4,
   0xC6E00BF33DA88FC2, 0xD5A79147930AA725, 0x06CA6351E003826F, 0x142929670A0E6E70,
   0x27B70A8546D22FFC, 0x2E1B21385C26C926, 0x4D2C6DFC5AC42AED, 0x53380D139D95B3DF,
   0x650A73548BAF63DE, 0x766A0ABB3C77B2A8, 0x81C2C92E47EDAEE6, 0x92722C851482353B]
/-- The round constants of SHA-512, part 2. -/
def shaK2 : List Word :=
  [0xA2BFE8A14CF10364, 0xA81A664BBC423001, 0xC24B8B70D0F89791, 0xC76C51A30654BE30,
   0xD192E819D6EF5218, 0xD69906245565A910, 0xF40E35855771202A, 0x106AA07032BBD1B8,
   0x19A4C116B8D2D0C8, 0x1E376C085141AB53, 0x2748774CDF8EEB99, 0x34B0BCB5E19B48A8,
   0x391C0CB3C5C95A63, 0x4ED8AA4AE3418ACB, 0x5B9CCA4F7763E373, 0x682E6FF3D6B2B8A3,
   0x748F82EE5DEFB2FC, 0x78A5636F43172F60, 0x84C87814A1F0AB72, 0x8CC702081A6439EC]
/-- The round constants of SHA-512, part 3. -/
def shaK3 : List Word :=
  [0x90BEFFFA23631E28, 0xA4506CEBDE82BDE9, 0xBEF9A3F7B2C67915, 0xC67178F2E372532B,
   0xCA273ECEEA26619C, 0xD186B8C721C0C207, 0xEADA7DD6CDE0EB1E, 0xF57D4F7FEE6ED178,
   0x06F067AA72176FBA, 0x0A637DC5A2C898A6, 0x113F9804BEF90DAE, 0x1B710B35131C471B,
   0x28DB77F523047D84, 0x32CAAB7B40C72493, 0x3C9EBE0A15C9BEBC, 0x431D67C49C100D4C,
   0x4CC5D4BECB3E42B6, 0x597F299CFC657E2A, 0x5FCB6FAB3AD6FAEC, 0x6C44198C4A475817]
/-- The round constants of SHA-512. -/
def shaK : List Word := shaK0 ++ shaK1 ++ shaK2 ++ shaK3
/-- The initial hash value of SHA-512. -/
def shaH : List Word :=
  [0x6A09E667F3BCC908, 0xBB67AE8584CAA73B, 0x3C6EF372FE94F82B, 0xA54FF53A5F1D36F1,
   0x510E527FADE682D1, 0x9B05688C2B3E6C1F, 0x1F83D9ABFB41BD6B, 0x5BE0CD19137E2179]

/-- Rotation right of a word. -/
def rotr (x : Word) (n : Nat) : Word := x.rotateRight n

/-- The eight working variables of SHA-512. -/
structure ShaVars where
  a : Word
  b : Word
  c : Word
  d : Word
  e : Word
  f : Word
  g : Word
  h : Word
  deriving DecidableEq, Repr

/-- One round, with its constant and message word. -/
def shaRound (v : ShaVars) (k w : Word) : ShaVars :=
  let s1 := rotr v.e 14 ^^^ rotr v.e 18 ^^^ rotr v.e 41
  let ch := (v.e &&& v.f) ^^^ (~~~v.e &&& v.g)
  let t1 := v.h + s1 + ch + k + w
  let s0 := rotr v.a 28 ^^^ rotr v.a 34 ^^^ rotr v.a 39
  let mj := (v.a &&& v.b) ^^^ (v.a &&& v.c) ^^^ (v.b &&& v.c)
  ⟨t1 + (s0 + mj), v.a, v.b, v.c, v.d + t1, v.e, v.f, v.g⟩

/-- The next word of the message schedule from the last sixteen. -/
def shaNext (l : List Word) : Word :=
  let w := fun i => nth l (0 : Word) i
  let s0 := rotr (w 1) 1 ^^^ rotr (w 1) 8 ^^^ (w 1 >>> 7)
  let s1 := rotr (w 14) 19 ^^^ rotr (w 14) 61 ^^^ (w 14 >>> 6)
  w 0 + s0 + w 9 + s1

/-- The rounds of one block over the constants, with the last sixteen schedule words. -/
def shaRounds : List Word → List Word → ShaVars → ShaVars
  | [], _, v => v
  | k :: ks, w, v => shaRounds ks (w.drop 1 ++ [shaNext w]) (shaRound v k (nth w 0 0))

/-- One 128-byte block, as sixteen words. -/
def shaBlock (v : ShaVars) (w : List Word) : ShaVars :=
  let r := shaRounds shaK w v
  ⟨v.a + r.a, v.b + r.b, v.c + r.c, v.d + r.d, v.e + r.e, v.f + r.f, v.g + r.g, v.h + r.h⟩

/-- The bytes of a word, most significant first. -/
def beBytes (n v : Nat) : List Byte := (leBytes n v).reverse
/-- The number that bytes hold, most significant first. -/
def beNat (l : List Byte) : Nat := leNat l.reverse

/-- A message padded to whole blocks. -/
def shaPad (l : List Byte) : List Byte :=
  let z := (239 - l.length % 128) % 128
  l ++ [0x80] ++ zeros z ++ beBytes 16 (8 * l.length)

/-- The SHA-512 digest of a message. -/
def sha512 (l : List Byte) : List Byte :=
  let v0 : ShaVars := ⟨nth shaH 0 0, nth shaH 0 1, nth shaH 0 2, nth shaH 0 3, nth shaH 0 4, nth shaH 0 5,
    nth shaH 0 6, nth shaH 0 7⟩
  let v := (chunks 128 (shaPad l)).foldl (fun v b => shaBlock v ((chunks 8 b).map (fun x => wd (beNat x)))) v0
  [v.a, v.b, v.c, v.d, v.e, v.f, v.g, v.h].flatMap (fun x => beBytes 8 x.toNat)

/-- One bit of the CRC-32C shift register (reflected polynomial 0x82F63B78). -/
def crcBit (x : BitVec 32) : BitVec 32 := if x.getLsbD 0 then (x >>> 1) ^^^ 0x82F63B78 else x >>> 1
/-- `n` bits of the CRC-32C shift register. -/
def crcBits : Nat → BitVec 32 → BitVec 32
  | 0, x => x
  | n + 1, x => crcBits n (crcBit x)
/-- The CRC-32C of a message. -/
def crc32c (l : List Byte) : BitVec 32 :=
  (l.foldl (fun x b => crcBits 8 (x ^^^ b.zeroExtend 32)) 0xFFFFFFFF) ^^^ 0xFFFFFFFF

end Sys2Proof.Machine
end

