-- ==== Sys2Proof/Machine/Aes.lean ====
section
/-! DEFINITION. AES-256 and the two modes that the spec names: XTS of IEEE 1619 for memory at rest (R474) and GCM for links,
seals, key packages and sessions (R501 to R503, R548, R660, R697), with the derivation of keys by HKDF. Their definitions are
FIPS 197, IEEE 1619, NIST SP 800-38D and RFC 5869 (log 13). -/

namespace Sys2Proof.Machine

/-! ## The cipher -/

/-- The substitution box as one number, entry b in bits [8b+7:8b]. -/
def aesBox : Nat :=
  0x16BB54B00F2D99416842E6BF0D89A18CDF2855CEE9871E9B948ED9691198F8E19E1DC186B95735610EF6034866B53E708A8BBD4B1F74DDE8C6B4A61C2E2578BA08AE7A65EAF4566CA94ED58D6D37C8E779E4959162ACD3C25C2406490A3A32E0DB0B5EDE14B8EE4688902A22DC4F816073195D643D7EA7C41744975FEC130CCDD2F3FF1021DAB6BCF5389D928F40A351A89F3C507F02F94585334D43FBAAEFD0CF584C4A39BECB6A5BB1FC20ED00D153842FE329B3D63B52A05A6E1B1A2C830975B227EBE28012079A059618C323C7041531D871F1E5A534CCF73F362693FDB7C072A49CAFA2D4ADF04759FA7DC982CA76ABD7FE2B670130C56F6BF27B777C63

/-- The substitution of a byte. -/
def aesSub (b : Byte) : Byte := BitVec.ofNat 8 (aesBox >>> (8 * b.toNat))

/-- The byte that `aesSub` takes to a byte. -/
def aesUnsub (b : Byte) : Byte := BitVec.ofNat 8 ((findPos (fun i => aesSub (BitVec.ofNat 8 i) == b) (upTo 256)).getD 0)

/-- A byte times x in the field of AES. -/
def aesDouble (b : Byte) : Byte := (b <<< 1) ^^^ (if b.getLsbD 7 then 0x1B else 0)

/-- A small factor times a byte in the field of AES. -/
def aesTimes (k : Nat) (b : Byte) : Byte :=
  let b2 := aesDouble b
  let b4 := aesDouble b2
  (if k.testBit 0 then b else 0) ^^^ (if k.testBit 1 then b2 else 0) ^^^ (if k.testBit 2 then b4 else 0)
    ^^^ (if k.testBit 3 then aesDouble b4 else 0)

/-- The exclusive or of two lists of bytes, as long as the shorter. -/
def xorBytes (a b : List Byte) : List Byte := List.zipWith (· ^^^ ·) a b

/-- The rows of a state turned left by their number, or right where `back`. -/
def aesRows (back : Bool) (l : List Byte) : List Byte :=
  (upTo 16).map (fun i => nth l 0 ((if back then i + 16 - 4 * (i % 4) else i + 4 * (i % 4)) % 16))

/-- The columns of a state times a circulant matrix with the given first row. -/
def aesColumns (c : List Nat) (l : List Byte) : List Byte :=
  (upTo 16).map (fun i => (upTo 4).foldl (fun x j => x ^^^ aesTimes (nth c 0 j) (nth l 0 (i / 4 * 4 + (i + j) % 4))) 0)

/-- The next word of the key schedule from the words so far. -/
def aesKeyWord (w : List (List Byte)) (rcon : Byte) : List Byte :=
  let i := w.length
  let t := nth w [] (i - 1)
  let t := if i % 8 = 0 then xorBytes ((t.drop 1 ++ t.take 1).map aesSub) [rcon, 0, 0, 0]
    else if i % 8 = 4 then t.map aesSub else t
  xorBytes (nth w [] (i - 8)) t

/-- The fifteen round keys of a 32-byte key. -/
def aesKeys (key : List Byte) : List (List Byte) :=
  chunks 16 ((upTo 52).foldl (fun w i => w ++ [aesKeyWord w (1 <<< (i / 8))]) (chunks 4 (padTo 32 key))).flatten

/-- A 16-byte block enciphered under a 32-byte key. -/
def aesEnc (key block : List Byte) : List Byte :=
  let k := aesKeys key
  let mid := (upTo 13).foldl (fun x r => xorBytes (aesColumns [2, 3, 1, 1] (aesRows false (x.map aesSub))) (nth k [] (r + 1)))
    (xorBytes block (nth k [] 0))
  xorBytes (aesRows false (mid.map aesSub)) (nth k [] 14)

/-- A 16-byte block deciphered under a 32-byte key. -/
def aesDec (key block : List Byte) : List Byte :=
  let k := aesKeys key
  let mid := (upTo 13).foldl (fun x r => aesColumns [14, 11, 13, 9] (xorBytes ((aesRows true x).map aesUnsub) (nth k [] (13 - r))))
    (xorBytes block (nth k [] 14))
  xorBytes ((aesRows true mid).map aesUnsub) (nth k [] 0)

/-! ## XTS (R474) -/

/-- The tweak of the next block of a data unit. -/
def xtsNext (t : List Byte) : List Byte :=
  let n := leNat t
  leBytes 16 ((2 * n) ^^^ (if 2 ^ 127 ≤ n then 0x87 else 0))

/-- The blocks of a data unit under a block cipher `f`, from the tweak of the first. -/
def xtsBlocks (f : List Byte → List Byte) : List (List Byte) → List Byte → List Byte
  | [], _ => []
  | b :: r, t => xorBytes (f (xorBytes b t)) t ++ xtsBlocks f r (xtsNext t)

/-- A data unit of whole blocks with a sequence number, enciphered or deciphered under a key pair. -/
def xts (enc : Bool) (key1 key2 : List Byte) (seq : Nat) (d : List Byte) : List Byte :=
  xtsBlocks (if enc then aesEnc key1 else aesDec key1) (chunks 16 d) (aesEnc key2 (leBytes 16 seq))

/-! ## GCM -/

/-- The product of two elements of the field of GCM, most significant bit first, over the low `n` bits of the first. -/
def ghashMul (x : Nat) : Nat → Nat → Nat → Nat
  | 0, _, z => z
  | n + 1, v, z =>
    ghashMul x n ((v / 2) ^^^ (if v % 2 = 1 then 0xE1 <<< 120 else 0)) (if x.testBit n then z ^^^ v else z)

/-- The hash of a message of whole blocks under hash key `h`. -/
def ghash (h : Nat) (l : List Byte) : Nat := (chunks 16 l).foldl (fun y b => ghashMul (y ^^^ beNat b) 128 h 0) 0

/-- A message padded with zeros to whole blocks. -/
def padBlocks (l : List Byte) : List Byte := l ++ zeros ((16 - l.length % 16) % 16)

/-- The key stream of GCM on a message, from the counter of its first block. -/
def gcmStream (key nonce : List Byte) (ctr : Nat) (d : List Byte) : List Byte :=
  ((upTo (chunks 16 d).length).flatMap (fun i => aesEnc key (nonce ++ beBytes 4 (ctr + i)))).take d.length

/-- The message under the key stream; twice gives it back. -/
def gcmCrypt (key nonce d : List Byte) : List Byte := xorBytes d (gcmStream key nonce 2 d)

/-- The 16-byte tag of a ciphertext with its additional data. -/
def gcmTag (key nonce aad ct : List Byte) : List Byte :=
  let y := ghash (beNat (aesEnc key (zeros 16))) (padBlocks aad ++ padBlocks ct ++ beBytes 8 (8 * aad.length) ++ beBytes 8 (8 * ct.length))
  xorBytes (beBytes 16 y) (aesEnc key (nonce ++ beBytes 4 1))

/-- Sealing: the ciphertext and its tag, from key, 12-byte nonce, additional data and plaintext. -/
def gcmSeal (key nonce aad d : List Byte) : List Byte :=
  let ct := gcmCrypt key nonce d
  ct ++ gcmTag key nonce aad ct

/-- Opening: the plaintext, none when the tag fails. -/
def gcmOpen (key nonce aad d : List Byte) : Option (List Byte) :=
  let ct := d.take (d.length - 16)
  if 16 ≤ d.length ∧ d.drop (d.length - 16) = gcmTag key nonce aad ct then some (gcmCrypt key nonce ct) else none

/-! ## Key derivation (R501, R660, R697) -/

/-- A key padded to the 128-byte block of SHA-512 and combined with a byte. -/
def hmacPad (key : List Byte) (b : Byte) : List Byte :=
  (padTo 128 (if 128 < key.length then sha512 key else key)).map (fun x => x ^^^ b)

/-- HMAC-SHA-512 (RFC 2104). -/
def hmac (key msg : List Byte) : List Byte := sha512 (hmacPad key 0x5C ++ sha512 (hmacPad key 0x36 ++ msg))

/-- The first 64 bytes of HKDF-SHA-512 (RFC 5869) from salt, secret and info. -/
def hkdf (salt secret info : List Byte) : List Byte := hmac (hmac salt secret) (info ++ [1])

/-- The bytes of "HN8-LINK" (R656). -/
def infoLink : List Byte := [0x48, 0x4E, 0x38, 0x2D, 0x4C, 0x49, 0x4E, 0x4B]

end Sys2Proof.Machine
end

