-- ==== Sys2Proof/Machine/MemOps.lean ====
section
/-! DEFINITION. A memory controller serving a request (R453 to R489): the address map, tenant tags, regulators and
budgets, priority reads, error correction, and writes held by copy-on-write. -/

namespace Sys2Proof.Machine

/-! ## From local address to stack (R454) -/

/-- `MC_MAP.HOME_GIB` of die d (R456), read at its first stack. -/
def State.homeGib (s : State) (d : Nat) : Nat := s.rfld (regAt .mc (d * s.part.stPerAd) 0x08) 0 5

/-- The logical stack and stack offset of a local HBM address (R454). -/
def State.mapAddr (s : State) (a : Nat) : Nat × Nat :=
  let st := s.part.stPerAd
  let w := st * stackSize
  let d := a / w
  let o := a % w
  let h := s.homeGib d
  let i := st * (24 - h) * 2 ^ 30
  if o < i then
    let u := o / 4096
    (d * st + u % st, u / st * 4096 + o % 4096)
  else
    let x := o - i
    (d * st + x / (h * 2 ^ 30), (24 - h) * 2 ^ 30 + x % (h * 2 ^ 30))

/-- Whether a local HBM address lies in the home-stack part of its window (R455). -/
def State.inHome (s : State) (a : Nat) : Bool :=
  let st := s.part.stPerAd
  let w := st * stackSize
  decide (st * (24 - s.homeGib (a / w)) * 2 ^ 30 ≤ a % w)

/-- The local address of a stack offset: R454 read backwards. -/
def State.unmapAddr (s : State) (k off : Nat) : Nat :=
  let st := s.part.stPerAd
  let d := k / st
  let h := s.homeGib d
  let w := st * stackSize
  if off < (24 - h) * 2 ^ 30 then d * w + (off / 4096 * st + k % st) * 4096 + off % 4096
  else d * w + st * (24 - h) * 2 ^ 30 + k % st * (h * 2 ^ 30) + (off - (24 - h) * 2 ^ 30)

/-- Whether a local address lies in a list of regions (R630). -/
def inRegions (l : List (Word × Word)) (a : Nat) : Bool :=
  l.any (fun r => decide (r.1.toNat ≤ a ∧ a < r.1.toNat + r.2.toNat))

/-- Whether granule g of 64 KiB of stack k holds a byte of a list of regions (R481): of its sixteen 4 KiB blocks, one
lies in a region. -/
def State.granuleIn (s : State) (l : List (Word × Word)) (k g : Nat) : Bool :=
  (upTo 16).any (fun i => inRegions l (s.unmapAddr k (g * 65536 + i * 4096)))

/-- The pseudo-channel of a stack offset (R454). -/
def pseudoChannel (off : Nat) : Nat := (off / 256 ^^^ off / 8192) % 32

/-- The key of the byte at a local HBM address. -/
def State.hbmKeyOf (s : State) (a : Nat) : Nat := hbmKey (s.mapAddr a).1 (s.mapAddr a).2

/-- The number of the 64-byte unit that holds stack offset `off` of stack k. -/
def unitNo (k off : Nat) : Nat := hbmKey k off / 64

/-! ## Budgets (R732 to R734) -/

/-- The register of the budget of activity a on resource r (R752). -/
def budgetReg (r a : Nat) : Nat := regAt .dbg 0 (0x2000 + (r * 8 + a) * 8)

/-- The bytes per period of activity a on resource r: `JOB_TEARDOWN.SCRUB` on a stack while step 7 of a teardown runs (R626). -/
def State.budgetOf (s : State) (r a : Nat) : Nat :=
  if s.job.tearStep = 7 ∧ r < 16 ∧ a = 3 then s.rfld (regAt .se 0 0x1008) 0 32 else s.rfld (budgetReg r a) 0 32

/-- The level of activity a on resource r; none where the budget never limits (R733, R734). -/
def State.budgetLevel (s : State) (r a : Nat) : Option Int :=
  let b := s.budgetOf r a
  if b = 0xFFFFFFFF then none else if b = 0 then some 0 else some (sfld (s.reg (budgetReg r a)) 32 32)

/-- Whether activity a may start a request on resource r (R733, R734). -/
def State.budgetOk (s : State) (r a : Nat) : Bool :=
  match s.budgetLevel r a with
  | none => true
  | some l => decide (0 < l)

/-- The code of an integer in 32 bits. -/
def intCode32 (i : Int) : Nat := (i % (2 ^ 32 : Nat)).toNat

/-- Charge bytes of activity a to resource r (R733); an unlimited budget is not charged. -/
def State.chargeBudget (s : State) (r a bytes : Nat) : State :=
  match s.budgetLevel r a with
  | none => s
  | some _ =>
    let w := s.reg (budgetReg r a)
    s.setReg (budgetReg r a) (setFld w 32 32 (intCode32 (sfld w 32 32 - bytes)))

/-! ## The passes (R18 to R20) -/

/-- The twelve passes in the order of R717, as pairs of dies: the ring of R18 from PD0, then the cross passes. -/
def passList : List (Nat × Nat) :=
  [(4, 0), (0, 1), (1, 6), (6, 5), (5, 2), (2, 3), (3, 7), (7, 4), (4, 1), (4, 2), (5, 3), (5, 0)]

/-- The pass direction from die a to die b, if one pass joins them (R717): 2 × pass + dir. -/
def passDir (a b : Nat) : Option Nat :=
  match findPos (fun p => p.1 == a && p.2 == b) passList with
  | some i => some (2 * i)
  | none => (findPos (fun p => p.1 == b && p.2 == a) passList).map (fun i => 2 * i + 1)

/-- The number of passes between two dies, up to three. -/
def passDist (a b : Nat) : Nat :=
  if a = b then 0
  else if (passDir a b).isSome then 1
  else if (upTo 8).any (fun x => (passDir a x).isSome && (passDir x b).isSome) then 2
  else 3

/-- The first intermediate die of a shortest route: the lowest-numbered (R20). -/
def passNext (a b : Nat) : Nat :=
  match (upTo 8).filter (fun x => (passDir a x).isSome && passDist x b + 1 == passDist a b) with
  | x :: _ => x
  | [] => b

/-- The pass directions of the route from die a to die b, in at most `fuel` passes (R20). -/
def passRoute : Nat → Nat → Nat → List Nat
  | 0, _, _ => []
  | fuel + 1, a, b =>
    if a = b then []
    else
      let x := passNext a b
      (match passDir a x with | some d => [d] | none => []) ++ passRoute fuel x b

/-- The pass directions from die a to die b; none from a die beyond 7, which stands for the stack's own die. -/
def route (a b : Nat) : List Nat := if a < 8 then passRoute 3 a b else []

/-- Whether an activity may start on every pass of a route (R732, R733). -/
def State.passesOk (s : State) (a b act : Nat) : Bool := (route a b).all (fun d => s.budgetOk (16 + d) act)

/-- Charge a payload, rounded up to 64 B, to every pass of a route (R734). -/
def State.chargePasses (s : State) (a b act bytes : Nat) : State :=
  (route a b).foldl (fun s d => s.chargeBudget (16 + d) act ((bytes + 63) / 64 * 64)) s

/-! ## Warnings (R730, R731) -/

/-- `DBG_WARN` threshold of a class (R749). -/
def State.warnTh (s : State) (c : Nat) : Nat := s.rfld (regAt .dbg 0 0x08) (8 * c) 8

/-- Raise a record that counts in a warning class for a unit: when the count reaches the threshold, the record carries
`WARN`, `DBG_STATUS.WARN` is set, and so is `SE_STATUS.WANT` when the declaration asks for it (R731, R642). -/
def State.raiseWarn (s : State) (cls unit : Nat) (r : Rec) : State :=
  let s := { s with err := { s.err with warns := countUp s.err.warns (cls, unit) 1 } }
  if s.warnTh cls ≠ 0 ∧ countOf s.err.warns (cls, unit) = s.warnTh cls then
    let s := s.setRfld (regAt .dbg 0 0) 0 1 1
    let s := match s.job.decl with
      | some d => if d.warn then s.setRfld (regAt .se 0 0) 6 1 1 else s
      | none => s
    s.raise { r with flags := r.flags ||| 1 }
  else s.raise r

/-! ## Serving a request -/

/-- What a memory controller answers: the request has to wait, is refused with a code, is held behind a copy-on-write
granule (R483), or is done with the bytes read. -/
inductive MemRes where
  | wait
  | refused (code : BitVec 16)
  | held
  | done (data : List Byte)
  deriving DecidableEq, Repr

/-- The outcome of an access reaches whoever waits for it when the command ends. -/
def State.finish (s : State) (o : Owner) (code : BitVec 16) (data : List Byte) : State :=
  { s with done := s.done ++ [⟨o, code, data⟩] }

/-- The granule of 2 MiB that holds a local HBM address (R473). -/
abbrev granule (a : Nat) : Nat := a / 2 ^ 21

/-- The tenant tag of a granule (R473). -/
def State.tagOf (s : State) (a : Nat) : BitVec 12 := s.tags.get 0 (granule a)

/-- The refusal of R475, if any: class 11 skips both checks. -/
def State.tagCheck (s : State) (cls : Nat) (tag : BitVec 12) (a k : Nat) : Option (BitVec 16) :=
  let t := s.tagOf a
  if cls = 11 || t = 0 then none
  else if t ≠ tag then some Code.MC_TENANT
  else if (s.mc k).keys.any (fun x => x.tag == t) then none
  else some Code.MC_NO_KEY

/-- The register of regulator p of stack k (R493). -/
abbrev partReg (k p : Nat) : Nat := regAt .mc k (0x100 + 8 * p)

/-- The partition of a class on an MC (R460, R492). -/
def State.partOf (s : State) (k cls : Nat) : Nat := if cls < 14 then s.rfld (regAt .mc k 0x10) (4 * cls) 4 else 0

/-- Whether a class is enabled for priority reads on an MC (R463, R492). -/
def State.prioClass (s : State) (k cls : Nat) : Bool :=
  let w := s.reg (regAt .mc k 0x18)
  (upTo 4).any (fun j => bit w (8 * j + 7) && fld w (8 * j) 4 == cls)

/-- Whether its partition holds a token for each of the n units of a request (R460, R461). -/
def State.tokensOk (s : State) (k cls n : Nat) : Bool :=
  let p := s.reg (partReg k (s.partOf k cls))
  !bit p 63 || decide (n ≤ fld p 0 16)

/-- The partition of a class charged for n units (R461). -/
def State.chargeTokens (s : State) (k cls n : Nat) : State :=
  let o := partReg k (s.partOf k cls)
  let p := s.reg o
  if bit p 63 then s.setReg o (setFld p 0 16 (fld p 0 16 - n)) else s

/-- Whether the partition, the budget of the stack and those of the passes from the requester's die let a request of n units
start (R461, R733). -/
def State.mayStart (s : State) (q : Req) (k n : Nat) : Bool :=
  s.tokensOk k q.cls n && s.budgetOk k q.act && s.passesOk q.die (s.part.dieOfStack k) q.act

/-- A request that starts is charged: its units to partition and stack, its payload to the passes (R461, R734). -/
def State.chargeStart (s : State) (q : Req) (k n bytes : Nat) : State :=
  ((s.chargeTokens k q.cls n).chargeBudget k q.act (64 * n)).chargePasses q.die (s.part.dieOfStack k) q.act bytes

/-! ### What a unit at rest is enciphered under (R467, R474) -/

/-- What the controller enciphers the unit of local address a under now (R474): none where its granule carries tag 0, or no
slot holds its tag. -/
def State.cryptNow (s : State) (k a : Nat) : Option Crypt :=
  let t := s.tagOf a
  if t = 0 then none
  else ((s.mc k).keys.find? (fun x => x.tag == t)).map (fun x => ⟨x.key1, x.key2, a / 64⟩)

/-- What unit u was last enciphered under, as its page has it. -/
def State.cryptPage (s : State) (u : Nat) : Option Crypt :=
  (s.cryptP.get none (u / 64)).map (fun c => { c with seq := c.seq + u % 64 })

/-- What unit u was last enciphered under. -/
def State.cryptAt (s : State) (u : Nat) : Option Crypt :=
  match s.cryptU.find u with
  | some c => c
  | none => s.cryptPage u

/-- Note what unit u has been enciphered under. -/
def State.setCrypt (s : State) (u : Nat) (c : Option Crypt) : State :=
  { s with cryptU := if s.cryptPage u = c then s.cryptU.drop u else s.cryptU.set u c }

/-- The bytes of a unit enciphered or deciphered (R474). -/
def cryptWith (enc : Bool) (c : Option Crypt) (d : List Byte) : List Byte :=
  match c with
  | none => d
  | some c => xts enc c.key1 c.key2 c.seq d

/-- A unit as the controller returns it: what is stored, deciphered under what holds now (R467, R474). -/
def State.unitPlain (s : State) (k off a : Nat) : List Byte :=
  let u := unitNo k off
  let d := memRdN s.mem (64 * u) 64
  let old := s.cryptAt u
  let new := s.cryptNow k a
  if old = new then d else cryptWith false new (cryptWith true old d)

/-! ### Errors (R466 to R470) -/

/-- A record of the MC of stack k about a unit (R468, R469, R717, R718). -/
def State.eccRec (s : State) (k off a : Nat) (code : BitVec 16) (kind : Nat) : Rec :=
  { s.rec0 (s.part.dieOfStack k) uMc k code kind with
    addr := wd off, array := 10, info := s.reg (regAt .mc k 0x48)
    flags := if s.tagOf a = 0 then 0 else 2
    test := if kind = 1 then 1 else 0 }

/-- `MC_ECC_ADDR` (R494). -/
def eccAddr (ue : Bool) (off : Nat) : Word :=
  wd (b2n ue * 2 ^ 63 + pseudoChannel off * 2 ^ 56 + off % 2 ^ 35 / 64 * 64)

/-- A corrected error on a unit (R468): count, address, record with its warning class, and a test asked for (R724). -/
def State.eccCorrect (s : State) (k off a : Nat) : State :=
  let s := s.bump (regAt .mc k 0x38) 0 48 1
  let s := s.setReg (regAt .mc k 0x48) (eccAddr false off)
  let s := s.setRfld (regAt .mc k 0) 32 16 Code.MC_CE.toNat
  let s := { s with
    flips := s.flips.drop (unitNo k off)
    err := { s.err with
      tests := s.err.tests ++ [(⟨uMc, k, 10, wd (off / 64 * 64), s.part.dieOfStack k, false⟩ : Test)]
      hits := s.err.hits ++ [((uMc, k, 10, wd (off / 64 * 64)), s.now (s.part.dieOfStack k))] } }
  s.raiseWarn 0 k (s.eccRec k (off / 64 * 64) a Code.MC_CE 1)

/-- An uncorrectable error on a unit (R469): the unit is poisoned. -/
def State.eccPoison (s : State) (k off a : Nat) : State :=
  let s := s.bump (regAt .mc k 0x40) 0 48 1
  let s := s.setReg (regAt .mc k 0x48) (eccAddr true off)
  let s := s.setRfld (regAt .mc k 0) 32 16 Code.MC_UNCORRECTABLE.toNat
  let s := { s with flips := s.flips.drop (unitNo k off), poison := s.poison ++ [unitNo k off] }
  s.raise (s.eccRec k (off / 64 * 64) a Code.MC_UNCORRECTABLE 2)

/-- What the symbol code finds when a unit is read (R466 to R469): the state after it, and whether it is usable; more than
four bad bytes are beyond the code (log 10), and what it then takes for good is what is stored (R467). -/
def State.eccRead (s : State) (k off a : Nat) : State × Bool :=
  let u := unitNo k off
  let bad := s.flips.get 0 u
  if bad = 0 then (s, true)
  else if bad ≤ 2 then (s.eccCorrect k off a, true)
  else if bad ≤ 4 then (s.eccPoison k off a, false)
  else
    let x := Config.eccBeyond s.free
    let s := { s with free := s.free + 1 }
    match x with
    | none => (s.eccPoison k off a, false)
    | some l => ({ s with mem := memWrL s.mem (64 * u) (cryptWith false (s.cryptAt u) (padTo 64 l)), flips := s.flips.drop u }, true)

/-- On-die corrections that the stack reports with an access (R466). -/
def State.onDie (s : State) (k n : Nat) : State := s.bump (regAt .mc k 0x38) 0 48 n

/-- The unit at a stack offset is read out: the refusal where it is poisoned or beyond correction (R469, R470). -/
def State.unitCheck (s : State) (k off a : Nat) : State × Option (BitVec 16) :=
  if s.poison.contains (unitNo k off) then (s, some Code.MC_POISON)
  else
    match s.eccRead k off a with
    | (s, true) => (s, none)
    | (s, false) => (s, some Code.MC_UNCORRECTABLE)

/-! ### Copy-on-write (R481 to R485, R495) -/

/-- Whether granule g of stack k is pending (R481). -/
def State.pending_ (s : State) (k g : Nat) : Bool := bit (s.reg (regAt .mc k 0x50)) 63 && (s.mc k).cow.contains g

/-- Whether a write to a stack offset is held: its granule is pending, or writes that it held have not all proceeded; class 5
never is (R481, R483 to R485). -/
def State.cowHolds (s : State) (k off cls : Nat) : Bool :=
  cls != 5 && (s.pending_ k (off / 65536) || (s.mc k).held.any (fun h => h.addr.toNat / 65536 == off / 65536))

/-- A write or atomic held, whose granule is handed over as an urgent copy (R483, R486, R495). -/
def State.cowHold (s : State) (k : Nat) (h : HeldWrite) : State :=
  let m := s.mc k
  let g := h.addr.toNat / 65536
  let s := s.setMc k { m with
    held := m.held ++ [h]
    urgent := if m.urgent.contains g || !s.pending_ k g then m.urgent else m.urgent ++ [g] }
  s.bumpSat (regAt .mc k 0x50) 32 20 1

/-- How many held writes and atomics wait on behalf of `o`. -/
def State.heldBy (s : State) (o : Owner) : Nat :=
  s.mcs.foldl (fun n m => n + (m.2.held.filter (fun h => h.owner == o)).length) 0

/-- `SE_STATUS` of instance 0 (R647). -/
abbrev seStatus : Nat := regAt .se 0 0

/-- The first write to a declared granule after a commit clears `SE_STATUS.CLEAN` (R644). -/
def State.soil (s : State) (k off : Nat) : State :=
  if s.rfld seStatus 7 1 = 1 then
    match s.job.decl with
    | some d => if s.granuleIn d.regions k (off / 65536) then s.setRfld seStatus 7 1 0 else s
    | none => s
  else s

/-! ### One unit -/

/-- Bytes stored at a stack offset in one unit, of local address a: a whole unit clears its poison and its bad bytes (R470);
a part of one is put into what the controller makes of the unit, and the whole is enciphered (R453, R467, R474). -/
def State.unitWrite (s : State) (k off a : Nat) (data : List Byte) : State :=
  let u := unitNo k off
  let s := s.soil k off
  if data.length = 64 then
    ({ s with
      mem := memWrL s.mem (hbmKey k off) data
      poison := s.poison.filter (· != u)
      flips := s.flips.drop u } : State).setCrypt u (s.cryptNow k a)
  else if s.cryptAt u = s.cryptNow k a then { s with mem := memWrL s.mem (hbmKey k off) data }
  else ({ s with mem := memWrL s.mem (64 * u) (patch (s.unitPlain k off a) (off % 64) data) } : State).setCrypt u (s.cryptNow k a)

/-- The code of an MC goes to its `LAST_CODE` (R491). -/
def State.mcRefuse (s : State) (k : Nat) (c : BitVec 16) : State := s.setRfld (regAt .mc k 0) 32 16 c.toNat

/-- A refusal by an MC. -/
def State.mcRefused (s : State) (k : Nat) (c : BitVec 16) : State × MemRes := (s.mcRefuse k c, .refused c)

/-- A test runs on the row of a unit of stack k (R724, R736). -/
def State.rowTested (s : State) (k off : Nat) : Bool :=
  s.err.tests.any (fun t => t.running && t.unit == uMc && t.index == k && Config.hbmRow t.addr.toNat == Config.hbmRow off)

/-- Whether accesses to n bytes of a stack, all of one page, have to wait: the MC is off, a row is under test, or the granule
is being retagged (R476, R491, R736). -/
def State.unitsShut (s : State) (k off a n : Nat) : Bool :=
  !bit (s.reg (regAt .mc k 0)) 0 || s.retags.any (fun r => r.gran == granule a)
    || (upTo ((off % 64 + n + 63) / 64)).any (fun i => s.rowTested k (off / 64 * 64 + 64 * i))

/-! ## Accesses within a page

A range within one 4 KiB page lies in one stack and one granule (R454, R473, R481), and is one request. -/

/-- The pieces of a range that lie in one block of `size` bytes each: address, offset in the range, length. -/
def blockPieces (size : Nat) : Nat → Nat → Nat → Nat → List (Nat × Nat × Nat)
  | 0, _, _, _ => []
  | fuel + 1, a, o, len =>
    if len = 0 then []
    else
      let n := min len (size - a % size)
      (a, o, n) :: blockPieces size fuel (a + n) (o + n) (len - n)

/-- The pieces of a range of `len` bytes from address `a`, one in each 64-byte unit. -/
def pieces (a len : Nat) : List (Nat × Nat × Nat) := blockPieces 64 (len / 64 + 2) a 0 len

/-- The pieces of a range, one in each 4 KiB page. -/
def pages (a len : Nat) : List (Nat × Nat × Nat) := blockPieces 4096 (len / 4096 + 2) a 0 len

/-- The units that n bytes from address a touch. -/
def unitCount (a n : Nat) : Nat := (a % 64 + n + 63) / 64

/-- Read the units of a request that has started, stopping at the first that cannot be read. -/
def State.readUnits (s : State) (k off a : Nat) : List (Nat × Nat × Nat) → List Byte → State × MemRes
  | [], acc => (s, .done acc)
  | (x, o, n) :: r, acc =>
    match s.unitCheck k (off + o) x with
    | (s, some c) => s.mcRefused k c
    | (s, none) => State.readUnits s k off a r (acc ++ ((s.unitPlain k (off + o) x).drop (x % 64)).take n)

/-- A read of n bytes within one page (R461, R463 to R465). -/
def State.pageRead (s : State) (q : Req) (a n : Nat) : State × MemRes :=
  let (k, off) := s.mapAddr a
  if s.unitsShut k off a n then (s, .wait)
  else
    match s.tagCheck q.cls q.tag a k with
    | some c => s.mcRefused k c
    | none =>
      if q.prio && n == 64 && a % 64 == 0 && s.prioClass k q.cls && decide (0 < (s.mc k).prio) then
        let s := s.setMc k { s.mc k with prio := (s.mc k).prio - 1 }
        (s.bump (regAt .mc k 0x20) 0 48 64).readUnits k off a (pieces a n) []
      else if s.mayStart q k (unitCount a n) then (s.chargeStart q k (unitCount a n) n).readUnits k off a (pieces a n) []
      else (s, .wait)

/-- The first refusal among the units that a write covers only in part (R453, R470). -/
def State.checkParts (s : State) (k off : Nat) : List (Nat × Nat × Nat) → State × Option (BitVec 16)
  | [] => (s, none)
  | (x, o, n) :: r =>
    if n = 64 then State.checkParts s k off r
    else
      match s.unitCheck k (off + o) x with
      | (s, some c) => (s, some c)
      | (s, none) => State.checkParts s k off r

/-- Store the pieces of a write. -/
def State.writeUnits (s : State) (k off : Nat) (data : List Byte) (l : List (Nat × Nat × Nat)) : State :=
  l.foldl (fun s (p : Nat × Nat × Nat) => s.unitWrite k (off + p.2.1) p.1 ((data.drop p.2.1).take p.2.2)) s

/-- A write within one page that nothing holds: it starts, and is refused whole where a unit that it covers in part cannot be
read (R453, R461, R470). -/
def State.pageStore (s : State) (q : Req) (k off a : Nat) (data : List Byte) : State × MemRes :=
  let n := data.length
  if s.unitsShut k off a n || !s.mayStart q k (unitCount a n) then (s, .wait)
  else
    match (s.chargeStart q k (unitCount a n) n).checkParts k off (pieces a n) with
    | (s, some c) => s.mcRefused k c
    | (s, none) => (s.writeUnits k off data (pieces a n), .done [])

/-- A write within one page (R461, R475, R483). -/
def State.pageWrite (s : State) (q : Req) (a : Nat) (data : List Byte) (o : Owner) : State × MemRes :=
  let (k, off) := s.mapAddr a
  if s.unitsShut k off a data.length then (s, .wait)
  else
    match s.tagCheck q.cls q.tag a k with
    | some c => s.mcRefused k c
    | none =>
      if s.cowHolds k off q.cls then (s.cowHold k ⟨q, wd off, data, none, o⟩, .held)
      else s.pageStore q k off a data

/-- The value that an atomic writes over `old`, if it writes (R324, R528): `b` is its operand, `c` its compare value. -/
def atomicNew (op : Byte) (old b c : Word) : Option Word :=
  if op = 0x10 then some (old + b)
  else if op = 0x11 then some (wd (f64.round .nearestEven ((f64.decode old.toNat).add (f64.decode b.toNat))).1)
  else if op = 0x12 then some (if old.toInt < b.toInt then b else old)
  else if op = 0x13 then some (if b.toInt < old.toInt then b else old)
  else if op = 0x14 then some b
  else if old = c then some b else none

/-- An atomic that nothing holds: the answer is the old value (R324, R453). -/
def State.atomStore (s : State) (q : Req) (k off a : Nat) (op : Byte) (b c : Word) : State × MemRes :=
  if s.unitsShut k off a 8 || !s.mayStart q k 1 then (s, .wait)
  else
    match (s.chargeStart q k 1 8).unitCheck k off a with
    | (s, some code) => s.mcRefused k code
    | (s, none) =>
      let old := ((s.unitPlain k off a).drop (off % 64)).take 8
      match atomicNew op (word64 old 0) b c with
      | some w => (s.unitWrite k off a (leBytes 8 w.toNat), .done old)
      | none => (s, .done old)

/-! ## Lines of the twin -/

/-- The lines of a local HBM range that the twin's solver caches hold in the way of a read or write (R318, R536), each
with whether the twin has to give it up altogether. -/
def State.dirConflicts (s : State) (write : Bool) (a len : Nat) : List (Nat × Bool) :=
  if s.dir.isEmpty then []
  else
    ((upTo (len / 128 + 2)).map (fun i => (a / 128 + i) * 128)).filterMap (fun l =>
      if decide (l < a + len) then
        match s.dir.get .none l with
        | .exclusive => some (l, write)
        | .shared => if write then some (l, true) else none
        | .none => none
      else none)

/-- Ask for lines back from the twin; what is asked for already is not asked for twice. -/
def State.askRecall (s : State) (l : List (Nat × Bool)) : State :=
  { s with recalls := s.recalls ++ l.filter (fun x => !s.recalls.contains x) }

/-- A state that a wait leaves as it was, but for the lines asked back from the twin on the way. -/
def State.keepAsk (s t : State) : State := { s with recalls := t.recalls }

/-! ## Held writes (R484) -/

/-- A held write or atomic proceeds, if memory lets it start: its outcome goes to whoever waits for it. -/
def State.performHeld (s : State) (k : Nat) (h : HeldWrite) : State × Bool :=
  let off := h.addr.toNat
  let a := s.unmapAddr k off
  let c := s.dirConflicts true a (if h.atom.isSome then 8 else h.data.length)
  if !c.isEmpty then (s.askRecall c, false)
  else
    let r := match h.atom with
      | some (op, b, c) => s.atomStore h.req k off a op b c
      | none => s.pageStore h.req k off a h.data
    match r with
    | (t, .done d) => (t.finish h.owner 0 d, true)
    | (t, .refused c) => (t.finish h.owner c [], true)
    | _ => (s, false)

/-- Held writes proceed in the order of arrival; one that cannot yet keeps those behind it on its granule (R484). -/
def State.runHeldList (s : State) (k : Nat) : List HeldWrite → List HeldWrite → State
  | [], kept => s.setMc k { s.mc k with held := kept }
  | h :: r, kept =>
    let g := h.addr.toNat / 65536
    if s.pending_ k g || kept.any (fun x => x.addr.toNat / 65536 == g) then State.runHeldList s k r (kept ++ [h])
    else
      match s.performHeld k h with
      | (s, true) => State.runHeldList s k r kept
      | (s, false) => State.runHeldList s k r (kept ++ [h])

/-- The held writes of stack k that may proceed do. -/
def State.runHeld (s : State) (k : Nat) : State :=
  let l := (s.mc k).held
  if l.isEmpty then s else s.runHeldList k l []

/-! ## Accesses of any length -/

/-- Read pages one after another, stopping at the first that is not done. -/
def State.readPages (s : State) (q : Req) : List (Nat × Nat × Nat) → List Byte → State × MemRes
  | [], acc => (s, .done acc)
  | (a, _, n) :: r, acc =>
    match s.pageRead q a n with
    | (s', .done d) => State.readPages s' q r (acc ++ d)
    | (s', x) => (s', x)

/-- Read `len` bytes of local HBM at once. A read that has to wait changes nothing but the lines asked back from the twin. -/
def State.hbmRead (s : State) (q : Req) (a len : Nat) : State × MemRes :=
  let c := s.dirConflicts false a len
  if !c.isEmpty then (s.askRecall c, .wait)
  else
    match s.readPages q (pages a len) [] with
    | (_, .wait) => (s, .wait)
    | x => x

/-- The outcome of a write: it waits (and nothing has changed), is refused, or is done but for a number of held
pieces. -/
inductive WrRes where
  | wait
  | refused (code : BitVec 16)
  | done (held : Nat)
  deriving DecidableEq, Repr

/-- Write pages one after another; what is written already stays written when a later one is refused. The result is the
count of held pages, none when one has to wait. -/
def State.writePages (s : State) (q : Req) (o : Owner) (data : List Byte) :
    List (Nat × Nat × Nat) → Nat → State × Option (Nat × Option (BitVec 16))
  | [], h => (s, some (h, none))
  | (a, i, n) :: r, h =>
    match s.pageWrite q a ((data.drop i).take n) o with
    | (s', .done _) => State.writePages s' q o data r h
    | (s', .held) => State.writePages s' q o data r (h + 1)
    | (s', .refused c) => (s', some (h, some c))
    | (s', .wait) => (s', none)

/-- Write bytes to local HBM at once. A write that has to wait changes nothing but the lines asked back from the twin. -/
def State.hbmWrite (s : State) (q : Req) (a : Nat) (data : List Byte) (o : Owner) : State × WrRes :=
  let c := s.dirConflicts true a data.length
  if !c.isEmpty then (s.askRecall c, .wait)
  else
    match s.writePages q o data (pages a data.length) 0 with
    | (_, none) => (s, .wait)
    | (s', some (_, some c)) => (s', .refused c)
    | (s', some (h, none)) => (s', .done h)

/-- An atomic on the aligned word at a local HBM address, by its opcode with operand and compare value (R324, R483, R528): the
answer is the old value, or that the controller holds it and answers `o` later. -/
def State.hbmAtomic (s : State) (q : Req) (a : Nat) (op : Byte) (b c : Word) (o : Owner) : State × MemRes :=
  let l := s.dirConflicts true a 8
  let (k, off) := s.mapAddr a
  if !l.isEmpty then (s.askRecall l, .wait)
  else if s.unitsShut k off a 8 then (s, .wait)
  else
    match s.tagCheck q.cls q.tag a k with
    | some code => s.mcRefused k code
    | none =>
      if s.cowHolds k off q.cls then (s.cowHold k ⟨q, wd off, [], some (op, b, c), o⟩, .held)
      else s.atomStore q k off a op b c

/-! ## Regions of the local address space (R21, R23) -/

/-- What stands at a local address (R21 to R23). -/
inductive Region where
  | hbm (a : Nat)
  | font (n o : Nat)
  | imem (n o : Nat)
  | reg (b : Blk) (i o : Nat)
  | unmapped
  deriving DecidableEq, Repr

/-- The region of a local address (R21, R23, R812). -/
def State.region (s : State) (a : Nat) : Region :=
  if a < s.part.hbm then .hbm a
  else if 0x0001000000000000 ≤ a && a < 0x0001100000000000 then
    let n := (a - 0x0001000000000000) / 0x100000
    if n < s.part.clusters then .font n (a % 0x100000) else .unmapped
  else if 0x0001100000000000 ≤ a && a < 0x0002000000000000 then
    let n := (a - 0x0001100000000000) / 0x10000
    if n < s.part.clusters && a % 0x10000 < 0x8000 then .imem n (a % 0x10000) else .unmapped
  else if 0x0002000000000000 ≤ a then
    match locate (a - 0x0002000000000000) with
    | some (b, i, o) => if b = .cl && s.part.clusters ≤ i then .unmapped else .reg b i o
    | none => .unmapped
  else .unmapped

/-- The memory key of an address of a font or instruction memory, which is the local address itself. -/
def localKey (a : Nat) : Nat := a

/-- The kind of memory that a whole local range lies in (R21, R259): HBM up to `SYS_HBM_TOP`, the contiguous fonts of
enabled clusters, or the low 32 KiB of one instruction-memory slot; unmapped where it lies in none of these. -/
def State.rangeIn (s : State) (a len : Nat) : Region :=
  if len = 0 then s.region a
  else
    match s.region a, s.region (a + len - 1) with
    | .hbm x, .hbm _ => .hbm x
    | .font n o, .font _ _ => .font n o
    | .imem n o, .imem m _ => if n = m then .imem n o else .unmapped
    | .reg b i o, .reg c j _ => if b = c && i = j then .reg b i o else .unmapped
    | _, _ => .unmapped

/-- Whether a request may start over the passes to the die of cluster n (R20, R733). -/
def State.mayPass (s : State) (q : Req) (n : Nat) : Bool := s.passesOk q.die (s.part.dieOfCl n) q.act

/-- Charge the passes to the die of cluster n for a payload (R734). -/
def State.chargePass (s : State) (q : Req) (n len : Nat) : State := s.chargePasses q.die (s.part.dieOfCl n) q.act len

/-- Read local memory of any kind but registers, at once; none where the range is not such memory. -/
def State.localRead (s : State) (q : Req) (a len : Nat) : State × Option MemRes :=
  match s.rangeIn a len with
  | .hbm _ => ((s.hbmRead q a len).1, some (s.hbmRead q a len).2)
  | .font n _ | .imem n _ =>
    if s.mayPass q n then (s.chargePass q n len, some (.done (memRdN s.mem (localKey a) len))) else (s, some .wait)
  | _ => (s, none)

/-- Write local memory of any kind but registers, at once; none where the range is not such memory. -/
def State.localWrite (s : State) (q : Req) (a : Nat) (data : List Byte) (o : Owner) : State × Option WrRes :=
  match s.rangeIn a data.length with
  | .hbm _ => ((s.hbmWrite q a data o).1, some (s.hbmWrite q a data o).2)
  | .font n _ | .imem n _ =>
    if s.mayPass q n then (({ s with mem := memWrL s.mem (localKey a) data } : State).chargePass q n data.length, some (.done 0))
    else (s, some .wait)
  | _ => (s, none)

/-! ## Streams

An engine reads and writes a long range as one request for each 64-byte unit, and each starts as the controllers let it. What it
has read stays with it while it waits for more; what it has still to write stays in its list. -/

/-- The piece of a stream at an address, if it has come. -/
def gotAt (got : List (Word × List Byte)) (a n : Nat) : Option (List Byte) :=
  (got.find? (fun p => p.1.toNat == a && p.2.length == n)).map (·.2)

/-- Read the pieces of a local range that have not come: the pieces come, and the outcome. -/
def State.fetchPieces (s : State) (q : Req) (got : List (Word × List Byte)) :
    List (Nat × Nat × Nat) → List Byte → State × List (Word × List Byte) × MemRes
  | [], acc => (s, got, .done acc)
  | (a, _, n) :: r, acc =>
    match gotAt got a n with
    | some d => State.fetchPieces s q got r (acc ++ d)
    | none =>
      match s.localRead q a n with
      | (s, some (.done d)) => State.fetchPieces s q (got ++ [(wd a, d)]) r (acc ++ d)
      | (s, some x) => (s, got, x)
      | (s, none) => (s, got, .refused 0)

/-- Read a local range as a stream: `got` holds what has come of it already. Code 0 stands for a range that is no memory. -/
def State.fetch (s : State) (q : Req) (got : List (Word × List Byte)) (a len : Nat) : State × List (Word × List Byte) × MemRes :=
  s.fetchPieces q got (pieces a len) []

/-- A list of writes cut into pieces of one unit each. -/
def putPieces (l : List (Word × List Byte)) : List (Word × List Byte) :=
  l.flatMap (fun p => (pieces p.1.toNat p.2.length).map (fun x => (wd x.1, (p.2.drop x.2.1).take x.2.2)))

/-- What has become of a list of writes: the rest that waits, the count of held ones, the bytes stored, and the code of a
refusal. -/
structure PutRes where
  rest : List (Word × List Byte)
  held : Nat
  sent : Nat
  code : Option (BitVec 16)
  deriving DecidableEq, Repr

/-- Write pieces to local memory as a stream until one has to wait or is refused; `o` names who waits for a held one, by its
address and length. -/
def State.put (s : State) (q : Req) (o : Word → Nat → Owner) : List (Word × List Byte) → Nat → Nat → State × PutRes
  | [], h, n => (s, ⟨[], h, n, none⟩)
  | (a, d) :: r, h, n =>
    match s.localWrite q a.toNat d (o a d.length) with
    | (s, some (.done 0)) => State.put s q o r h (n + d.length)
    | (s, some (.done k)) => State.put s q o r (h + k) n
    | (s, some (.refused c)) => (s, ⟨r, h, n, some c⟩)
    | (s, some .wait) => (s, ⟨(a, d) :: r, h, n, none⟩)
    | (s, none) => (s, ⟨r, h, n, some 0⟩)

/-! ## Retagging, shutdown and registers (R456, R462, R476 to R480, R491, R493, R810) -/

/-- A protective shutdown (R478, R480, R756): the package stops and asserts `THERMTRIP_N`. -/
def State.protectiveShutdown (s : State) : State := { s with power := { s.power with shutdown := true, thermtrip := true } }

/-- How the controller itself reaches its stack: class 11, activity SCRUB, tag 0 (R459, R472, R476). -/
abbrev scrubReq : Req := ⟨11, 3, 0, false, 9⟩

/-- The units of class 11 and activity SCRUB that stack k lets start now, up to n: each needs a token and a level above 0
(R461, R733). -/
def State.scrubUnits (s : State) (k n : Nat) : Nat :=
  let p := s.reg (partReg k (s.partOf k 11))
  let t := if bit p 63 then min n (fld p 0 16) else n
  match s.budgetLevel k 3 with
  | none => t
  | some l => if 0 < l then min t ((l.toNat + 63) / 64) else 0

/-- The units of a stack that stand at `u` and the n - 1 after it become zeros, enciphered for the new tag of their granule: what
they were is gone, their poison and their bad bytes with it (R476). -/
def State.zeroUnits (s : State) (u n : Nat) : State :=
  { s with
    mem := memClear s.mem (64 * u) (64 * (u + n))
    poison := s.poison.filter (fun x => !(u ≤ x && x < u + n))
    flips := s.flips.filter (fun x => !(u ≤ x.1 && x.1 < u + n)) }

/-- A retag scrub goes on, page by page, as far as its stacks let it (R476): the bytes of the granule zeroed in the end. -/
def State.retagPages (s : State) (g : Nat) (c : Nat → Nat → Option Crypt) : Nat → Nat → State × Nat
  | 0, d => (s, d)
  | fuel + 1, d =>
    if 2 ^ 21 ≤ d then (s, d)
    else
      let a := g * 2 ^ 21 + d
      let (k, off) := s.mapAddr a
      let want := (4096 - d % 4096) / 64
      let n := s.scrubUnits k want
      if n = 0 ∨ !bit (s.reg (regAt .mc k 0)) 0 then (s, d)
      else
        let u := unitNo k off
        let s := ((s.chargeTokens k 11 n).chargeBudget k 3 (64 * n)).soil k off
        let s := s.zeroUnits u n
        let s : State :=
          if n = 64 then { s with cryptP := s.cryptP.set (u / 64) (c k a), cryptU := s.cryptU.filter (fun x => x.1 / 64 != u / 64) }
          else (upTo n).foldl (fun s i => s.setCrypt (u + i) (c k (a + 64 * i))) s
        State.retagPages s g c fuel (d + 64 * n)

/-- What a controller enciphers local address a under for tag t (R474). -/
def State.cryptFor (s : State) (t : BitVec 12) (k a : Nat) : Option Crypt :=
  if t = 0 then none else ((s.mc k).keys.find? (fun x => x.tag == t)).map (fun x => ⟨x.key1, x.key2, a / 64⟩)

/-- A retag scrub goes on; at its end the granule carries the new tag (R476). -/
def State.retagOne (s : State) (r : Retag) : State × Option Retag :=
  match s.retagPages r.gran (s.cryptFor r.tag) 1024 r.done with
  | (s, d) => if 2 ^ 21 ≤ d then ({ s with tags := s.tags.set r.gran r.tag }, none) else (s, some { r with done := d })

/-- The retag scrubs under way go on, in the order of their start. -/
def State.runRetags (s : State) : State :=
  s.retags.foldl (fun s r =>
    match s.retagOne r with
    | (s, some x) => { s with retags := s.retags.map (fun y => if y.gran = r.gran then x else y) }
    | (s, none) => { s with retags := s.retags.filter (fun y => y.gran != r.gran) }) s

/-- A granule is to carry a new tag: its retag scrub starts (R476), anew where one runs. -/
def State.retag (s : State) (g : Nat) (tag : BitVec 12) : State :=
  { s with retags := s.retags.filter (fun y => y.gran != g) ++ [⟨g, tag, 0⟩] }

/-- A discarded write of an MC register records `MC_REG_VALUE` (R810). -/
def State.mcRegValue (s : State) (k : Nat) : State × BitVec 16 := (s.mcRefuse k Code.MC_REG_VALUE, Code.MC_REG_VALUE)

/-- A write of `MC_MAP`: it sets `HOME_GIB` in every MC of the die (R456, R457). -/
def State.writeMcMap (s : State) (k : Nat) (v : Word) : State × BitVec 16 :=
  if 24 < fld v 0 5 then s.mcRegValue k
  else if s.launched then (s, 0)
  else
    let d := s.part.dieOfStack k
    ((upTo s.part.stPerAd).foldl (fun s i => s.setReg (regAt .mc (d * s.part.stPerAd + i) 0x08) (wd (fld v 0 5))) s, 0)

/-- A write of `MC_PARTp`: the bucket fills to `BURST` (R462, R493). -/
def State.writeMcPart (s : State) (k p : Nat) (v : Word) : State :=
  s.setReg (partReg k p) (wd (fld v 63 1 * 2 ^ 63 + fld v 32 16 * 2 ^ 32 + fld v 16 12 * 2 ^ 16 + fld v 32 16))

/-- A write of `MC_REFRESH.RATE` (R477, R491). -/
def State.writeMcRefresh (s : State) (k : Nat) (v : Word) : State × BitVec 16 :=
  if fld v 0 2 = 3 then s.mcRegValue k else (s.setReg (regAt .mc k 0x28) (wd (fld v 0 2)), 0)

end Sys2Proof.Machine
end

