-- ==== Sys2Proof/Machine/FabricOps.lean ====
section
/-! DEFINITION. What every user of the fabric shares (chapter 11): the header and its CRC (R507, R508), routers and the
choice of a port (R517 to R521), sealing (R547, R548), requests that this package sends with the limits of R543, and
the answers it gives. -/

namespace Sys2Proof.Machine

/-! ## Header and frame (R507 to R509) -/

abbrev opREAD : Byte := 0x01
abbrev opGET : Byte := 0x02
abbrev opWRITE : Byte := 0x03
abbrev opAADD : Byte := 0x10
abbrev opACAS : Byte := 0x15
abbrev opCRD : Byte := 0x40
abbrev opCRDX : Byte := 0x41
abbrev opCUPG : Byte := 0x42
abbrev opCWB : Byte := 0x43
abbrev opCEVICT : Byte := 0x44
abbrev opCINV : Byte := 0x45
abbrev opCFWD : Byte := 0x46
abbrev opCDATA : Byte := 0x47
abbrev opRESP : Byte := 0x80
abbrev opNAK : Byte := 0x81
abbrev opGETDATA : Byte := 0x82

/-- A header with every field zero. -/
def hdr0 : JHdr := ⟨0, 0, 0, 0, 0, 0, 0, 0, false, 0, 0, 0, 0, 0, 0, 0, 0⟩

/-- The four words of a header with a given `HOPS` (R507). -/
def hdrWords (h : JHdr) (hops : Nat) : List Word :=
  [ wd (h.dpkg.toNat * 2 ^ 50 + h.daddr.toNat),
    wd (h.spkg.toNat * 2 ^ 50 + h.seq.toNat * 2 ^ 26 + h.op.toNat * 2 ^ 18 + h.len.toNat * 2 ^ 8 + h.tc.toNat * 2 ^ 5
      + h.epoch.toNat * 2 ^ 3 + b2n h.sealed * 4 + h.res.toNat % 4),
    wd (h.key.toNat * 2 ^ 48 + h.tenant.toNat * 2 ^ 36 + h.code.toNat * 2 ^ 20 + h.attempt.toNat * 2 ^ 17
      + hops % 16 * 2 ^ 13 + h.res.toNat / 4 * 8 + h.act.toNat),
    h.arg ]

/-- The 32 bytes of a header with `HOPS` taken as 0 (R508, R548). -/
def hdrBytes (h : JHdr) : List Byte := wordsBytes (hdrWords h 0)

/-- The CRC of a frame (R508). -/
def jcrc (h : JHdr) (payload : List Byte) : BitVec 32 := crc32c (hdrBytes h ++ payload)

/-- The frame of a header and payload, with its CRC. -/
def mkFrame (h : JHdr) (payload : List Byte) : JFrame := ⟨h, payload, jcrc h payload⟩

/-- A request, as opposed to a response: `CDATA` and `TRESP` are responses too (R509, R536, R560). -/
def isReq (op : Byte) : Bool := decide (op.toNat < 0x80) && op != opCDATA && op != 0x61

/-- The opcodes whose `LEN` is a size to read, and which carry no data (R509, R615, R709). -/
def isReadOp (op : Byte) : Bool := op == opREAD || op == opGET || op == 0x70 || op == 0x77

/-- The bytes of payload that a frame carries by its header (R507, R548; log 17). -/
def payloadLen (h : JHdr) : Nat := if isReadOp h.op then (if h.sealed then 24 else 0) else h.len.toNat

/-- The bytes of data that `LEN` counts, without what sealing adds (R548). -/
def dataLen (h : JHdr) : Nat := if h.sealed then h.len.toNat - 24 else h.len.toNat

/-- An atomic opcode (R509). -/
def isAtomic (op : Byte) : Bool := decide (0x10 ≤ op.toNat ∧ op.toNat ≤ 0x15)

/-- A tracked request (R509, R537, R539). -/
def hdrTracked (h : JHdr) : Bool :=
  isAtomic h.op || (h.op == opWRITE && decide (dataLen h ≤ 8)) || h.op == opCRD || h.op == opCRDX || h.op == opCUPG
    || h.op == opCWB

/-- The header in 32 bytes (R507). -/
def hdrOf (l : List Byte) : JHdr :=
  let a := word64 l 0
  let b := word64 l 8
  let c := word64 l 16
  let f := fun (w : Word) (lo n : Nat) => fld w lo n
  { dpkg := BitVec.ofNat 14 (f a 50 14), daddr := BitVec.ofNat 50 (f a 0 50), spkg := BitVec.ofNat 14 (f b 50 14)
    seq := BitVec.ofNat 24 (f b 26 24), op := BitVec.ofNat 8 (f b 18 8), len := BitVec.ofNat 10 (f b 8 10)
    tc := BitVec.ofNat 3 (f b 5 3), epoch := BitVec.ofNat 2 (f b 3 2), sealed := bit b 2, key := BitVec.ofNat 16 (f c 48 16)
    tenant := BitVec.ofNat 12 (f c 36 12), code := BitVec.ofNat 16 (f c 20 16), attempt := BitVec.ofNat 3 (f c 17 3)
    hops := BitVec.ofNat 4 (f c 13 4), act := BitVec.ofNat 3 (f c 0 3), res := BitVec.ofNat 12 (f b 0 2 + 4 * f c 3 10)
    arg := word64 l 24 }

/-- Bytes of a frame on a link (R503): prefix, header, payload and CRC in whole words, tag. -/
def frameBytes (x : JFrame) : Nat := 8 + (32 + x.payload.length + 4 + 7) / 8 * 8 + 16

/-! ## Ports and routers -/

/-- A register of a router (R553). -/
abbrev frReg (f o : Nat) : Nat := regAt .fr f o
/-- A register of a port (R550). -/
abbrev flReg (p o : Nat) : Nat := regAt .fl (p / 18) (p % 18 * 0x1000 + o)
/-- The die number of fabric die f. -/
abbrev fdDie (f : Nat) : Nat := 6 + f
/-- The fabric die whose router a die's frames enter (R517). -/
def fdOf (die : Nat) : Nat := if die = 0 || die = 1 || die = 5 || die = 6 then 0 else 1

/-- `FL_STATE.STATE` (R551): 0 DOWN, 1 TRAINING, 2 KEYING, 3 UP, 4 FAILED. -/
def State.portState (s : State) (p : Nat) : Nat := s.rfld (flReg p 0) 0 3
/-- The port is UP. -/
def State.portUp (s : State) (p : Nat) : Bool := s.portState p == 3
/-- Set the state of a port. -/
def State.setPortState (s : State) (p st : Nat) : State := s.setRfld (flReg p 0) 0 3 st

/-- The current epoch of a router (R521). -/
def State.curEpoch (s : State) (f : Nat) : Nat := s.rfld (frReg f 0x08) 0 2
/-- A route-table bank is valid. -/
def State.bankValid (s : State) (f b : Nat) : Bool := bit (s.reg (frReg f 0x08)) (9 + b)
/-- The epoch of a bank. -/
def State.bankEpoch (s : State) (f b : Nat) : Nat := s.rfld (frReg f 0x08) (4 + 2 * b) 2
/-- The valid bank that carries an epoch (R521). -/
def State.bankOf (s : State) (f e : Nat) : Option Nat :=
  if s.bankValid f 0 && s.bankEpoch f 0 == e then some 0
  else if s.bankValid f 1 && s.bankEpoch f 1 == e then some 1
  else none
/-- The route entry for a package in a bank (R518). -/
def State.rtEntry (s : State) (f b pkg : Nat) : Word := (s.fr f).rt.get 0 (b * 16384 + pkg)
/-- The route entry by the current epoch; 0 where no valid bank carries it. -/
def State.curEntry (s : State) (f pkg : Nat) : Word :=
  match s.bankOf f (s.curEpoch f) with
  | some b => s.rtEntry f b pkg
  | none => 0

/-- Bytes queued on a port for a traffic class (R519). -/
def State.queuedBytes (s : State) (p tc : Nat) : Nat :=
  [0, 1].foldl (fun n f => (s.fr f).buf.foldl (fun n b =>
    if b.port = p ∧ b.frame.hdr.tc.toNat = tc then n + frameBytes b.frame else n) n) 0

/-- Whether a port may carry a traffic class: TC5 only on the twin ports (R537). -/
def tcPort (tc p : Nat) : Bool := tc != 5 || p == 0 || p == 18

/-- The cost of a port for a frame at router f (R519). -/
def State.portCost (s : State) (f tc p : Nat) : Nat :=
  s.queuedBytes p tc + (if p / 18 = f then 0 else s.rfld (frReg f 0) 0 16 * 64)

/-- The output port for a traffic class under a route entry (R519, R520). -/
def State.choosePort (s : State) (f tc : Nat) (e : Word) : Option Nat :=
  let pin := fld e 56 6
  if pin < 36 && s.portUp pin && tcPort tc pin then some pin
  else
    ((upTo 36).filter (fun p => bit e p && s.portUp p && tcPort tc p)).foldl (fun best p =>
      match best with
      | none => some p
      | some q => if s.portCost f tc p < s.portCost f tc q then some p else some q) none

/-! ## Sending frames (R508, R517 to R524, R547, R548) -/

/-- Place a frame with the frames delivered at router f, with the time of its arrival; a `TRESP` takes that of the package reference,
which t1 took too (R559, R560; log 21). -/
def State.toInbox (s : State) (f : Nat) (x : JFrame) (port : Nat) : State :=
  let r := s.fr f
  s.setFr f { r with inbox := r.inbox ++ [⟨x, s.now (if x.hdr.op = 0x61 then 6 else fdDie f), port⟩] }

/-- The fabric die that handles a frame addressed to this package and received by router f: the home agent of
FD(`DADDR`[7]) for a tracked request (R540), else the router's own die. -/
def homeFd (f : Nat) (h : JHdr) : Nat := if hdrTracked h then b2n (h.daddr.getLsbD 7) else f

/-- Count a drop at router f in the field of `FR_DROPS` from bit `lo` (R555). -/
def State.frDrop (s : State) (f lo : Nat) : State := s.bump (frReg f 0x20) lo 16 1

/-- The response class: TC4 and TC5 carry their own responses (R524). -/
def respTc (tc : BitVec 3) : BitVec 3 := if tc = 4 ∨ tc = 5 then tc else 2

/-- The header of a response to a request (R509, R511, R524). What R511 leaves open, the address of a response that is no
`GETDATA`, is `Config.respAddr` (log 16). -/
def respHdr (h : JHdr) (pkg : Nat) (op : Byte) (code : BitVec 16) (len : Nat) : JHdr :=
  { hdr0 with
    dpkg := h.spkg
    daddr := if op = opGETDATA then BitVec.ofNat 50 h.arg.toNat else Config.respAddr h.daddr
    spkg := BitVec.ofNat 14 pkg
    seq := h.seq
    op := op
    len := BitVec.ofNat 10 len
    tc := respTc h.tc
    tenant := h.tenant
    code := code
    act := h.act }

/-- A code of router f (R554). -/
def State.frCode (s : State) (f : Nat) (c : BitVec 16) : State := s.setRfld (frReg f 0) 32 16 c.toNat

/-- Queue a frame at router f for the port that a route entry gives it; none where it gives none (R519, R520). -/
def State.toPort (s : State) (f : Nat) (x : JFrame) (e : Word) : Option State :=
  (if bit e 63 then s.choosePort f x.hdr.tc.toNat e else none).map (fun p =>
    let r := s.fr f
    s.setFr f { r with buf := r.buf ++ [⟨x, p, s.now (fdDie f)⟩] })

/-- A router answers a request for which it has no route; the answer starts at this router, which routes it once by its current
epoch (R520). -/
def State.noRoute (s : State) (f : Nat) (h : JHdr) : State :=
  let s := s.frCode f Code.FAB_NO_ROUTE
  let a : JHdr := { respHdr h s.pkg opRESP Code.FAB_NO_ROUTE 0 with epoch := BitVec.ofNat 2 (s.curEpoch f) }
  let y : JFrame := { mkFrame a [] with hdr := { a with hops := 1 } }
  if h.spkg.toNat = s.pkg then s.toInbox f y 36
  else
    match s.toPort f y (s.curEntry f h.spkg.toNat) with
    | some s => s
    | none => s

/-- A router takes a frame (R512, R517 to R523): it adds one to `HOPS`, and delivers the frame in this package, queues it
for a port, answers or drops it. `port` is where it came from (36 = this package). -/
def State.routeFrame (s : State) (f : Nat) (x : JFrame) (port : Nat) : State :=
  let h := x.hdr
  if h.tc = 6 ∨ h.hops = 8 ∧ h.dpkg.toNat ≠ s.pkg then s.frDrop f 16
  else
    match s.bankOf f h.epoch.toNat with
    | none => ((s.frDrop f 48).frCode f Code.FAB_EPOCH).raise0 (fdDie f) uRouter f Code.FAB_EPOCH 0
    | some b =>
      let y : JFrame := { x with hdr := { h with hops := h.hops + 1 } }
      if h.dpkg.toNat = s.pkg then s.toInbox (homeFd f h) y port
      else
        match s.toPort f y (s.rtEntry f b h.dpkg.toNat) with
        | some s => s
        | none => if isReq h.op then s.noRoute f h else s

/-- The fabric key of a tenant (R547, R662). -/
def State.fabricKey (s : State) (t : BitVec 12) : Option (List Byte) :=
  (s.sec.fabric.find? (fun x => x.1 == t)).map (·.2)

/-- Whether frames of a tenant to a package cross a switch and are sealed (R547). -/
def State.beyond (s : State) (f pkg : Nat) (tenant : BitVec 12) : Bool :=
  tenant != 0 && pkg != s.pkg && !bit (s.curEntry f pkg) 62

/-- The nonce of a seal (R548). -/
def sealNonce (spkg ctr : Nat) : List Byte := leBytes 4 spkg ++ leBytes 8 ctr

/-- The most data that one frame to a package carries (R507, R548). -/
def State.maxData (s : State) (f pkg : Nat) (tenant : BitVec 12) : Nat := if s.beyond f pkg tenant then 488 else 512

/-- A header sealed over n bytes of data: `LEN` counts the seal too (R548), but stays the size to read where it is one
(log 17). -/
def sealHdr (h : JHdr) (n : Nat) : JHdr :=
  { h with sealed := true, len := if isReadOp h.op then h.len else BitVec.ofNat 10 (n + 24) }

/-- Send a frame through router f with the current epoch, sealed if it must be; false where it has to be sealed and no
key is held for its tenant (R521, R547). -/
def State.sendVia (s : State) (f : Nat) (h : JHdr) (data : List Byte) : State × Bool :=
  let h : JHdr := { h with epoch := BitVec.ofNat 2 (s.curEpoch f), hops := 0 }
  if s.beyond f h.dpkg.toNat h.tenant then
    match s.fabricKey h.tenant with
    | none => (s, false)
    | some key =>
      let ctr := s.sec.sealCtr
      let s := { s with sec := { s.sec with sealCtr := ctr + 1 } }
      let h := sealHdr h data.length
      (s.routeFrame f (mkFrame h (leBytes 8 ctr ++ gcmSeal key (sealNonce h.spkg.toNat ctr) (hdrBytes h) data)) 36, true)
  else (s.routeFrame f (mkFrame h data) 36, true)

/-- Answer a request from router f. An answer that cannot be sealed is not sent, and the source times out (R549,
log 17). -/
def State.answerReq (s : State) (f : Nat) (h : JHdr) (op : Byte) (code : BitVec 16) (data : List Byte) : State :=
  (s.sendVia f (respHdr h s.pkg op code data.length) data).1

/-! ## Requests that this package sends (R511 to R515, R532, R543) -/

/-- The key of an outgoing TC0 request (R532). -/
def State.outKey (s : State) (tenant : BitVec 12) (pkg a : Nat) : BitVec 16 :=
  ((upTo 256).foldl (fun acc i =>
    match acc with
    | some k => some k
    | none =>
      match s.outKeys.find i with
      | some e =>
        if e.tenant = tenant ∧ e.first ≤ pkg ∧ pkg ≤ e.last ∧ e.lo.toNat ≤ a ∧ a ≤ e.hi.toNat then some e.key else none
      | none => none) (none : Option (BitVec 16))).getD 0

/-- The next value of the `SEQ` counter that no outstanding request holds (R513). -/
def nextSeq (used : List Nat) : Nat → Nat → Nat
  | 0, c => c
  | fuel + 1, c => if used.contains c then nextSeq used fuel ((c + 1) % 2 ^ 24) else c

/-- Whether a new tracked request to a package has to be held back (R543). -/
def State.trackHold (s : State) (pkg : Nat) : Bool :=
  let l := s.tracked.filter (fun t => t.dpkg == pkg)
  decide (64 ≤ l.length) || decide (8 ≤ (l.filter (fun t => t.release.isNone)).length)

/-- Whether a request has to be held back at its source: by R543, or by the budget of a pass on its way to the router
(R733). -/
def State.mustHold (s : State) (r : OutReq) : Bool :=
  (hdrTracked r.frame.hdr && r.frame.hdr.dpkg.toNat != s.pkg && s.trackHold r.frame.hdr.dpkg.toNat)
    || !s.passesOk r.die (fdDie (fdOf r.die)) r.frame.hdr.act.toNat

/-- A request is answered or has failed: it is no longer outstanding, and a tracked one stops counting later (R543). -/
def State.closeReq (s : State) (r : OutReq) (failed : Bool) : State :=
  let rel : Word := if failed then r.firstAt + 800000 else s.now r.die + 400000
  { s with
    reqs := s.reqs.filter (fun x => x.seq != r.seq)
    tracked := s.tracked.map (fun t => if t.seq = r.seq ∧ t.release = none then { t with release := some rel } else t) }

/-- A request fails for good (R514). -/
def State.failReq (s : State) (r : OutReq) (code : BitVec 16) : State := (s.closeReq r true).finish r.owner code []

/-- Send or re-send a request (R514, R521); one that cannot be sealed fails (R547). -/
def State.emitReq (s : State) (r : OutReq) : State :=
  let f := fdOf r.die
  let h := r.frame.hdr
  let s := s.chargePasses r.die (fdDie f) h.act.toNat r.frame.payload.length
  match s.sendVia f h r.frame.payload with
  | (s, true) => s
  | (s, false) => s.failReq r Code.FAB_SEAL

/-- The first send of a request (R514, R543). -/
def State.firstSend (s : State) (r : OutReq) : State :=
  let t := s.now r.die
  let r : OutReq := { r with held := false, sentAt := t, firstAt := t }
  let h := r.frame.hdr
  let s : State := { s with
    reqs := s.reqs.map (fun x => if x.seq = r.seq then r else x)
    tracked := if hdrTracked h then s.tracked ++ [⟨h.dpkg.toNat, r.seq, none⟩] else s.tracked }
  s.emitReq r

/-- Send every held request that may now start, in order. -/
def State.releaseHeld (s : State) : State :=
  (s.reqs.filter (·.held)).foldl (fun s r => if s.mustHold r then s else s.firstSend r) s

/-- A new request from a die: it takes the next `SEQ` and is sent, or held back (R513, R543). -/
def State.sendReq (s : State) (die : Nat) (h : JHdr) (data : List Byte) (o : Owner) : State :=
  let seq := nextSeq (s.reqs.map (·.seq)) (s.reqs.length + 1) s.seqCtr
  let h : JHdr := { h with spkg := BitVec.ofNat 14 s.pkg, seq := BitVec.ofNat 24 seq }
  let r : OutReq := ⟨seq, die, ⟨h, data, 0⟩, o, 0, 0, 0, none, true⟩
  let s := { s with seqCtr := (seq + 1) % 2 ^ 24, reqs := s.reqs ++ [r] }
  if s.mustHold r || s.reqs.any (fun x => x.held && x.frame.hdr.dpkg == h.dpkg && x.seq != seq) then s
  else s.firstSend r

/-- The header of a TC0 request to a full address (R507, R532). -/
def State.userHdr (s : State) (op : Byte) (addr : Word) (len : Nat) (tenant : BitVec 12) (arg : Word) : JHdr :=
  { hdr0 with
    dpkg := BitVec.ofNat 14 (addrPkg addr)
    daddr := BitVec.ofNat 50 (addrLocal addr)
    op := op
    len := BitVec.ofNat 10 len
    key := s.outKey tenant (addrPkg addr) (addrLocal addr)
    tenant := tenant
    arg := arg }

/-! ## Lines of the twin (R536) -/

/-- The header of a coherence message, under the tag of the job (R531, R536, R537). -/
def State.lineHdr (s : State) (op : Byte) (a len : Nat) (arg : Word) : JHdr :=
  { hdr0 with
    dpkg := BitVec.ofNat 14 s.twin
    daddr := BitVec.ofNat 50 a
    op := op
    len := BitVec.ofNat 10 len
    tc := 5
    tenant := s.workTag
    arg := arg }

/-- Send the messages for lines that accesses have asked back from the twin (R536): `CINV` to a sharer, `CFWD` to the
holder of an exclusive line. -/
def State.sendRecalls (s : State) : State :=
  let l := s.recalls
  let s := { s with recalls := [] }
  l.foldl (fun s (a, excl) =>
    if s.reqs.any (fun r => match r.owner with | .recall x _ => x.toNat == a | _ => false) then s
    else
      match s.dir.get .none a with
      | .none => s
      | .shared => s.sendReq (s.part.dieOfStack (s.mapAddr a).1) (s.lineHdr opCINV a 0 0) [] (.recall (wd a) true)
      | .exclusive =>
        s.sendReq (s.part.dieOfStack (s.mapAddr a).1) (s.lineHdr opCFWD a 0 (wd (b2n excl))) [] (.recall (wd a) excl)) s

end Sys2Proof.Machine
end

