-- ==== Sys2Proof/Machine/MoverOps.lean ====
section
/-! DEFINITION. The data mover (R256 to R263, R815): its instruction fields, the ranges of an instruction, its checks, the
conversion of tiles, and what the outcome of a remote access does. -/

namespace Sys2Proof.Machine

/-! ## Fields (R256) -/

abbrev xQ (w : Word) : Nat := fld w 36 5
abbrev xFmt (w : Word) : Nat := fld w 32 4
abbrev xRows (w : Word) : Nat := fld w 24 8 + 1
abbrev xCols (w : Word) : Nat := fld w 16 8 + 1
abbrev xFo (w : Word) : Nat := fld w 12 4

/-- The reserved bits of a data-mover instruction. -/
def xReserved (op : Nat) : Nat :=
  if op = 0x60 then mask 45 41 + mask 11 0
  else if op = 0x61 then mask 45 41 + mask 35 16 + mask 11 0
  else mask 40 0

/-- An address inside this package (R26). -/
def State.isLocal (s : State) (a : Word) : Bool := addrPkg a == s.pkg

/-! ## Ranges (R257 to R260) -/

/-- The rows of a transfer of tiles: addresses from the base with a signed stride, and bytes of a row. -/
def rowRanges (base stride : Word) (rows len : Nat) : List (Word × Nat) :=
  (upTo rows).map (fun r => (base + wd r * stride, len))

/-- A local range that the data mover may use: HBM, fonts, or one instruction memory (R259). -/
def State.moverRange (s : State) (a : Word) (len : Nat) : Bool :=
  !s.isLocal a ||
    (match s.rangeIn (addrLocal a) len with
     | .hbm _ => true
     | .font _ _ => true
     | .imem _ _ => true
     | _ => false)

/-- A target in an instruction memory of a cluster that runs or has a launch pending is not accepted (R259). -/
def State.moverTarget (s : State) (a : Word) (len : Nat) : Bool :=
  s.moverRange a len &&
    (!s.isLocal a ||
      (match s.rangeIn (addrLocal a) len with
       | .imem n _ => (s.cl n).st != .running && !(s.cl n).pendingLl
       | _ => true))

/-- Two ranges share a byte. -/
def touch (x y : Word × Nat) : Bool :=
  decide (x.1.toNat < y.1.toNat + y.2 ∧ y.1.toNat < x.1.toNat + x.2)

/-- Bytes of the font of cluster n, as a range of full addresses. -/
def State.fontRange (s : State) (n a len : Nat) : Word × Nat := (mkAddr s.pkg (fontKey n a), len)

/-- The font offset of the slot of a `DLOAD` of queue q before whom `before` other loads of that queue are in progress (R238, R239). -/
def Queue.slotAfter (q : Queue) (before : Nat) : Nat := q.base + (q.next + before) % q.depth * q.slot

/-- How many loads of queue i are in progress that are older than number `id`. -/
def Cluster.loadsBefore (c : Cluster) (i id : Nat) : Nat :=
  (c.dm.filter (fun x => x.id < id && opOf x.ins.word == 0x60 && xQ x.ins.word == i)).length

/-- The slot that a `DLOAD` numbered `id` writes, as a range of full addresses. -/
def State.slotRange (s : State) (n id : Nat) (w : Word) : Word × Nat :=
  s.fontRange n (((s.cl n).q (xQ w)).slotAfter ((s.cl n).loadsBefore (xQ w) id)) (tileBytes (xFo w) (xRows w) (xCols w))

/-- The memory that an instruction in progress still reads and writes, as ranges of full addresses (R262): a `DSTORE` has read its
tile as it started. -/
def State.dmRanges (s : State) (n : Nat) (o : DmOp) : List (Word × Nat) × List (Word × Nat) :=
  let w := o.ins.word
  let a := nth o.ins.ops 0 0
  let b := nth o.ins.ops 0 1
  match opOf w with
  | 0x60 => (rowRanges a b (xRows w) (rowBytes (xFmt w) (xCols w)), [s.slotRange n o.id w])
  | 0x61 => ([], o.rows.map (fun r => (r.1, r.2.length)))
  | _ => ([(a, (nth o.ins.ops 0 2).toNat)], [(b, (nth o.ins.ops 0 2).toNat)])

/-- Whether new reads and writes have to wait for an instruction in progress (R262). -/
def State.moverWaits (s : State) (n : Nat) (reads writes : List (Word × Nat)) : Bool :=
  (s.cl n).dm.any (fun o =>
    let r := s.dmRanges n o
    reads.any (fun x => r.2.any (touch x)) || writes.any (fun x => r.1.any (touch x) || r.2.any (touch x)))

/-- The legal pieces of a remote range, of at most `most` bytes each (R510): powers of two up to an 8-byte boundary, then
multiples of 8 within 4 KiB. -/
def legalPieces (most : Nat) : Nat → Nat → Nat → List (Nat × Nat)
  | 0, _, _ => []
  | fuel + 1, a, len =>
    if len = 0 then []
    else
      let n :=
        if a % 8 = 0 ∧ 8 ≤ len then min (min (most / 8 * 8) (len / 8 * 8)) (4096 - a % 4096)
        else if a % 4 = 0 ∧ 4 ≤ len then 4
        else if a % 2 = 0 ∧ 2 ≤ len then 2
        else 1
      (a, n) :: legalPieces most fuel (a + n) (len - n)

/-- The pieces of a remote range. -/
def remotePieces (most a len : Nat) : List (Nat × Nat) := legalPieces most (len / 8 + len / (most / 8 * 8) + 16) a len

/-! ## Checks (R260, R815) -/

/-- Formats that the data mover cannot convert: an accumulator code on one side only (R260). -/
def formatPairBad (a b : Nat) : Bool := (decide (14 ≤ a) || decide (14 ≤ b)) && a != b

/-- A row that is not a whole number of bytes (R260). -/
def ragged (f cols : Nat) : Bool := cols * fmtBits f % 8 != 0

/-- A row address that is not aligned to the memory element (R260). -/
def misaligned (f : Nat) (l : List (Word × Nat)) : Bool :=
  l.any (fun x => x.1.toNat % (max 1 (fmtBits f / 8)) != 0)

/-- The checks of a `DLOAD` (R815). -/
def State.dloadCheck (s : State) (n : Nat) (i : Issued) : Option (BitVec 16) :=
  let w := i.word
  let rows := rowRanges (nth i.ops 0 0) (nth i.ops 0 1) (xRows w) (rowBytes (xFmt w) (xCols w))
  firstCode
    [(w.toNat &&& xReserved 0x60 != 0, Code.CL_DM_OPERAND),
     (formatPairBad (xFmt w) (xFo w) || ragged (xFmt w) (xCols w) || ragged (xFo w) (xCols w) || misaligned (xFmt w) rows,
       Code.CL_DM_FORMAT),
     (!rows.all (fun r => s.moverRange r.1 r.2), Code.CL_DM_RANGE),
     (((s.cl n).q (xQ w)).slot < tileBytes (xFo w) (xRows w) (xCols w), Code.CL_SLOT)]

/-- The checks of a `DSTORE` on the tile at the head of its queue (R815). -/
def State.dstoreCheck (s : State) (i : Issued) (d : Word) : Option (BitVec 16) :=
  let w := i.word
  let rows := rowRanges (nth i.ops 0 0) (nth i.ops 0 1) (dRows d) (rowBytes (xFo w) (dCols d))
  firstCode
    [(formatPairBad (dFmt d) (xFo w) || ragged (dFmt d) (dCols d) || ragged (xFo w) (dCols d) || misaligned (xFo w) rows,
       Code.CL_DM_FORMAT),
     (!rows.all (fun r => s.moverTarget r.1 r.2), Code.CL_DM_RANGE)]

/-- The checks of a `DCOPY` (R259, R815). -/
def State.dcopyCheck (s : State) (i : Issued) : Option (BitVec 16) :=
  let a := nth i.ops 0 0
  let b := nth i.ops 0 1
  let k := (nth i.ops 0 2).toNat
  firstCode
    [(i.word.toNat &&& xReserved 0x62 != 0, Code.CL_DM_OPERAND),
     (a.toNat % 8 != 0 || b.toNat % 8 != 0 || k % 8 != 0 || decide (2 ^ 32 < k) || touch (a, k) (b, k)
       || !s.moverRange a k || !s.moverTarget b k, Code.CL_DM_RANGE)]

/-! ## Conversion (R257, R258, R260) -/

/-- An element's code from one format into another (R70 to R79, R257; log 30): the code, clipped, NaN replaced, bad TER
code. Accumulator codes move unchanged. -/
def moveElem (f fo c : Nat) : Conv × Bool :=
  if 14 ≤ f then (⟨c, false, false⟩, false)
  else
    let (v, bad) := elemVal f c
    (convert f fo v, bad)

/-- Rows of codes converted: the new rows, and the counts. -/
def moveTile (f fo : Nat) (rows : List (List Nat)) : List (List Nat) × Counts :=
  let r := rows.map (fun l => l.map (moveElem f fo))
  let all := r.flatten
  (r.map (fun l => l.map (·.1.code)),
    ⟨(all.filter (·.1.clip)).length, (all.filter (·.1.nan)).length, (all.filter (·.2)).length, 0, 0⟩)

/-! ## Remote accesses -/

/-- Send `READ` requests for the remote pieces of a range on behalf of instruction `id` (R526, log 31); the state and how
many there are. -/
def State.moverReads (s : State) (n id : Nat) (l : List (Word × Nat)) : State × Nat :=
  let d := s.part.dieOfCl n
  l.foldl (fun acc r =>
    if s.isLocal r.1 then acc
    else
      (remotePieces (s.maxData (fdOf d) (addrPkg r.1) s.workTag) (addrLocal r.1) r.2).foldl (fun acc p =>
        let a := mkAddr (addrPkg r.1) p.1
        (acc.1.sendReq d (acc.1.userHdr opREAD a p.2 s.workTag 0) [] (.dm n id a 0), acc.2 + 1)) acc) (s, 0)

/-- Send `WRITE` requests for remote rows; the state and how many there are. -/
def State.moverWrites (s : State) (n id : Nat) (l : List (Word × List Byte)) : State × Nat :=
  let d := s.part.dieOfCl n
  l.foldl (fun acc r =>
    if s.isLocal r.1 then acc
    else
      (remotePieces (s.maxData (fdOf d) (addrPkg r.1) s.workTag) (addrLocal r.1) r.2.length).foldl (fun acc p =>
        let a := mkAddr (addrPkg r.1) p.1
        let data := (r.2.drop (p.1 - addrLocal r.1)).take p.2
        (acc.1.sendReq d (acc.1.userHdr opWRITE a p.2 s.workTag 0) data (.dm n id a p.2), acc.2 + 1)) acc) (s, 0)

/-- How the data mover of cluster n reaches local memory (class 0, activity USER). -/
def State.moverReq (s : State) (n : Nat) : Req := ⟨0, 0, s.workTag, false, s.part.dieOfCl n⟩

/-- The bytes of a remote range from the pieces that have arrived. -/
def gather (got : List (Word × List Byte)) (a : Word) (len : Nat) : List Byte :=
  got.foldl (fun acc p =>
    if a.toNat ≤ p.1.toNat ∧ p.1.toNat + p.2.length ≤ a.toNat + len then patch acc (p.1.toNat - a.toNat) p.2 else acc)
    (zeros len)

/-- Read ranges: remote ones from what has arrived, local ones as a stream, of which `loc` has come. The answer holds what has come
now, the outcome, and the bytes of each range. -/
def State.moverGather (s : State) (n : Nat) (got : List (Word × List Byte)) :
    List (Word × Nat) → List (Word × List Byte) → List (List Byte) → State × List (Word × List Byte) × MemRes × List (List Byte)
  | [], loc, acc => (s, loc, .done [], acc)
  | (a, len) :: r, loc, acc =>
    if s.isLocal a then
      match s.fetch (s.moverReq n) loc (addrLocal a) len with
      | (s', loc, .done d) => State.moverGather s' n got r loc (acc ++ [d])
      | (s', loc, x) => (s', loc, x, acc)
    else State.moverGather s n got r loc (acc ++ [gather got a len])

/-- Change an instruction in progress. -/
def State.modDm (s : State) (n id : Nat) (f : DmOp → DmOp) : State :=
  s.modCl n (fun c => { c with dm := c.dm.map (fun o => if o.id = id then f o else o) })

/-- An instruction in progress, by its number. -/
def Cluster.dmOp (c : Cluster) (id : Nat) : Option DmOp := c.dm.find? (fun o => o.id == id)

/-- Remove an instruction in progress; a `DLOAD` gives its reservation back (R239). -/
def State.dropDm (s : State) (n : Nat) (o : DmOp) : State :=
  s.modCl n (fun c =>
    let c := { c with dm := c.dm.filter (fun x => x.id != o.id), wdog := 0 }
    if opOf o.ins.word = 0x60 then
      let q := c.q (xQ o.ins.word)
      c.setQ (xQ o.ins.word) { q with reserved := q.reserved - 1 }
    else c)

/-- An access of an instruction in progress has failed (R261): the code goes to `DM_STATUS` and the instruction is
refused. -/
def State.moverFail (s : State) (n : Nat) (o : DmOp) (remote : Bool) (code : BitVec 16) : State :=
  let s := s.setRfld (clReg n 0x6000) (if remote then 48 else 32) 16 code.toNat
  (s.dropDm n o).refuse n 4 o.ins.pc (if remote then Code.CL_DM_REMOTE else Code.CL_DM_MEM_FAULT)

/-- Bytes that an instruction has written (R284). -/
def State.moverCount (s : State) (n k : Nat) : State := s.bump (clReg n 0x6008) 0 48 k

/-- The outcome of a remote access or of a held write of instruction `id` (R261), of `len` bytes where it writes. -/
def State.moverDone (s : State) (n id : Nat) (a : Word) (len : Nat) (code : BitVec 16) (data : List Byte) : State :=
  match (s.cl n).dmOp id with
  | none => s
  | some o =>
    if code ≠ 0 then s.moverFail n o (!s.isLocal a) code
    else
      (s.moverCount n len).modDm n id (fun o =>
        { o with rem := o.rem - 1, got := if data.isEmpty then o.got else o.got ++ [(a, data)] })

end Sys2Proof.Machine
end

