-- ==== Sys2Proof/Machine/HostBase.lean ====
section
/-! DEFINITION. The sending side of the host ports (R687, R689, R693, R704, R705): datagrams, messages that wait for their
acknowledgement, responses and events, and the end of a session. -/

namespace Sys2Proof.Machine

/-- `HE_STATUS.LINK` of port f is up (R713). -/
def State.hostUp (s : State) (f : Nat) : Bool := s.rfld (regAt .he f 0) 0 2 == 2

/-- A received pause holds back the priority of port f (R684, R713). -/
def State.hostPaused (s : State) (f : Nat) : Bool := (s.he f).paused.contains (s.rfld (regAt .he f 0x08) 29 3)

/-- Put a message on the wire of host port f: held back while its priority is paused (R684), and lost while the link is not
up. -/
def State.hostSend (s : State) (f : Nat) (m : HostOut) : State :=
  let h := s.he f
  if s.hostPaused f then s.setHe f { h with stalled := h.stalled ++ [m] }
  else if s.hostUp f then s.setHe f { h with out := h.out ++ [m] }
  else s

/-- Session `id` of port f. -/
def State.session (s : State) (f id : Nat) : Option Session := (s.he f).sessions.find? (fun x => x.id == id)

/-- Change session `id` of port f. -/
def State.modSess (s : State) (f id : Nat) (g : Session → Session) : State :=
  let h := s.he f
  s.setHe f { h with sessions := h.sessions.map (fun x => if x.id = id then g x else x) }

/-- `HE_STATUS.LAST_CODE` of port f (R713). -/
def State.heCode (s : State) (f : Nat) (c : BitVec 16) : State := s.setRfld (regAt .he f 0) 32 16 c.toNat

/-- A session closes (R698). -/
def State.closeSess (s : State) (f id : Nat) : State :=
  let h := s.he f
  s.setHe f { h with sessions := h.sessions.filter (fun x => x.id != id) }

/-- A session is lost (R687, R689): it closes, and an error record is written. -/
def State.loseSess (s : State) (f id : Nat) : State :=
  ((s.closeSess f id).heCode f Code.HE_SESSION_LOST).raise0 (6 + f) uHost f Code.HE_SESSION_LOST 6

/-- Send a datagram of a session under the next value of its counter (R687): `seq` is the message's number, 0 for an
`ACK`. -/
def State.bwEmit (s : State) (f id seq : Nat) (m : HostOut) : State :=
  match s.session f id with
  | none => s
  | some x =>
    if 0xFFFFFFFF ≤ x.txCtr then s.loseSess f id
    else (s.modSess f id (fun x => { x with txCtr := x.txCtr + 1, ackDue := none })).hostSend f (.gram id seq x.rxSeq (x.txCtr + 1) m)

/-- Send what waits while fewer than 256 messages are unacknowledged (R689): responses first, then events. -/
def State.pumpN (f id : Nat) : Nat → State → State
  | 0, s => s
  | fuel + 1, s =>
    match s.session f id with
    | none => s
    | some x =>
      if 256 ≤ x.unack.length then s
      else
        let next : Option (HostOut × Session) := match x.resps, x.events with
          | m :: r, _ => some (m, { x with resps := r })
          | [], m :: r => some (m, { x with events := r })
          | [], [] => none
        match next with
        | none => s
        | some (m, y) =>
          let seq := x.txSeq + 1
          let y : Session := { y with
            txSeq := seq, unack := x.unack ++ [(seq, s.now (6 + f), m)] }
          State.pumpN f id fuel ((s.modSess f id (fun _ => y)).bwEmit f id seq m)

/-- Send what waits in a session. -/
def State.pump (s : State) (f id : Nat) : State := State.pumpN f id 257 s

/-- Queue an event for a session, or count it when 1,024 wait (R705); dropped when the session has closed. -/
def State.eventTo (s : State) (f sess kind : Nat) (payload : List Byte) : State :=
  (s.modSess f sess (fun x =>
    if x.events.length < 1024 then { x with events := x.events ++ [.event sess kind x.lost payload], lost := 0 }
    else { x with lost := x.lost + 1 })).pump f sess

/-- Queue an event for every operator session of both ports (R704). -/
def State.eventOps (s : State) (kind : Nat) (payload : List Byte) : State :=
  [0, 1].foldl (fun s f =>
    ((s.he f).sessions.filter (fun x => x.role == .operator)).foldl (fun s x => s.eventTo f x.id kind payload) s) s

/-- The most data of one message (R688). -/
def State.bwMax (s : State) (f : Nat) : Nat := if s.rfld (regAt .he f 0x08) 0 1 = 1 then 8192 else 1024

/-- The messages of a response: its data in pieces, all but the last with `MORE` (R693). -/
def respPieces (sess req : Nat) (code : BitVec 16) : List (List Byte) → List HostOut
  | [] => [.resp sess req code false []]
  | [d] => [.resp sess req code false d]
  | d :: r => .resp sess req code true d :: respPieces sess req code r

/-- The response to request `req` of a session (R690, R692, R693). -/
def State.bwResp (s : State) (f sess req : Nat) (code : BitVec 16) (data : List Byte) : State :=
  (s.modSess f sess (fun x =>
    { x with resps := x.resps ++ respPieces sess req code (chunks (s.bwMax f) data) })).pump f sess

end Sys2Proof.Machine
end

