-- ==== Sys2Proof/Machine/TimeOps.lean ====
section
/-! DEFINITION. Node time (R557 to R565) and the lamplighters (R566 to R571): joining, slewing, locks, entries and their
refusal, cancellation and lapse. -/

namespace Sys2Proof.Machine

/-! ## Rates -/

/-- The nominal increment of a time base, 2.5 ticks (R558). -/
def rateNominal : Nat := 0x280000000

/-- `TM_RATE` of a die: the increment of its time base per UCLK cycle, 32.32 (R558). -/
def State.rate (s : State) (d : Nat) : Nat := s.tm.rates.get rateNominal d

/-- A quotient whose rounding no rule gives: exact where it divides, else rounded either way (log 21). -/
def divOpen (a b : Int) : Int := if a % b = 0 then a / b else if Config.roundUp a b then a / b + 1 else a / b

/-- An increment within 100 ppm of the nominal one (R561): 100 ppm of 0x280000000 is 1,073,741.824. -/
def clampRate (r : Int) : Nat :=
  (max ((rateNominal : Int) - 1073741) (min ((rateNominal : Int) + 1073741) r)).toNat

/-- Change the time keeping. -/
def State.setTm (s : State) (t : TimeUnit) : State := { s with tm := t }

/-- Die d is locked. -/
def State.locked (s : State) (d : Nat) : Bool := s.tm.locks.contains d

/-- Lock or unlock die d. -/
def State.setLock (s : State) (d : Nat) (b : Bool) : State :=
  s.setTm { s.tm with
    locks := if b then (if s.tm.locks.contains d then s.tm.locks else s.tm.locks ++ [d]) else s.tm.locks.filter (· != d)
    good := if b then s.tm.good else s.tm.good.set d 0 }

/-! ## Lamplighters (R566 to R571) -/

/-- A register of the lamplighter of die d. -/
abbrev llReg (d o : Nat) : Nat := regAt .ll d o

/-- Change the entries of the lamplighter of die d. -/
def State.setEntries (s : State) (d : Nat) (l : List LlEntry) : State := s.setLamp d ⟨l⟩

/-- The first refusal of a request for an entry, if any (R567). -/
def State.llRefusal (s : State) (d : Nat) (t : Word) : Option (BitVec 16) :=
  if !s.locked d then some Code.TM_NOT_LOCKED
  else if t.toNat < (s.now d).toNat + 8000 then some Code.TM_LATE_LAUNCH
  else if 64 ≤ (s.lamp d).entries.length then some Code.TM_LL_FULL
  else none

/-- A request for an entry (R567): the entry, or the refusal, counted and shown (R592). -/
def State.llRequest (s : State) (d : Nat) (e : LlEntry) : State × Option (BitVec 16) :=
  match s.llRefusal d e.t with
  | some c => ((s.setRfld (llReg d 0) 32 16 c.toNat).bump (llReg d 0x18) 0 48 1, some c)
  | none => (s.setEntries d ((s.lamp d).entries ++ [e]), none)

/-- The dispatcher's commit of a reservation (R567). -/
def State.llCommit (s : State) (d : Nat) (cr : Creator) : State :=
  s.setEntries d ((s.lamp d).entries.map (fun e => if e.creator = cr then { e with armed := true } else e))

/-- The clusters that an entry names, which it no longer holds (R210). -/
def State.unhold (s : State) (e : LlEntry) : State :=
  match e.target with
  | .clusters ns _ => ns.foldl (fun s n => s.modCl n (fun c => { c with heldBy := none, pendingLl := false })) s
  | _ => s

/-- Free the entries of a creator (R567, R571). -/
def State.llFree (s : State) (d : Nat) (cr : Creator) : State :=
  let gone := (s.lamp d).entries.filter (fun e => e.creator == cr)
  (gone.foldl (fun s e => s.unhold e) s).setEntries d ((s.lamp d).entries.filter (fun e => e.creator != cr))

/-- A cancel (R571): it frees the entry before its fire cycle, and else answers `TM_CANCEL_LATE`. -/
def State.llCancel (s : State) (d : Nat) (cr : Creator) : State × BitVec 16 :=
  if (s.lamp d).entries.any (fun e => e.creator == cr && decide ((s.now d).toNat < e.t.toNat)) then (s.llFree d cr, 0)
  else (s.setRfld (llReg d 0) 32 16 Code.TM_CANCEL_LATE.toNat, Code.TM_CANCEL_LATE)

/-- The end of a command list with a code at an entry (R272). -/
def State.endList (s : State) (pd l : Nat) (code : BitVec 16) : State :=
  let d := s.dsp pd
  s.setDsp pd { d with lists := d.lists.map (fun x => if x.id = l then x.stop code x.idx (s.now (4 + pd)) else x) }

/-- An entry that a forward step has carried past its time is cancelled, and its creator is told (R570): a launch's
targets report the code, a list ends with it; a collective that does not start runs into its timeout (R586). -/
def State.llPassed (s : State) (d : Nat) (e : LlEntry) : State :=
  let s := (s.unhold e).setRfld (llReg d 0) 32 16 Code.TM_LATE_LAUNCH.toNat
  match e.target with
  | .clusters ns _ => ns.foldl (fun s n => s.targetDone e.creator n Code.TM_LATE_LAUNCH) s
  | .list pd l => s.endList pd l Code.TM_LATE_LAUNCH
  | .collective _ => s

/-- A forward step of the time base of die d, with what it does to the entries that it passes (R562, R570). -/
def State.stepTime (s : State) (d : Nat) (ticks : Nat) : State :=
  let b := s.base d + ticks * 2 ^ 32
  let t := b / 2 ^ 32
  let old := (s.now d).toNat
  let passed := fun (e : LlEntry) => decide (old < e.t.toNat ∧ e.t.toNat < t)
  let s : State := { s with time := s.time.set d b }
  let gone := (s.lamp d).entries.filter passed
  let s := s.setEntries d ((s.lamp d).entries.filter (fun e => !passed e))
  gone.foldl (fun s e => s.llPassed d e) s

/-! ## Joining and slewing (R559, R561, R562) -/

/-- A time base loses its lock with a record (R562). -/
def State.unlock (s : State) (d : Nat) : State :=
  let s := s.setLock d false
  let s := if d = 6 ∨ d = 7 then s.setRfld (regAt .tm (d - 6) 0x08) 16 16 Code.TM_UNLOCK.toNat else s
  s.raise0 d uTm (if d = 7 then 1 else 0) Code.TM_UNLOCK 7

/-- Set the rate of die d so that an offset of `num`/`den` ticks vanishes over a number of UCLK cycles (R561). -/
def State.slew (s : State) (d : Nat) (ref : Nat) (num den : Int) (cycles : Nat) : State :=
  s.setTm { s.tm with
    rates := s.tm.rates.set d (clampRate ((ref : Int) + divOpen (num * 2 ^ 32) (den * cycles)))
    holds := s.tm.holds.filter (· != d) }

/-- One comparison of die d, with twice the offset in ticks, against a reference that runs at rate `ref` (R561, R562): a
lock is lost beyond 4,000 ticks; an unlocked base steps forward, holds still or slews, and locks after 8 good
comparisons in a row. -/
def State.applyTheta (s : State) (d ref : Nat) (theta2 : Int) (cycles : Nat) : State :=
  let big := decide (8000 < theta2.natAbs)
  let s := if s.locked d && big then s.unlock d else s
  let s :=
    if s.locked d then s.slew d ref theta2 2 cycles
    else if 8000 < theta2 then
      (s.setTm { s.tm with holds := s.tm.holds.filter (· != d) }).stepTime d (divOpen theta2 2).toNat
    else if theta2 < -8000 ∨ (s.tm.holds.contains d ∧ theta2 < 0) then
      s.setTm { s.tm with holds := if s.tm.holds.contains d then s.tm.holds else s.tm.holds ++ [d] }
    else s.slew d ref theta2 2 cycles
  let g := if theta2.natAbs ≤ 4 then s.tm.good.get 0 d + 1 else 0
  let s := s.setTm { s.tm with good := s.tm.good.set d g }
  if 8 ≤ g then s.setLock d true else s

/-- `TM_CTRL` (R593). -/
def State.tmCtrl (s : State) : Word := s.reg (regAt .tm 0 0)
/-- The package is a time root (R560). -/
def State.isRoot (s : State) : Bool := bit s.tmCtrl 8

/-- The port that the follower asks: `PARENT`, or a twin port that is UP while `TM_STATUS.ALT` is set (R560, R564). -/
def State.parentPort (s : State) : Nat :=
  if s.rfld (regAt .tm 0 0x08) 2 1 = 1 then (if s.portUp 0 then 0 else 18) else fld s.tmCtrl 0 6

/-- The parent port of a follower has left UP (R564). -/
def State.parentLost (s : State) (p : Nat) : State :=
  if !s.isRoot && fld s.tmCtrl 0 6 == p && s.rfld (regAt .tm 0 0x08) 2 1 == 0 then
    let yes := Config.twinParent s.free
    let s := { s with free := s.free + 1 }
    if yes && (s.portUp 0 || s.portUp 18) then s.setRfld (regAt .tm 0 0x08) 2 1 1 else s
  else s

/-! ## PTP (R565) -/

/-- A time stamp of the host port: node time with 1 ns resolution (R565). -/
def State.ptpNow (s : State) (f : Nat) : Word := wd ((s.now (fdDie f)).toNat / 4 * 4)

/-- The master of a boundary clock on FD1's host port (R565): a one-step `Sync` every second, an `Announce` before every other one,
over Ethernet. R565 gives no intervals and no transport of its own for it: those of the default profile, and the transport that
needs no address (PRESUMED and DESIGN CHOICE, log 24). -/
def State.ptpMaster (s : State) : State :=
  let due := match s.tm.ptpAt with
    | none => true
    | some t => decide (t.toNat + 4000000000 ≤ (s.now 7).toNat)
  if bit s.tmCtrl 10 && s.hostUp 1 && due then
    let s := if s.tm.ptpSent % 2 = 0 then s.hostSend 1 (.ptp ⟨.ether, .announce⟩) else s
    (s.hostSend 1 (.ptp ⟨.ether, .sync (s.ptpNow 1)⟩)).setTm { s.tm with ptpAt := some (s.now 7), ptpSent := s.tm.ptpSent + 1 }
  else s

/-! ## Registers (R562, R593) -/

/-- A write of `TM_CTRL` (R562, R593): discarded while a job is launched; a change of `ROLE` or `PARENT` clears the lock
without a record, and a root locks at once. -/
def State.writeTmCtrl (s : State) (v : Word) : State :=
  if s.launched then s
  else
    let old := s.tmCtrl
    let new := v &&& wd (mask 10 8 + mask 5 0)
    let s := s.setReg (regAt .tm 0 0) new
    if bit old 8 = bit new 8 ∧ fld old 0 6 = fld new 0 6 then s
    else
      let s := (s.setLock 6 false).setRfld (regAt .tm 0 0x08) 2 1 0
      let s := s.setTm { s.tm with t1 := none, holds := s.tm.holds.filter (· != 6) }
      if bit new 8 then s.setLock 6 true else s

end Sys2Proof.Machine
end

