-- ==== Sys2Proof/Machine/CuOps.lean ====
section
/-! DEFINITION. The collective units (R572 to R591): descriptors and parts, segments and their residues, reduction in the
fixed order, completion and failure. -/

namespace Sys2Proof.Machine

/-! ## Descriptors and parts (R573 to R575) -/

/-- A word of the descriptor by its byte offset. -/
def Group.word (g : Group) (o : Nat) : Word := nth g.cfg 0 (o / 8)
def Group.kind (g : Group) : Nat := fld (g.word 0) 0 4
def Group.redOp (g : Group) : Nat := fld (g.word 0) 4 4
def Group.fmt (g : Group) : Nat := fld (g.word 0) 8 4
def Group.src (g : Group) : Nat := addrLocal (g.word 0x08)
def Group.dst (g : Group) : Nat := addrLocal (g.word 0x10)
def Group.elems (g : Group) : Nat := (g.word 0x18).toNat
def Group.n (g : Group) : Nat := fld (g.word 0x28) 32 14
def Group.m (g : Group) : Nat := fld (g.word 0x28) 0 6
def Group.scratch (g : Group) : Nat := addrLocal (g.word 0x30)
def Group.record (g : Group) : Nat := addrLocal (g.word 0x40)
def Group.stepNo (g : Group) : Word := g.word 0x48
def Group.ident (g : Group) : Nat := fld (g.word 0x50) 0 32
def Group.key (g : Group) : BitVec 16 := BitVec.ofNat 16 (fld (g.word 0x58) 0 16)
def Group.start (g : Group) : Word := g.word 0x60

/-- Bytes of an element of a format of R573. -/
def cuWidth (fmt : Nat) : Nat := if fmt = 0 then 8 else if fmt = 2 then 2 else 4

/-- The chassis group and local index of this member (R574), and the count of chassis groups. -/
def Group.chassis (g : Group) : Nat := g.rank / g.m
def Group.locIdx (g : Group) : Nat := g.rank % g.m
def Group.groups (g : Group) : Nat := g.n / g.m

/-- The first byte and the length in bytes of chunk c (R575). -/
def Group.chunk (g : Group) (c : Nat) : Nat × Nat :=
  let w := cuWidth g.fmt
  let a := c * g.elems / g.m
  (a * w, ((c + 1) * g.elems / g.m - a) * w)

/-- The first byte and the length in bytes of the part that rank r owns (R575). -/
def Group.part (g : Group) (r : Nat) : Nat × Nat :=
  let w := cuWidth g.fmt
  let c := r % g.m
  let k := r / g.m
  let a := c * g.elems / g.m
  let l := (c + 1) * g.elems / g.m - a
  let x := k * l / g.groups
  ((a + x) * w, ((k + 1) * l / g.groups - x) * w)

/-- The bytes of a contribution slot of `SCRATCH`, of which there are M and one ring slot (R575, log 27). -/
def Group.slotBytes (g : Group) : Nat := (g.elems + g.m - 1) / g.m * cuWidth g.fmt

/-- Segments of a run of bytes (R581). -/
def segCount (bytes : Nat) : Nat := (bytes + 463) / 464
/-- The length of segment i of a run of bytes. -/
def segLen (bytes i : Nat) : Nat := min 464 (bytes - 464 * i)

/-- The trailer of R582 of a segment's words. -/
def trailer (data : List Byte) : List Byte :=
  leBytes 16 ((chunks 8 data).foldr (fun w acc => leNat w % 3 + 4 * acc) 0)

/-- A segment's payload: its data in whole words (log 27), then the trailer (R582). -/
def segPayload (data : List Byte) : List Byte :=
  let d := padTo ((data.length + 7) / 8 * 8) data
  d ++ trailer d

/-- A descriptor's words keep to R573 and R575, as far as it can be told before its member list is read: addresses carry the number
of this package (R6). -/
def Group.descOk (s : State) (g : Group) (scratchLen : Nat) : Bool :=
  let w := cuWidth g.fmt
  let reduce := g.kind == 0 || g.kind == 1
  let inHbm := fun (o len : Nat) => addrPkg (g.word o) == s.pkg && decide (addrLocal (g.word o) + len ≤ s.part.hbm)
  decide (g.kind < 4) && decide (g.redOp < 3) && (reduce || g.redOp == 0)
    && (g.fmt == 0 || g.fmt == 1 || g.fmt == 2 || g.fmt == 0xD) && decide ((g.word 0).toNat < 4096)
    && g.src % w == 0 && g.dst % w == 0 && decide (g.elems ≤ 2 ^ 36) && (g.kind != 3 || g.elems == 0)
    && (g.word 0x20).toNat % 8 == 0 && decide (1 ≤ g.n ∧ g.n ≤ 16384 ∧ 1 ≤ g.m ∧ g.m ≤ 32) && g.n % g.m == 0
    && decide ((g.word 0x28).toNat = g.n * 2 ^ 32 + g.m) && g.scratch % 64 == 0 && g.record % 64 == 0
    && (!reduce || decide ((g.m + 1) * g.slotBytes ≤ scratchLen)) && decide (g.word 0x50 ≠ 0 ∧ (g.word 0x50).toNat < 2 ^ 32)
    && decide ((g.word 0x58).toNat < 2 ^ 16) && (g.cfg.drop 13).all (· == 0)
    && inHbm 0x08 (g.elems * w) && inHbm 0x10 (g.elems * w) && inHbm 0x20 (2 * g.n)
    && inHbm 0x30 scratchLen && inHbm 0x40 64 && (g.kind == 0 || g.kind == 3 || g.dst != g.src)

/-- The member list names this package exactly once, and no entry sets bits above [13:0] (R573, R574). -/
def membersOk (pkg : Nat) (l : List Nat) : Bool :=
  l.all (fun x => decide (x < 2 ^ 14)) && (l.filter (· == pkg)).length == 1

/-! ## Element arithmetic (R578, R579) -/

/-- Reduce two elements of a format (R579). -/
def cuCombine (fmt op : Nat) (a b : Nat) : Nat :=
  if fmt = 0xD then
    if op = 0 then (a + b) % 2 ^ 32
    else if (op = 1) = decide (sext a 32 < sext b 32) then b else a
  else
    let t := if fmt = 0 then f64 else if fmt = 1 then f32 else bf16
    let x := t.decode a
    let y := t.decode b
    (t.round .nearestEven (if op = 0 then x.add y else if op = 1 then vmax x y else vmin x y)).1

/-- Reduce two runs of elements, the first being the value so far (R578). -/
def cuReduce (fmt op : Nat) (a b : List Byte) : List Byte :=
  let w := cuWidth fmt
  ((chunks w a).zip (chunks w b)).flatMap (fun p => leBytes w (cuCombine fmt op (leNat p.1) (leNat p.2)))

/-! ## The unit -/

/-- A register of the CU of FD f. -/
abbrev cuReg (f o : Nat) : Nat := regAt .cu f o

/-- The group that CU f holds and that is not FINAL. -/
def State.openGroup (s : State) (f : Nat) : Option Group :=
  match (s.cu f).group with
  | some g => if g.final.isNone then some g else none
  | none => none

/-- CU f holds a group that is not FINAL, or whose record does not yet show it (R576). -/
def State.cuBusy (s : State) (f : Nat) : Bool :=
  match (s.cu f).group with
  | some g => g.final.isNone || !g.recPut.isEmpty || g.heldW != 0
  | none => false

/-- Change the group that CU f holds. -/
def State.modGroup (s : State) (f : Nat) (k : Group → Group) : State :=
  s.setCu f { s.cu f with group := (s.cu f).group.map k }

/-- How a CU reaches HBM: class 8, activity COLLECTIVE, the group's tenant. -/
def Group.req (g : Group) (f : Nat) : Req := ⟨8, 1, g.tenant, false, fdDie f⟩

/-- The rank with the latest arrival, its time, and the earliest time (R589). -/
def slowest (l : List (Nat × Word)) : Option (Nat × Nat × Nat) :=
  l.foldl (fun acc x =>
    match acc with
    | none => some (x.1, x.2.toNat, x.2.toNat)
    | some (r, hi, lo) =>
      let t := x.2.toNat
      if hi < t ∨ (hi = t ∧ x.1 < r) then some (x.1, t, min lo t) else some (r, hi, min lo t)) none

/-- `SLOW_RANK` and `SLOW_LAG`, zero before FINAL (R588, R589). -/
def Group.slow (g : Group) : Nat × Nat :=
  match g.final, slowest g.arrive with
  | some _, some (r, hi, lo) => (r, hi - lo)
  | _, _ => (0, 0)

/-- The record of R588. -/
def Group.recordBytes (g : Group) : List Byte :=
  leBytes 2 g.code.toNat ++ leBytes 1 (b2n g.local_.isSome + 2 * b2n g.final.isSome) ++ zeros 1 ++ leBytes 2 g.origin
    ++ leBytes 2 g.slow.1 ++ leBytes 8 g.stepNo.toNat ++ leBytes 8 (g.local_.getD 0).toNat ++ leBytes 8 (g.final.getD 0).toNat
    ++ leBytes 8 g.slow.2 ++ zeros 24

/-- A record still to be written by CU f is, as far as memory lets it (R588). -/
def State.cuRecordRun (s : State) (f : Nat) : State :=
  match (s.cu f).group with
  | none => s
  | some g =>
    match s.put (g.req f) (fun _ _ => .cuWrite f g.id) g.recPut 0 0 with
    | (s, r) => s.modGroup f (fun g => { g with recPut := r.rest, heldW := g.heldW + r.held })

/-- Write the record: the words behind the first, then word 0 (R588). -/
def State.cuRecord (s : State) (f : Nat) : State :=
  let s := s.modGroup f (fun g =>
    let b := g.recordBytes
    { g with recPut := g.recPut ++ [(wd (g.record + 8), b.drop 8), (wd g.record, b.take 8)] })
  s.cuRecordRun f

/-- Send a frame of the group to a member (R581). -/
def State.cuSend (s : State) (f : Nat) (g : Group) (peer : Nat) (op : Byte) (daddr : Nat) (low : Nat) (data : List Byte) :
    State :=
  s.sendReq (fdDie f) { hdr0 with
    dpkg := BitVec.ofNat 14 (nth g.members 0 peer), daddr := BitVec.ofNat 50 daddr, op := op
    len := BitVec.ofNat 10 data.length, tc := 1, key := g.key, tenant := g.tenant, act := 1
    arg := wd (g.ident * 2 ^ 32 + low) } data (.cu f g.id)

/-- The ranks of the other members. -/
def Group.others (g : Group) : List Nat := (upTo g.n).filter (· != g.rank)

/-- The entry of a group that is FINAL, and whose record shows it, ends with the group's code (R585, R588). -/
def State.cuClose (s : State) (f : Nat) : State :=
  match (s.cu f).group with
  | none => s
  | some g =>
    if g.final.isSome && g.recPut.isEmpty && g.heldW == 0 then
      match g.entry with
      | some cr => (s.modGroup f (fun g => { g with entry := none })).targetDone cr f g.code
      | none => s
    else s

/-- FINAL (R585, R586, R589): the time, the counts and `CU_SLOW`, and the record; the group joins the last four closed (R584), and
an entry of the lamplighter that was to start it is freed. -/
def State.cuFinal (s : State) (f : Nat) (code : BitVec 16) (origin : Nat) (detail : BitVec 16) : State :=
  let s := s.modGroup f (fun g => { g with final := some (s.now (fdDie f)), code := code, origin := origin, todo := [], got := [] })
  match (s.cu f).group with
  | none => s
  | some g =>
    let s := s.setCu f { s.cu f with closed := ((s.cu f).closed ++ [wd g.ident]).drop ((s.cu f).closed.length - 3) }
    let s := s.setLamp (fdDie f) ⟨(s.lamp (fdDie f)).entries.filter (fun e => e.target != .collective f)⟩
    let s := s.setReg (cuReg f 0x10) (wd (g.slow.1 * 2 ^ 50 + min g.slow.2 (2 ^ 40 - 1)))
    let s :=
      if code = 0 then s.bump (cuReg f 0x18) 0 16 1
      else
        let s := s.setRfld (cuReg f 0) 32 16 code.toNat
        let s := if code = Code.CU_TORN then s.bump (cuReg f 0x18) 48 16 1
          else if code = Code.CU_TIMEOUT then s.bump (cuReg f 0x18) 32 16 1 else s
        s.raise { s.rec0 (fdDie f) uCu f code 0 with detail := detail, info := g.stepNo }
    (s.cuRecord f).cuClose f

/-- A member fails the collective (R586): it tells every other member, and is FINAL with the code. -/
def State.cuFail (s : State) (f : Nat) (code detail : BitVec 16) : State :=
  match s.openGroup f with
  | none => s
  | some g =>
    let s := if code = Code.CU_FABRIC then s.setRfld (cuReg f 0) 48 16 detail.toNat else s
    let s := g.others.foldl (fun s r => s.cuSend f g r 0x54 g.record code.toNat (leBytes 8 g.stepNo.toNat)) s
    s.cuFinal f code g.rank detail

/-- FINAL when LOCAL and every other member's `CDONE` has come (R585). -/
def State.cuTryFinal (s : State) (f : Nat) : State :=
  match s.openGroup f with
  | none => s
  | some g => if g.local_.isSome && g.others.all (fun r => g.cdone.contains r) then s.cuFinal f 0 0 0 else s

/-- The segments of output that a member needs (R577). -/
def Group.needs (g : Group) : List (Nat × Nat) :=
  if g.kind = 3 then []
  else
    (if g.kind = 1 then [g.rank] else upTo g.n).flatMap (fun r => (upTo (segCount (g.part r).2)).map (fun i => (r, i)))

/-- LOCAL when all output is written and checked; then `CDONE` goes to every other member (R585, R587). -/
def State.cuTryLocal (s : State) (f : Nat) : State :=
  match s.openGroup f with
  | none => s
  | some g =>
    if g.started && g.local_.isNone && g.heldW == 0 && g.needs.all (fun x => g.out.contains x) then
      let s := s.modGroup f (fun g => { g with local_ := some (s.now (fdDie f)) })
      let s := s.cuRecord f
      let s := g.others.foldl (fun s r => s.cuSend f g r 0x53 g.record 0 []) s
      s.cuTryFinal f
    else s

/-- A job of the group waits for memory. -/
def State.cuLater (s : State) (f : Nat) (j : CuJob) : State := s.modGroup f (fun g => { g with todo := g.todo ++ [j] })

/-- Store pieces of segment i of this member's output; the segment counts as output once all have been taken, and a refusal fails
the group (log 28). -/
def State.cuStore (s : State) (f i : Nat) (l : List (Word × List Byte)) : State :=
  match s.openGroup f with
  | none => s
  | some g =>
    match s.put (g.req f) (fun _ _ => .cuWrite f g.id) l 0 0 with
    | (s, r) =>
      if r.code.isSome then s.cuFail f Code.CU_TORN 0
      else
        let s := s.modGroup f (fun g => { g with
          heldW := g.heldW + r.held
          out := if r.rest.isEmpty then g.out ++ [(g.rank, i)] else g.out })
        if r.rest.isEmpty then s else s.cuLater f (.store i r.rest)

/-- Read bytes for the group: the outcome, what has come of them staying with the group. -/
def State.cuFetch (s : State) (f : Nat) (g : Group) (a len : Nat) : State × MemRes :=
  match s.fetch (g.req f) g.got a len with
  | (s, got, r) => (s.modGroup f (fun g => { g with got := got }), r)

/-- A job goes on with the bytes of a range: it fails the group where memory refuses them (R586), and is put off where it has to
wait. -/
def State.cuWith (s : State) (f : Nat) (j : CuJob) (a len : Nat) (k : State → Group → List Byte → State) : State :=
  match s.openGroup f with
  | none => s
  | some g =>
    match s.cuFetch f g a len with
    | (s, .done d) => k s g d
    | (s, .refused _) => s.cuFail f Code.CU_TORN 0
    | (s, _) => s.cuLater f j

/-- A total segment of this member's part (or its own contribution to an ALLGATHER): written to `DST`, and sent to the
others as `CGATH` unless the kind keeps it here (R577). -/
def State.cuOutput (s : State) (f i : Nat) (data : List Byte) : State :=
  match s.openGroup f with
  | none => s
  | some g =>
    let a := g.dst + (g.part g.rank).1 + 464 * i
    let s := if g.kind = 1 then s else g.others.foldl (fun s r => s.cuSend f g r 0x51 a i (segPayload data)) s
    s.cuStore f i (putPieces [(wd a, data)])

/-- What a value of ring segment i of part k of this chunk does at this member, the value so far being `v` (R578): the
owner of the part has its total; any other member passes it on. -/
def State.cuRingStep (s : State) (f k i : Nat) (v : List Byte) : State :=
  match s.openGroup f with
  | none => s
  | some g =>
    if k = g.chassis then s.cuOutput f i v
    else
      let r := (g.chassis + 1) % g.groups * g.m + g.locIdx
      let p := g.part (k * g.m + g.locIdx)
      let daddr := g.scratch + g.m * g.slotBytes + (p.1 - (g.chunk g.locIdx).1) + 464 * i
      s.cuSend f g r 0x52 daddr i (segPayload v)

/-- The bytes of this member's partial P of segment i of part k of its chunk, from the reduced segments of the chunk. -/
def Group.partial (g : Group) (k i : Nat) : List Byte :=
  let p := g.part (k * g.m + g.locIdx)
  let c := g.chunk g.locIdx
  let all := (upTo (segCount c.2)).flatMap (fun j => g.red.get [] j)
  (all.drop (p.1 - c.1 + 464 * i)).take (segLen p.2 i)

/-- The chunk of this member is reduced over its chassis group. -/
def Group.chunkDone (g : Group) : Bool :=
  (upTo (segCount (g.chunk g.locIdx).2)).all (fun i => (g.red.find i).isSome)

/-- A ring segment received takes this member's partial (R578). -/
def State.cuRingTake (s : State) (f k i : Nat) : State :=
  match s.openGroup f with
  | none => s
  | some g =>
    let p := g.part (k * g.m + g.locIdx)
    let a := g.scratch + g.m * g.slotBytes + (p.1 - (g.chunk g.locIdx).1) + 464 * i
    s.cuWith f (.ring k i) a (segLen p.2 i) (fun s g v => s.cuRingStep f k i (cuReduce g.fmt g.redOp v (g.partial k i)))

/-- The chunk has just been reduced: the member that starts the sum of a part sends it round, and ring segments that came
early take their turn (R578, R580). -/
def State.cuChunk (s : State) (f : Nat) : State :=
  match s.openGroup f with
  | none => s
  | some g =>
    let k0 := (g.chassis + g.groups - 1) % g.groups
    let n0 := segCount (g.part (k0 * g.m + g.locIdx)).2
    let s := (upTo n0).foldl (fun s i => s.cuRingStep f k0 i (g.partial k0 i)) s
    (g.seen.filter (fun x => x.1 == 0x52)).foldl (fun s x => s.cuRingTake f x.2.1 x.2.2) s

/-- The values of segment i of this member's chunk, in the order of their local index, combined as far as they can be read:
the member's own from `SRC`, the others' from `SCRATCH` (R578, R580). -/
def State.cuFold (s : State) (f : Nat) (g : Group) (i : Nat) : List Nat → List Byte → State × MemRes
  | [], v => (s, .done v)
  | j :: r, v =>
    let c := g.chunk g.locIdx
    let a := if j = g.locIdx then g.src + c.1 + 464 * i else g.scratch + j * g.slotBytes + 464 * i
    match s.openGroup f with
    | none => (s, .wait)
    | some h =>
      match s.cuFetch f h a (segLen c.2 i) with
      | (s, .done d) => State.cuFold s f g i r (if j = 0 then d else cuReduce g.fmt g.redOp v d)
      | x => x

/-- Reduce segment i of this member's chunk once every member of its chassis group has contributed (R578, R580). -/
def State.cuReduceSeg (s : State) (f i : Nat) : State :=
  match s.openGroup f with
  | none => s
  | some g =>
    if (g.red.find i).isNone && (upTo g.m).all (fun j => j == g.locIdx || g.seen.contains (0x50, j, i)) then
      match s.cuFold f g i (upTo g.m) [] with
      | (s, .refused _) => s.cuFail f Code.CU_TORN 0
      | (s, .done v) =>
        let s := s.modGroup f (fun g => { g with red := g.red.set i v })
        match s.openGroup f with
        | some g => if g.chunkDone then s.cuChunk f else s
        | none => s
      | (s, _) => if g.todo.contains (.reduce i) then s else s.cuLater f (.reduce i)
    else s

/-- A job of the group is tried (R577, R578, R581). -/
def State.cuJob (s : State) (f : Nat) (j : CuJob) : State :=
  match s.openGroup f with
  | none => s
  | some g =>
    match j with
    | .contrib c i =>
      let k := g.chunk c
      s.cuWith f j (g.src + k.1 + 464 * i) (segLen k.2 i) (fun s g d =>
        s.cuSend f g (g.chassis * g.m + c) 0x50 (g.scratch + g.locIdx * g.slotBytes + 464 * i) i (segPayload d))
    | .own i =>
      let p := g.part g.rank
      s.cuWith f j (g.src + p.1 + 464 * i) (segLen p.2 i) (fun s _ d => s.cuOutput f i d)
    | .reduce i => s.cuReduceSeg f i
    | .ring k i => s.cuRingTake f k i
    | .store i l => s.cuStore f i l

/-- The jobs of CU f that wait are tried in their order, and its record goes on. -/
def State.cuRun (s : State) (f : Nat) : State :=
  match (s.cu f).group with
  | none => s
  | some g =>
    let s := s.modGroup f (fun g => { g with todo := [] })
    (((g.todo.foldl (fun s j => s.cuJob f j) s).cuTryLocal f).cuRecordRun f).cuClose f

/-- The segments of this member's contribution to the owners of its chassis group: every one of every other chunk (R578, R581). -/
def Group.contribs (g : Group) : List CuJob :=
  ((upTo g.m).filter (· != g.locIdx)).flatMap (fun c => (upTo (segCount (g.chunk c).2)).map (fun i => .contrib c i))

/-- The group of CU f begins (R569, R576, R577). -/
def State.cuBegin (s : State) (f : Nat) : State :=
  match s.openGroup f with
  | none => s
  | some g =>
    if g.started then s
    else
      let n := segCount (g.chunk g.locIdx).2
      let s := s.modGroup f (fun g => { g with
        started := true
        todo :=
          if g.kind = 0 ∨ g.kind = 1 then g.contribs ++ (upTo n).map (fun i => .reduce i)
          else if g.kind = 2 then (upTo (segCount (g.part g.rank).2)).map (fun i => .own i)
          else [] })
      (if (g.kind = 0 ∨ g.kind = 1) ∧ n = 0 then s.cuChunk f else s).cuRun f

/-! ## Frames (R581 to R586) -/

/-- The CU that a group identifier's open group stands in. -/
def State.cuOf (s : State) (ident : Nat) : Option Nat :=
  [0, 1].find? (fun f => match s.openGroup f with | some g => g.ident == ident | none => false)

/-- One of the last four groups closed by either CU (R584). -/
def State.cuClosed (s : State) (ident : Nat) : Bool := [0, 1].any (fun f => (s.cu f).closed.contains (wd ident))

/-- A segment that fails its residue check (R583, R586). -/
def State.cuTorn (s : State) (f : Nat) : State :=
  let s := s.bump (cuReg f 0x18) 16 16 1
  let s := s.raiseWarn 5 f { s.rec0 (fdDie f) uCu f Code.CU_TORN 0 with array := 14 }
  s.cuFail f Code.CU_TORN 0

/-- The rank of a package in the group. -/
def Group.rankOf (g : Group) (pkg : Nat) : Option Nat := findPos (· == pkg) g.members

/-- The part of this member's chunk that ring address `a` belongs to. -/
def Group.ringPart (g : Group) (a : Nat) : Nat :=
  let o := a - (g.scratch + g.m * g.slotBytes) + (g.chunk g.locIdx).1
  ((upTo g.groups).find? (fun k =>
    let p := g.part (k * g.m + g.locIdx)
    decide (p.1 ≤ o ∧ o < p.1 + p.2))).getD 0

/-- What a segment that arrives is: the key of the segments received, and its length (R581). -/
def Group.segKey (g : Group) (r : Nat) (h : JHdr) : (Nat × Nat × Nat) × Nat :=
  let i := fld h.arg 0 32
  if h.op = 0x50 then ((0x50, r % g.m, i), segLen (g.chunk g.locIdx).2 i)
  else if h.op = 0x51 then ((0x51, r, i), segLen (g.part r).2 i)
  else
    let k := g.ringPart h.daddr.toNat
    ((0x52, k, i), segLen (g.part (k * g.m + g.locIdx)).2 i)

/-- The segment has been received (R581). -/
def Group.got_ (g : Group) (r : Nat) (h : JHdr) : Bool :=
  if h.op = 0x51 then g.out.contains (r, fld h.arg 0 32) else g.seen.contains (g.segKey r h).1

/-- A segment stands in memory: it is marked as received, with the arrival of its frame (R589), and takes its turn (R578, R580). -/
def State.cuSegIn (s : State) (f r : Nat) (h : JHdr) (at_ : Word) : State :=
  match s.openGroup f with
  | none => s
  | some g =>
    let i := fld h.arg 0 32
    let note := fun (g : Group) => { g with arrive := g.arrive.set r (wd (max at_.toNat (g.arrive.get 0 r).toNat)) }
    if h.op = 0x50 then
      let s := s.modGroup f (fun g => note { g with seen := g.seen ++ [(g.segKey r h).1] })
      (if g.started then s.cuReduceSeg f i else s).cuTryLocal f
    else if h.op = 0x51 then
      (s.modGroup f (fun g => (if g.kind = 2 then note else id) { g with out := g.out ++ [(r, i)] })).cuTryLocal f
    else
      let s := s.modGroup f (fun g => { g with seen := g.seen ++ [(g.segKey r h).1] })
      (if g.chunkDone then s.cuRingTake f (g.segKey r h).1.2.1 i else s).cuTryLocal f

/-- A frame without data for memory arrives from the member of rank r: `CDONE` (R585, R589), or `CABORT` (R586). -/
def State.cuNotice (s : State) (f r : Nat) (h : JHdr) (at_ : Word) : State :=
  if h.op = 0x53 then
    (s.modGroup f (fun g =>
      if g.cdone.contains r then g
      else { g with cdone := g.cdone ++ [r], arrive := if g.kind = 3 then g.arrive.set r at_ else g.arrive })).cuTryFinal f
  else s.cuFinal f (BitVec.ofNat 16 (fld h.arg 0 32)) r 0

/-- A frame of this package's CU has failed at the fabric (R586). -/
def State.cuSent (s : State) (f id : Nat) (code : BitVec 16) : State :=
  match s.openGroup f with
  | some g => if g.id = id ∧ code ≠ 0 then s.cuFail f Code.CU_FABRIC code else s
  | none => s

/-- A held write of CU f has been performed, or refused, which fails its group (log 28). -/
def State.cuWrote (s : State) (f id : Nat) (code : BitVec 16) : State :=
  match (s.cu f).group with
  | some g =>
    if g.id = id then
      let s := s.modGroup f (fun g => { g with heldW := g.heldW - 1 })
      ((if code ≠ 0 then s.cuFail f Code.CU_TORN 0 else s).cuTryLocal f).cuClose f
    else s
  | none => s

end Sys2Proof.Machine
end

