-- ==== Sys2Proof/Machine/SnapOps.lean ====
section
/-! DEFINITION. The snapshot engines (chapter 14): declaring, starting, cutting, copying, committing and ending a
snapshot, restoring one, and the writes that copy-on-write has held back (R481 to R488, R629 to R644). -/

namespace Sys2Proof.Machine

/-! ## Held writes (R484, R488) -/

/-- The bit of granule g of stack k is cleared and its held writes proceed in the order of arrival (R484). -/
def State.releaseGranule (s : State) (k g : Nat) : State :=
  let m := s.mc k
  (s.setMc k { m with
    cow := m.cow.filter (· != g)
    urgent := m.urgent.filter (· != g)
    staged := m.staged.drop g }).runHeld k

/-- Every bit of stack k is cleared, its held writes proceed in the order of arrival, and `MC_COW.EN` becomes 0 (R488). -/
def State.releaseStack (s : State) (k : Nat) : State :=
  ((s.setMc k { s.mc k with cow := [], sweep := [], urgent := [], staged := [] }).setRfld (regAt .mc k 0x50) 63 1 0).runHeld k

/-- Every stack is released (R488). -/
def State.releaseAll (s : State) : State := (upTo s.part.stacks).foldl (fun s k => s.releaseStack k) s

/-! ## Declarations (R629 to R632) -/

/-- The sum of the region lengths. -/
def SnapDecl.total (d : SnapDecl) : Nat := d.regions.foldl (fun n r => n + r.2.toNat) 0

/-- The address of slot g in the buddy area (R632). -/
def SnapDecl.slotAt (d : SnapDecl) (g : Nat) : Nat := d.buddy.toNat + g * (65536 + d.total)

/-- The offset in a slot's data of local address a, if a region holds it (R632). -/
def dataOffset (l : List (Word × Word)) (a : Nat) : Option Nat :=
  match l with
  | [] => none
  | (b, n) :: r =>
    if b.toNat ≤ a ∧ a < b.toNat + n.toNat then some (a - b.toNat) else (dataOffset r a).map (· + n.toNat)

/-- The local address that an offset of a slot's data restores to (R632). -/
def dataAddr (l : List (Word × Word)) (o : Nat) : Nat :=
  match l with
  | [] => 0
  | (b, n) :: r => if o < n.toNat then b.toNat + o else dataAddr r (o - n.toNat)

/-- Two regions overlap. -/
def overlaps (a b : Word × Word) : Bool :=
  decide (a.1.toNat < b.1.toNat + b.2.toNat ∧ b.1.toNat < a.1.toNat + a.2.toNat)

/-- No two of a list of regions overlap. -/
def disjointRegions : List (Word × Word) → Bool
  | [] => true
  | a :: r => !r.any (overlaps a) && disjointRegions r

/-- A snapshot table from its bytes (R630), with the checks of R630 and R631: none for `SE_DESC`. `header` holds the
first 64 bytes and `body` the region entries. -/
def State.parseTable (s : State) (header body : List Byte) (declare : Bool) : Option SnapDecl :=
  let mode := word64 header 0
  let n := bytesAt header 0x28 4
  let warn := word64 header 0x30
  let src := word64 header 0x38
  let regions := (upTo n).map (fun i => (word64 body (16 * i), word64 body (16 * i + 8)))
  let d : SnapDecl := {
    stop := bit mode 0, live := bit mode 1, buddy := word64 header 0x08, len := word64 header 0x10
    period := word64 header 0x18, key := BitVec.ofNat 16 (bytesAt header 0x20 2)
    job := BitVec.ofNat 32 (bytesAt header 0x2C 4), warn := bit warn 0
    src := BitVec.ofNat 14 src.toNat, regions := regions, digest := word64 (sha512 (body.take (16 * n))) 0 }
  if mode.toNat < 4 ∧ d.buddy.toNat % 65536 = 0 ∧ d.len.toNat ≤ 128 * 2 ^ 30 ∧ bytesAt header 0x22 6 = 0
      ∧ 1 ≤ n ∧ n ≤ 64 ∧ warn.toNat < 2 ∧ src.toNat < 2 ^ 14 ∧ (declare → src = 0 )
      ∧ regions.all (fun r => decide (r.1.toNat % 65536 = 0 ∧ r.2.toNat % 65536 = 0 ∧ 0 < r.2.toNat
          ∧ r.1.toNat + r.2.toNat ≤ s.part.hbm))
      ∧ disjointRegions regions ∧ d.total ≤ 64 * 2 ^ 30 - 65536 ∧ 2 * (65536 + d.total) ≤ d.len.toNat
  then some d else none

/-! ## The engines' state -/

/-- The code of the snapshot engines, shown by all four (R647). -/
def State.seCode (s : State) (c : BitVec 16) : State :=
  (upTo 4).foldl (fun s a => s.setRfld (regAt .se a 0) 32 16 c.toNat) s

/-- A snapshot is copying or a restore runs. -/
def State.snapBusy (s : State) : Bool := s.job.snap.isSome

/-- Change the run under way. -/
def State.modSnap (s : State) (f : SnapRun → SnapRun) : State := { s with job := { s.job with snap := s.job.snap.map f } }

/-- The entry of a TAKE or RESTORE completes: the run is over, `COPYING` and `ARMED` clear, every held write proceeds
(R488), and the four targets report the code (R276). -/
def State.endSnap (s : State) (code : BitVec 16) : State :=
  match s.job.snap with
  | none => s
  | some r =>
    let s := { s with job := { s.job with snap := none } }
    let s := if code = 0 then s else s.seCode code
    let s := (s.setRfld seStatus 4 1 0).setRfld seStatus 5 1 0
    let s := if r.take then s.releaseAll else s
    -- answers still on their way no longer count for anything
    let s := { s with reqs := s.reqs.map (fun (q : OutReq) =>
      match q.owner with
      | .snap => { q with owner := .none }
      | .restore _ _ => { q with owner := .none }
      | _ => q) }
    match r.entry with
    | none => s
    | some cr => [0, 1, 2, 3].foldl (fun s t => s.targetDone cr t code) s

/-- One of the twin ports is UP. -/
def State.twinUp (s : State) : Bool := s.portUp 0 || s.portUp 18

/-- Both twin ports have left UP: a TAKE that copies to the twin ends with `SE_TWIN_LOST` (R639). -/
def State.snapTwinLost (s : State) : State :=
  match s.job.snap with
  | some r => if r.take then s.endSnap Code.SE_TWIN_LOST else s
  | none => s

/-! ## Messages of the snapshot engine of AD0 -/

/-- The header of a snapshot request to package p (R509, R532, R635): class 3 for writes and `GET`, class 0 for `READ`
(log 18), the table's key, activity SNAPSHOT. -/
def SnapRun.hdr (r : SnapRun) (p : Nat) (op : Byte) (a len : Nat) (arg : Word) : JHdr :=
  { hdr0 with
    dpkg := BitVec.ofNat 14 p
    daddr := BitVec.ofNat 50 a
    op := op
    len := BitVec.ofNat 10 len
    tc := if op = opREAD then 0 else 3
    key := r.table.key
    tenant := r.tenant
    act := 2
    arg := arg }

/-- The package that holds a run's slots: the twin for a TAKE, `SRC` for a RESTORE. -/
def State.snapPeer (s : State) (r : SnapRun) : Nat := if r.take then s.twin else r.table.src.toNat

/-- Send a message of the run that ends or advances it when it is answered. -/
def State.snapSend (s : State) (r : SnapRun) (op : Byte) (a len : Nat) (data : List Byte) : State :=
  s.sendReq 0 (r.hdr (s.snapPeer r) op a len 0) data .snap

/-- Read the commit record of slot g (R635, R643): its first 64 bytes. -/
def State.snapReadSlot (s : State) (g : Nat) : State :=
  match s.job.snap with
  | some r => s.snapSend r opREAD (r.table.slotAt g) 64 []
  | none => s

/-! ## TAKE (R634, R635) -/

/-- The packages of the job's manifest. -/
def State.members (s : State) : List Nat :=
  match s.job.start with
  | some r => r.manifest
  | none => []

/-- Whether a package of the job's manifest lies outside the chassis by its route entry (R634). -/
def State.beyondChassis (s : State) : Bool :=
  s.members.any (fun p => p != s.pkg && !bit (s.curEntry 0 p) 62)

/-- The first code that refuses a TAKE, if any (R634). -/
def State.takeRefusal (s : State) (cut : Word) : Option (BitVec 16) :=
  match s.job.decl with
  | none => some Code.SE_NOT_DECLARED
  | some d =>
    if s.snapBusy then some Code.SE_BUSY
    else if cut.toNat < (s.now 0).toNat + 40000 then some Code.SE_LATE
    else if !d.stop && s.beyondChassis then some Code.SE_MODE
    else if !s.twinUp then some Code.SE_TWIN_LOST
    else none

/-- A TAKE is accepted: the engine of AD0 starts to read the twin's commit records (R635). -/
def State.takeStart (s : State) (cr : Option Creator) (cut step : Word) (tenant : BitVec 12) : State :=
  match s.job.decl with
  | none => s
  | some d =>
    let r : SnapRun := {
      take := true, entry := cr, table := d, cut := cut, step := step, wanted := 0, phase := .read0, rec0 := [], rec1 := []
      slot := 0, cuts := [], left := 0, at_ := 0, poison := 0, tenant := tenant }
    let s := { s with job := { s.job with snap := some r } }
    let s := s.setRfld seStatus 4 1 1
    let s := (upTo 4).foldl (fun s a => s.setRfld (regAt .se a 0x08) 0 48 0) s
    s.snapReadSlot 0

/-- The granules of 64 KiB of stack k that hold a byte of a run's regions (R481). -/
def State.snapGranules (s : State) (r : SnapRun) (k : Nat) : List Nat :=
  (r.table.regions.flatMap (fun (x : Word × Word) =>
    (upTo (x.2.toNat / 4096)).filterMap (fun i =>
      let m := s.mapAddr (x.1.toNat + i * 4096)
      if m.1 = k then some (m.2 / 65536) else none))).foldl (fun l g => if l.contains g then l else l ++ [g]) []

/-- Whether a line lies in a granule that the run arms (R636). -/
def State.armedLine (s : State) (r : SnapRun) (a : Nat) : Bool :=
  s.granuleIn r.table.regions (s.mapAddr a).1 ((s.mapAddr a).2 / 65536)

/-- The cut on accelerator die d (R636): the granules to copy are listed; in COW mode every stack of the die arms its bitmap, and
the lines of those granules that the twin holds exclusive are asked back. -/
def State.cutDie (s : State) (r : SnapRun) (d : Nat) : State :=
  let s := s.modSnap (fun r => { r with cuts := r.cuts ++ [d] })
  let s := (upTo s.part.stPerAd).foldl (fun s i =>
    let k := d * s.part.stPerAd + i
    let g := s.snapGranules r k
    let s := s.setMc k { s.mc k with sweep := g, cow := if r.table.stop then [] else g, urgent := [], overs := [], staged := [] }
    if r.table.stop then s else (s.setRfld (regAt .mc k 0x50) 63 1 1).setRfld (regAt .mc k 0x50) 32 20 0) s
  if r.table.stop then s
  else s.askRecall (s.dir.filterMap (fun (x : Nat × TwinHold) =>
    if x.2 = .exclusive ∧ s.armedLine r x.1 ∧ s.part.dieOfStack (s.mapAddr x.1).1 = d then some (x.1, false) else none))

/-- Every accelerator die has taken the cut. -/
def SnapRun.cutDone (r : SnapRun) : Bool := (upTo 4).all (fun d => r.cuts.contains d)

/-- `ARMED` becomes 1 when every stack is armed and no line of an armed granule is still held exclusive by the twin (R636). -/
def State.armCheck (s : State) : State :=
  match s.job.snap with
  | some r =>
    if r.take && r.cutDone && !r.table.stop && !s.dir.any (fun x => x.2 == .exclusive && s.armedLine r x.1)
    then s.setRfld seStatus 5 1 1 else s
  | none => s

/-- Each accelerator die whose time base has reached `CUT` takes the cut (R636). -/
def State.takeCut (s : State) (r : SnapRun) : State :=
  ((upTo 4).foldl (fun s d => if r.cut.toNat ≤ (s.now d).toNat ∧ !r.cuts.contains d then s.cutDie r d else s) s).armCheck

/-- The stacks of accelerator die d. -/
def State.stacksOf (s : State) (d : Nat) : List Nat := (upTo s.part.stPerAd).map (fun i => d * s.part.stPerAd + i)

/-- The granule, with its stack, that the engine of die d copies next where none is urgent: the one of the lowest local address
(R635). -/
def State.sweepNext (s : State) (d : Nat) : Option (Nat × Nat) :=
  ((s.stacksOf d).flatMap (fun k => (s.mc k).sweep.map (fun g => (k, g)))).foldl (fun acc x =>
    match acc with
    | none => some x
    | some y => if s.unmapAddr x.1 (x.2 * 65536) < s.unmapAddr y.1 (y.2 * 65536) then some x else some y) none

/-- Whether granule g of stack k is the one to be copied: the first urgent one of its stack, or, where no stack of its die has an
urgent one, the next of the sweep (R483, R635). -/
def State.copyTurn (s : State) (k g : Nat) : Bool :=
  let d := s.part.dieOfStack k
  (s.mc k).urgent.head? == some g
    || ((s.stacksOf d).all (fun j => (s.mc j).urgent.isEmpty) && s.sweepNext d == some (k, g))

/-- How the snapshot engine of the die of a stack reads it: class 5, activity SNAPSHOT, the tag of its command (R459). -/
def SnapRun.req (r : SnapRun) : Req := ⟨5, 2, r.tenant, false, 9⟩

/-- n units read for a copy: their bytes, and the numbers of those that cannot be read (R466, R487). -/
def State.copyUnits (s : State) (k off a n : Nat) : State × List Byte × List Nat :=
  (upTo n).foldl (fun (acc : State × List Byte × List Nat) i =>
    let (s, c) := acc.1.unitCheck k (off + 64 * i) (a + 64 * i)
    (s, acc.2.1 ++ s.unitPlain k (off + 64 * i) (a + 64 * i), if c.isSome then acc.2.2 ++ [i] else acc.2.2)) (s, [], [])

/-- The argument of a copy's `WRITE`, which marks its poisoned units: bit i for its i-th unit (log 71). -/
def poisonArg (bad : List Nat) : Word := wd (bad.foldl (fun x i => x + 2 ^ i) 0)

/-- Send units of data to the twin as one `WRITE` (R635, R487), with what the engine of die d counts. -/
def State.copySend (s : State) (r : SnapRun) (d o : Nat) (data : List Byte) (bad : List Nat) : State :=
  let s := s.modSnap (fun r => { r with left := r.left + 1, poison := r.poison + bad.length })
  let s := (s.bump (regAt .se d 0x08) 0 48 data.length).bump (regAt .se d 0x18) 0 32 bad.length
  s.sendReq d (r.hdr s.twin opWRITE (r.table.slotAt r.slot + 65536 + o) data.length (poisonArg bad)) data .snap

/-- n units at a stack offset are read, if memory lets the request start, and written to the twin. `extra` lets it start beyond the
budget (R486). -/
def State.copyBlock (s : State) (r : SnapRun) (k off o n : Nat) (extra : Bool) : State × Bool :=
  let a := s.unmapAddr k off
  let c := s.dirConflicts false a (64 * n)
  if !c.isEmpty then (s.askRecall c, false)
  else if s.unitsShut k off a (64 * n) || !s.tokensOk k 5 n || !(extra || s.budgetOk k 2) then (s, false)
  else
    match s.tagCheck 5 r.tenant a k with
    | some code => ((s.mcRefuse k code).endSnap Code.SE_COPY_FAULT, false)
    | none =>
      let (s, data, bad) := (s.chargeStart r.req k n (64 * n)).copyUnits k off a n
      (s.copySend r (s.part.dieOfStack k) o data bad, true)

/-- Units of granule g of stack k are copied from the first that remains on, as far as memory lets them: what one `WRITE` of 512 B
holds, or of 448 B where a seal leaves no room for more (R548, R635), to the end of a 4 KiB block. A block that no region holds is
passed over; between two blocks of a sweep granule an urgent copy goes first (R483). -/
def State.copyBlocks (s : State) (r : SnapRun) (k g : Nat) (extra : Bool) : Nat → State
  | 0 => s
  | fuel + 1 =>
    let i := (s.mc k).staged.get 0 g
    let went := fun (s : State) (n : Nat) =>
      State.copyBlocks (s.setMc k { s.mc k with staged := (s.mc k).staged.set g (i + n) }) r k g extra fuel
    if 1024 ≤ i ∨ (i % 64 = 0 ∧ !s.copyTurn k g) then s
    else
      match dataOffset r.table.regions (s.unmapAddr k (g * 65536 + i * 64)) with
      | none => went s (64 - i % 64)
      | some o =>
        let n := min (s.maxData (fdOf (s.part.dieOfStack k)) s.twin r.tenant / 64) (64 - i % 64)
        match s.copyBlock r k (g * 65536 + i * 64) o n extra with
        | (s, true) => went s n
        | (s, false) => s

/-- Granule g of stack k is read into staging, as far as memory lets it, and on its way to the twin; once all of it is, its bit is
cleared and the writes it held proceed (R484, R486, R635). An urgent granule may start beyond the budget, up to 16 in a period. -/
def State.copyGranule (s : State) (r : SnapRun) (k g : Nat) : State :=
  let m := s.mc k
  let urgent := m.urgent.contains g
  let more := urgent && !s.budgetOk k 2 && !m.overs.contains g && decide (m.overs.length < 16)
  let s := if more then s.setMc k { m with overs := m.overs ++ [g] } else s
  let s := s.copyBlocks r k g ((s.mc k).overs.contains g) 1024
  if (s.mc k).staged.get 0 g = 1024 ∧ s.job.snap.isSome then
    let s := s.setMc k { s.mc k with sweep := (s.mc k).sweep.filter (· != g) }
    (if urgent then s.bump (regAt .se (s.part.dieOfStack k) 0x18) 32 32 1 else s).releaseGranule k g
  else s

/-- Every granule is copied and every copy write acknowledged (R635). -/
def State.copyDone (s : State) (r : SnapRun) : Bool :=
  r.take && r.cutDone && r.phase == .copy && r.left == 0 && (upTo s.part.stacks).all (fun k => (s.mc k).sweep.isEmpty)

/-- The commit record (R633). -/
def SnapRun.commitRec (r : SnapRun) (seq : Nat) (now : Word) : List Byte :=
  leBytes 8 seq ++ leBytes 4 r.table.job.toNat ++ leBytes 4 r.table.regions.length ++ leBytes 8 r.step.toNat
    ++ leBytes 8 r.cut.toNat ++ leBytes 8 r.table.total ++ leBytes 8 now.toNat ++ leBytes 8 r.table.digest.toNat
    ++ leBytes 4 r.poison ++ leBytes 4 0

/-- The generation that a TAKE writes: one above the other slot's (R635). -/
def SnapRun.newSeq (r : SnapRun) : Nat := (word64 (if r.slot = 0 then r.rec1 else r.rec0) 0).toNat + 1

/-- The engine of AD0 writes the commit record: all but `SEQ` first (R633, log 19). -/
def State.commitBody (s : State) (r : SnapRun) : State :=
  let s := s.modSnap (fun r => { r with phase := .body })
  s.snapSend r opWRITE (r.table.slotAt r.slot + 8) 56 ((r.commitRec 0 (s.now 0)).drop 8)

/-- The commit: `SLOT`, `SEQ`, `CLEAN` and `WANT` (R635, R642, R644, R647). -/
def State.committed (s : State) (r : SnapRun) : State :=
  let s := ((s.setRfld seStatus 0 2 r.slot).setRfld seStatus 7 1 1).setRfld seStatus 6 1 0
  let s := (upTo 4).foldl (fun s a => s.setReg (regAt .se a 0x10) (wd r.newSeq)) s
  { s with job := { s.job with lastCut := some r.cut } }.endSnap 0

/-! ## RESTORE (R643) -/

/-- Whether a slot qualifies for a RESTORE (R643). -/
def SnapRun.qualifies (r : SnapRun) (c : List Byte) : Bool :=
  let seq := (word64 c 0).toNat
  decide (0 < seq) && bytesAt c 0x08 4 == r.table.job.toNat && word64 c 0x30 == r.table.digest && word64 c 0x10 == r.step
    && (r.wanted == 0 || decide (seq = r.wanted.toNat))

/-- Ask for the next 512 B of a RESTORE, or end it when every byte has come (R643). -/
def State.restoreNext (s : State) : State :=
  match s.job.snap with
  | none => s
  | some r =>
    if r.table.total ≤ r.at_ then s.endSnap (if r.poison = 0 then 0 else Code.SE_POISONED)
    else
      let dst := dataAddr r.table.regions r.at_
      let src := if r.table.live then dst else r.table.slotAt r.slot + 65536 + r.at_
      let s := s.modSnap (fun r => { r with left := 1, at_ := r.at_ + 512 })
      s.sendReq 0 (r.hdr (s.snapPeer r) opGET src 512 (wd dst)) [] (.restore (wd dst) 512)

/-- A RESTORE is accepted: it reads the commit records of its source, or with a live source starts at once. -/
def State.restoreStart (s : State) (cr : Option Creator) (d : SnapDecl) (step wanted : Word) (tenant : BitVec 12) : State :=
  let r : SnapRun := {
    take := false, entry := cr, table := d, cut := 0, step := step, wanted := wanted, phase := if d.live then .copy else .read0
    rec0 := [], rec1 := [], slot := 0, cuts := [], left := 0, at_ := 0, poison := 0, tenant := tenant }
  let s := { s with job := { s.job with snap := some r } }
  if d.live then
    -- `CLEAN` of the source is read over the management channel (log 20)
    s.sendReq 0 { hdr0 with
      dpkg := d.src, daddr := BitVec.ofNat 50 (0x0002000000000000 + seStatus), op := 0x70, len := 8, tc := 7, act := 5
      arg := s.reg (regAt .he 0 0x38) }
      [] .snap
  else s.snapReadSlot 0

/-- A piece of a RESTORE that came poisoned: 512 B are asked for again unit by unit, and a single unit is left poisoned
and counted (R643). -/
def State.restorePoison (s : State) (dst len : Nat) : State :=
  match s.job.snap with
  | none => s
  | some r =>
    if len = 512 then
      let s := s.modSnap (fun r => { r with left := 8 })
      let o := r.at_ - 512
      (upTo 8).foldl (fun s i =>
        let src := if r.table.live then dst + 64 * i else r.table.slotAt r.slot + 65536 + o + 64 * i
        s.sendReq 0 (r.hdr (s.snapPeer r) opGET src 64 (wd (dst + 64 * i))) [] (.restore (wd (dst + 64 * i)) 64)) s
    else
      let (k, off) := s.mapAddr dst
      let u := unitNo k off
      let s := { s with poison := if s.poison.contains u then s.poison else s.poison ++ [u] }
      let s := s.bump (regAt .se 0 0x18) 0 32 1
      s.modSnap (fun r => { r with poison := r.poison + 1 })

/-- The outcome of a message of the run reaches the snapshot engine (R635, R643). -/
def State.snapAnswer (s : State) (code : BitVec 16) (data : List Byte) : State :=
  match s.job.snap with
  | none => s
  | some r =>
    if code ≠ 0 then s.endSnap Code.SE_COPY_FAULT
    else
      match r.phase with
      | .read0 => (s.modSnap (fun r => { r with rec0 := data, phase := .read1 })).snapReadSlot 1
      | .read1 =>
        let r := { r with rec1 := data }
        let a := (word64 r.rec0 0).toNat
        let b := (word64 r.rec1 0).toNat
        if r.take then
          let r := { r with slot := if b < a then 1 else 0, phase := .clear }
          (s.modSnap (fun _ => r)).snapSend r opWRITE (r.table.slotAt r.slot) 8 (zeros 8)
        else
          let qa := r.qualifies r.rec0
          let qb := r.qualifies r.rec1
          if !qa && !qb then s.endSnap Code.SE_NO_GEN
          else
            let slot := if qa && (!qb || decide (b ≤ a)) then 0 else 1
            (s.modSnap (fun _ => { r with slot := slot, phase := .copy })).restoreNext
      | .clear => s.modSnap (fun r => { r with phase := .copy })
      | .copy =>
        if r.take then s.modSnap (fun r => { r with left := r.left - 1 })
        else if bit (word64 data 0) 7 then s.restoreNext else s.endSnap Code.SE_NO_GEN
      | .body =>
        (s.modSnap (fun r => { r with phase := .seq })).snapSend r opWRITE (r.table.slotAt r.slot) 8 (leBytes 8 r.newSeq)
      | .seq => s.committed r

/-- The outcome of a piece of a RESTORE (R643). -/
def State.restoreAnswer (s : State) (dst len : Nat) (code : BitVec 16) : State :=
  match s.job.snap with
  | none => s
  | some _ =>
    let poison := code = Code.MC_POISON ∨ code = Code.MC_UNCORRECTABLE
    if code ≠ 0 ∧ ¬ poison then s.endSnap Code.SE_COPY_FAULT
    else
      let split := decide poison && len == 512
      let s := if poison then s.restorePoison dst len else s
      if split then s
      else
        let s := s.modSnap (fun r => { r with left := r.left - 1 })
        match s.job.snap with
        | some r => if r.left = 0 then s.restoreNext else s
        | none => s

end Sys2Proof.Machine
end

