-- ==== Sys2Proof/Machine/HomeOps.lean ====
section
/-! DEFINITION. The receiving side of the fabric (R510, R511, R516, R526 to R531): checking an arriving request, serving
reads, writes and atomics, the home agents with their replay tables (R539 to R546), the lines that the twin holds and
the lines of the twin that this package holds (R536 to R538), and the failure of a request of this package (R514). -/

namespace Sys2Proof.Machine

/-! ## Arriving frames (R508, R516, R548, R549) -/

/-- Checks 1 and 2 of R516: the CRC, and the seal where there is one. The answer is the data; none where the frame is
dropped, and counted in `FR_DROPS.CRC`. -/
def State.openFrame (s : State) (f : Nat) (x : JFrame) : State × Option (List Byte) :=
  if x.crc ≠ jcrc x.hdr x.payload ∨ x.payload.length ≠ payloadLen x.hdr then (s.frDrop f 0, none)
  else if !x.hdr.sealed then (s, some x.payload)
  else
    match s.fabricKey x.hdr.tenant with
    | none => (s.frDrop f 0, none)
    | some key =>
      let ctr := leNat (x.payload.take 8)
      match gcmOpen key (sealNonce x.hdr.spkg.toNat ctr) (hdrBytes x.hdr) (x.payload.drop 8) with
      | some d => (s, some d)
      | none => (s.frDrop f 0, none)

/-- The first frame delivered at FD f whose opcode satisfies `p`, and the state without it. -/
def State.takeFrameP (s : State) (f : Nat) (p : Byte → Bool) : Option (InFrame × State) :=
  let r := s.fr f
  match findPos (fun (x : InFrame) => p x.frame.hdr.op) r.inbox with
  | none => none
  | some i =>
    match r.inbox[i]? with
    | none => none
    | some x => some (x, s.setFr f { r with inbox := dropAt r.inbox i })

/-- Handle the first delivered frame whose opcode satisfies `p`, once it has passed checks 1 and 2. The handler says
whether the frame has to wait; it then stays delivered and nothing else changes but what the wait asks back. -/
def State.onFrame (s : State) (f : Nat) (p : Byte → Bool) (k : State → InFrame → List Byte → State × Bool) : State :=
  match s.takeFrameP f p with
  | none => s
  | some (x, s') =>
    match s'.openFrame f x.frame with
    | (s', none) => s'
    | (s', some d) =>
      match k s' x d with
      | (t, false) => t
      | (t, true) => s.keepAsk t

/-- Length and alignment of R510. -/
def lenOk (a l : Nat) : Bool :=
  ((l == 1 || l == 2 || l == 4 || l == 8) && a % l == 0 || l % 8 == 0 && decide (0 < l ∧ l ≤ 512) && a % 8 == 0)
    && a / 4096 == (a + l - 1) / 4096

/-- The opcodes of R509, R536 and R560 that a frame to a package can carry. -/
def knownOp (op : Byte) : Bool :=
  op == opREAD || op == opGET || op == opWRITE || isAtomic op || decide (0x40 ≤ op.toNat ∧ op.toNat ≤ 0x47)
    || decide (0x50 ≤ op.toNat ∧ op.toNat ≤ 0x54) || op == 0x60 || op == 0x61 || decide (0x70 ≤ op.toNat ∧ op.toNat ≤ 0x77)
    || op == 0x7E || op == opRESP || op == opNAK || op == opGETDATA

/-- The traffic classes of an opcode that reads or writes memory (R509; log 41). -/
def classOk (h : JHdr) : Bool :=
  if h.op = opGET ∨ h.op = opWRITE then h.tc == 0 || h.tc == 1 || h.tc == 3 else h.tc == 0

/-- The range of local addresses that a request names: address and length. -/
def reqRange (h : JHdr) (data : List Byte) : Nat × Nat :=
  (h.daddr.toNat, if isReadOp h.op then h.len.toNat else data.length)

/-- The address is one of a font. -/
def State.inFont (s : State) (a : Nat) : Bool :=
  match s.region a with
  | .font _ _ => true
  | _ => false

/-- Check 3 of R516 for a request to memory (R510): an atomic acts on HBM, not on a font. -/
def State.formatOk (s : State) (f : Nat) (h : JHdr) (data : List Byte) : Bool :=
  let (a, l) := reqRange h data
  h.res == 0 && h.act != 7 && classOk h
    && (if isAtomic h.op then l == 8 && a % 8 == 0 && !s.inFont a
        else (h.op == opREAD || h.op == opGET || h.op == opWRITE) && lenOk a l)
    -- data that a sealed answer cannot carry (R548)
    && (!isReadOp h.op || decide (l ≤ s.maxData f h.spkg.toNat h.tenant))

/-- The home key of an address (R530). -/
def State.homeKey (s : State) (a : Nat) : BitVec 16 :=
  if a < s.part.hbm then s.homeKeys.get 0 (a / 2 ^ 21) else s.fontKeys.get 0 (a / 2 ^ 21)

/-- Checks 3 to 5 of R516 for a request to memory: the code of the first that fails. -/
def State.homeCheck (s : State) (f : Nat) (h : JHdr) (data : List Byte) : Option (BitVec 16) :=
  let (a, l) := reqRange h data
  if !s.formatOk f h data then some Code.FAB_FORMAT
  else
    match s.rangeIn a l with
    | .hbm _ | .font _ _ =>
      if s.homeKey a = 0 ∨ s.homeKey a ≠ h.key then some Code.FAB_KEY_MISMATCH else none
    | _ => some Code.FAB_UNREACHABLE

/-- How an incoming request reaches memory (R459): class 9, the frame's activity and tenant. -/
def homeReq (f : Nat) (h : JHdr) : Req := ⟨9, h.act.toNat, h.tenant, false, fdDie f⟩

/-! ## The home agents (R539 to R546) -/

/-- The entry of a replay table for a request (R541). -/
def Router.haFind (r : Router) (spkg seq : Nat) : Option HaEntry := r.haT.find? (fun e => e.spkg == spkg && e.seq == seq)

/-- Change the entry of a request. -/
def State.haMod (s : State) (f spkg seq : Nat) (g : HaEntry → HaEntry) : State :=
  let r := s.fr f
  s.setFr f { r with haT := r.haT.map (fun e => if e.spkg = spkg ∧ e.seq = seq then g e else e) }

/-- The source slots in use (R541, `FR_HA.SLOTS`). -/
def Router.haSlots (r : Router) : List Nat :=
  r.haT.foldl (fun l e => if l.contains e.spkg then l else l ++ [e.spkg]) []

/-- The oldest DONE entry of a list that has been unused for 100 µs (R542). -/
def oldestUnused (now : Nat) (l : List HaEntry) : Option HaEntry :=
  (l.filter (fun e => e.done && decide (e.last.toNat + 400000 ≤ now))).foldl (fun acc e =>
    match acc with
    | none => some e
    | some x => if e.last.toNat < x.last.toNat then some e else some x) none

/-- A tracked request that has passed R516 reaches the home agent of FD f (R542). -/
def State.haArrive (s : State) (f : Nat) (x : InFrame) (data : List Byte) : State :=
  let h := x.frame.hdr
  let r := s.fr f
  let sp := h.spkg.toNat
  let sq := h.seq.toNat
  let now := s.now (fdDie f)
  let nak := fun (s : State) (c : BitVec 16) => s.answerReq f h opNAK c []
  let enter := fun (r : Router) =>
    s.setFr f { r with
      haT := r.haT ++ [⟨sp, sq, false, mkFrame (respHdr h s.pkg opRESP 0 0) [], now⟩]
      haQ := r.haQ ++ [{ x with frame := { x.frame with payload := data } }] }
  match r.haFind sp sq with
  | some e =>
    if e.done then (s.haMod f sp sq (fun e => { e with last := now })).sendVia f e.resp.hdr e.resp.payload |>.1
    else nak s Code.FAB_PENDING
  | none =>
    let mine := r.haT.filter (fun e => e.spkg == sp)
    if mine.isEmpty && decide (4096 ≤ r.haSlots.length) then (nak s Code.FAB_BUSY).bump (frReg f 0x30) 16 16 1
    else if mine.length < 64 then enter r
    else
      match oldestUnused now.toNat mine with
      | some o => enter { r with haT := r.haT.filter (fun e => !(e.spkg == o.spkg && e.seq == o.seq)) }
      | none => (nak s Code.FAB_BUSY).bump (frReg f 0x30) 16 16 1

/-- The final response to a request that FD f has handled (R511): a tracked request's goes into its entry, which is DONE
from now on (R541). -/
def State.homeAnswer (s : State) (f : Nat) (h : JHdr) (op : Byte) (code : BitVec 16) (data : List Byte) : State :=
  let rh := respHdr h s.pkg op code data.length
  let s := if hdrTracked h then
      s.haMod f h.spkg.toNat h.seq.toNat (fun e => { e with done := true, resp := mkFrame rh data, last := s.now (fdDie f) })
    else s
  (s.sendVia f rh data).1

/-! ## Lines that the twin asks for (R536 to R538) -/

/-- A write-back of a line that the twin held at the cut belongs to the recall that arms the stacks: it is written through until
`ARMED` is 1, and held as any write from then on (R483, R636, R639; log 71). -/
def State.writeBack (s : State) (q : Req) (a : Nat) (data : List Byte) (o : Owner) : State × MemRes :=
  let (k, off) := s.mapAddr a
  match s.tagCheck q.cls q.tag a k with
  | some c => s.mcRefused k c
  | none => if s.rfld seStatus 5 1 = 1 then s.pageWrite q a data o else s.pageStore q k off a data

/-- The answer to a line request that has passed its checks (R536): the second component says that it has to wait. A request for
exclusive ownership counts as a write where its granule is pending (R636). An upgrade of a copy that the directory no longer lists
still answers with `RESP` (log 40). -/
def State.homeLine (s : State) (f : Nat) (x : InFrame) : State × Bool :=
  let h := x.frame.hdr
  let a := h.daddr.toNat
  let q := homeReq f h
  let (k, off) := s.mapAddr a
  let set := fun (s : State) (t : TwinHold) => { s with dir := s.dir.set a t }
  match s.tagCheck q.cls q.tag a k with
  | some c => ((s.mcRefuse k c).homeAnswer f h opRESP c [], false)
  | none =>
    if h.op = opCWB then
      match s.writeBack q a x.frame.payload (.fabric f x.frame) with
      | (s, .wait) => (s, true)
      | (s, .refused c) => (s.homeAnswer f h opRESP c [], false)
      | (s, .held) => ({ s with dir := s.dir.drop a }, false)
      | (s, .done _) => (({ s with dir := s.dir.drop a } : State).homeAnswer f h opRESP 0 [], false)
    else if h.op != opCRD && s.cowHolds k off q.cls then (s.cowHold k ⟨q, wd off, [], none, .fabric f x.frame⟩, false)
    else if h.op = opCUPG then ((set s .exclusive).homeAnswer f h opRESP 0 [], false)
    else
      match s.pageRead q a 128 with
      | (s, .done d) => ((set s (if h.op = opCRD then .shared else .exclusive)).homeAnswer f h opCDATA 0 d, false)
      | (s, .refused c) => (s.homeAnswer f h opRESP c [], false)
      | (s, _) => (s, true)

/-- The checks of a line request: format, from the twin, local HBM, and the valley not lost (R516, R536 to R538). -/
def State.lineCheck (s : State) (h : JHdr) (data : List Byte) : Option (BitVec 16) :=
  let a := h.daddr.toNat
  if h.res ≠ 0 ∨ h.act = 7 ∨ h.tc ≠ 5 ∨ h.spkg.toNat ≠ s.twin ∨ a % 128 ≠ 0 ∨ (h.op = opCWB ∧ data.length ≠ 128) then
    some Code.FAB_FORMAT
  else if s.part.hbm ≤ a ∨ s.valleyLost then some Code.FAB_UNREACHABLE
  else none

/-! ## Applying tracked requests (R544, R545) -/

/-- The units that a copy's `WRITE` marks are poisoned where they have been stored (R487; log 71). -/
def State.takeMarks (s : State) (h : JHdr) (n : Nat) : State :=
  if h.op = opWRITE ∧ h.tc = 3 then
    (upTo (n / 64)).foldl (fun s i =>
      let u := s.hbmKeyOf (h.daddr.toNat + 64 * i) / 64
      if bit h.arg i && !s.poison.contains u then { s with poison := s.poison ++ [u] } else s) s
  else s

/-- Apply one tracked request (R528, R544); the second component says that it has to wait. -/
def State.haApplyOne (s : State) (f : Nat) (x : InFrame) : State × Bool :=
  let h := x.frame.hdr
  let data := x.frame.payload
  let a := h.daddr.toNat
  if isAtomic h.op then
    match s.hbmAtomic (homeReq f h) a h.op (word64 data 0) h.arg (.fabric f x.frame) with
    | (s, .done d) => (s.homeAnswer f h opRESP 0 d, false)
    | (s, .refused c) => (s.homeAnswer f h opRESP c [], false)
    | (s, .held) => (s, false)
    | (s, .wait) => (s, true)
  else if h.op = opWRITE then
    match s.localWrite (homeReq f h) a data (.fabric f x.frame) with
    | (s, some (.done 0)) => (s.homeAnswer f h opRESP 0 [], false)
    | (s, some (.done _)) => (s, false)
    | (s, some (.refused c)) => (s.homeAnswer f h opRESP c [], false)
    | (s, some .wait) => (s, true)
    | (s, none) => (s.homeAnswer f h opRESP Code.FAB_UNREACHABLE [], false)
  else s.homeLine f x

/-- A tracked request for a line stands held at a memory controller (R483). -/
def State.lineHeld (s : State) (line : Nat) : Bool :=
  s.mcs.any (fun m => m.2.held.any (fun h =>
    match h.owner with
    | .fabric _ x => x.hdr.daddr.toNat / 128 == line
    | _ => false))

/-- Apply the first request of the queue whose line no earlier request waits for, and which memory lets start (R544): `q`
is the rest of the queue, `before` what stands ahead of it, in order. -/
def State.haApply (s : State) (f : Nat) (before : List InFrame) : List InFrame → State
  | [] => s
  | x :: q =>
    let line := fun (y : InFrame) => y.frame.hdr.daddr.toNat / 128
    if before.any (fun y => line y == line x) || s.lineHeld (line x) then State.haApply s f (before ++ [x]) q
    else
      match (s.setFr f { s.fr f with haQ := before ++ q }).haApplyOne f x with
      | (t, false) => t
      | (t, true) => State.haApply (s.keepAsk t) f (before ++ [x]) q

/-! ## Untracked requests -/

/-- Serve a `READ` or `GET` (R511). -/
def State.homeRead (s : State) (f : Nat) (h : JHdr) (data : List Byte) : State × Bool :=
  match s.homeCheck f h data with
  | some c => (s.answerReq f h opRESP c [], false)
  | none =>
    match s.localRead (homeReq f h) h.daddr.toNat h.len.toNat with
    | (s, some (.done d)) => (s.answerReq f h (if h.op = opGET then opGETDATA else opRESP) 0 d, false)
    | (s, some (.refused c)) => (s.answerReq f h opRESP c [], false)
    | (s, _) => (s, true)

/-- Serve a `WRITE` (R511, R529): a tracked one goes to the home agent (R539). -/
def State.homeWrite (s : State) (f : Nat) (x : InFrame) (data : List Byte) : State × Bool :=
  let h := x.frame.hdr
  match s.homeCheck f h data with
  | some c => (s.answerReq f h opRESP c [], false)
  | none =>
    if hdrTracked h then (s.haArrive f x data, false)
    else
      match s.localWrite (homeReq f h) h.daddr.toNat data (.fabric f { x.frame with payload := data }) with
      | (s, some (.done 0)) => ((s.takeMarks h data.length).answerReq f h opRESP 0 [], false)
      | (s, some (.done _)) => (s, false)
      | (s, some (.refused c)) => (s.answerReq f h opRESP c [], false)
      | (s, _) => (s, true)

/-- The outcome of what memory had held for an incoming request (R484): a request for exclusive ownership goes on at the home
agent. -/
def State.fabricDone (s : State) (f : Nat) (x : JFrame) (code : BitVec 16) (data : List Byte) : State :=
  if code = 0 ∧ (x.hdr.op = opCRDX ∨ x.hdr.op = opCUPG) then
    let r := s.fr f
    s.setFr f { r with haQ := ⟨x, s.now (fdDie f), 36⟩ :: r.haQ }
  else (if code = 0 then s.takeMarks x.hdr x.payload.length else s).homeAnswer f x.hdr opRESP code data

/-! ## Lines of this package's caches (R536) -/

/-- The home has taken back a line from the twin, or takes note that the twin has none (R536, R636). A message that failed changes
nothing, and is sent again when the line is needed. -/
def State.recallDone (s : State) (a : Nat) (excl : Bool) (code : BitVec 16) (data : List Byte) : State :=
  if code ≠ 0 then s
  else ({ s with dir := if excl || data.isEmpty then s.dir.drop a else s.dir.set a .shared } : State).armCheck

/-- A line of the twin arrives, or an upgrade is granted (R536): the caches hold it. A line granted exclusive that has
been given up meanwhile is asked for again. -/
def State.lineDone (s : State) (a : Nat) (excl : Bool) (code : BitVec 16) (data : List Byte) : State :=
  if code ≠ 0 then s
  else if data.length = 128 then { s with lines := s.lines.set a ⟨excl, false, data⟩ }
  else
    match s.lines.find a with
    | some l => { s with lines := s.lines.set a { l with excl := true } }
    | none => s

/-! ## Failure of a request of this package (R514, R515) -/

/-- The outstanding request that a response answers: `SEQ` names it, since one counter serves every destination (R513), and
a router on the way may be the one that answers (R520). -/
def State.reqFor (s : State) (h : JHdr) : Option OutReq := s.reqs.find? (fun r => r.seq == h.seq.toNat && !r.held)

/-- Change the outstanding request of a number. -/
def State.modReq (s : State) (seq : Nat) (g : OutReq → OutReq) : State :=
  { s with reqs := s.reqs.map (fun r => if r.seq = seq then g r else r) }

end Sys2Proof.Machine
end

