-- ==== Sys2Proof/Machine/SysOps.lean ====
section
/-! DEFINITION. What the SYS registers show (R33 to R40), the physical numbers of clusters (R29), and the power domains
that units stand in (R757). -/

namespace Sys2Proof.Machine

/-- `SYS_ID` (R33). -/
def State.sysId (s : State) : Word :=
  wd (0x5354 * 2 ^ 48 + 8 * 2 ^ 32 + s.part.grade % 16 * 2 ^ 28 + 2 * 2 ^ 24 + s.part.stepDigit.toNat * 2 ^ 20 + 1 * 2 ^ 12)

/-- `SYS_SIZE` (R34). -/
def State.sysSize (s : State) : Word :=
  let p := s.part
  wd (p.envelope * 2 ^ 52 + p.stacks * 2 ^ 40 + p.stacks * 2 ^ 35 + p.lse * 2 ^ 31 + p.sc * 2 ^ 24 + p.clPerAd * 2 ^ 16
    + p.clusters)

/-- The 128 bytes of the disabled-unit map (R39). -/
def State.dumapBytes (s : State) : List Byte := leBytes 128 s.part.dumap.toNat

/-- The 64 bytes of `SYS_DUMAP0` to `SYS_DUMAP7` (R40). -/
def State.dumapDigest (s : State) : List Byte := sha512 s.dumapBytes

/-- The clusters that are not disabled, by physical number (R29, R39). -/
def Part.enabledCl (p : Part) : List Nat := (upTo 832).filter (fun b => !p.dumap.getLsbD b)

/-- The physical number of logical cluster n (R29). -/
def Part.physCl (p : Part) (n : Nat) : Nat := nth p.enabledCl 0 n

/-- `SYS_QCOUNT` x (R36). -/
def State.sysQcount (s : State) (x : Nat) : Word :=
  wd ((upTo 8).foldl (fun a j =>
    a + ((upTo 52).filter (fun i => !s.part.dumap.getLsbD ((8 * x + j) * 52 + i))).length * 2 ^ (6 * j)) 0)

/-- `PWR_DOMAIN` (R783). -/
abbrev pwrDomain : Nat := regAt .pwr 0 0x10

/-- Whether a domain is fully on (R760). -/
def State.domainOn (s : State) (k : Nat) : Bool := bit (s.reg pwrDomain) k && !s.power.turningOn.any (fun x => x.1 == k)

/-- Whether every domain is fully on. -/
def State.allOn (s : State) : Bool := s.reg pwrDomain == wd (2 ^ 44 - 1) && s.power.turningOn.isEmpty

/-- Whether logical cluster n is in a domain that is on (R757: quadrant q of AD d is domain 4d + q). -/
def State.clusterOn (s : State) (n : Nat) : Bool := s.allOn || s.domainOn (s.part.physCl n / 52)

/-- The state with a list of open bytes drawn (log 33). -/
def State.openBytes (s : State) : Nat → List Byte × State
  | 0 => ([], s)
  | k + 1 =>
    let (w, s) := s.openWord
    let (l, s) := State.openBytes s k
    (BitVec.ofNat 8 w.toNat :: l, s)

end Sys2Proof.Machine
end

