-- ==== Sys2Proof/Machine/LseOps.lean ====
section
/-! DEFINITION. The least-squares engine (R372 to R421): fixed-point arithmetic in scale classes, the schedule image, the
phases of an iteration, the exchange with the evaluator and the end of a solve. -/

namespace Sys2Proof.Machine

/-! ## Fixed point (R379 to R389) -/

/-- Integer division by a positive number, rounded to nearest, ties to even. -/
def divEven (a : Int) (b : Nat) : Int :=
  let q := a / (b : Int)
  let r := a - q * b
  if 2 * r > b || (2 * r == b && q % 2 == 1) then q + 1 else q

/-- An addend of `FRAC` f placed on the grid of a result of `FRAC` F (R381). -/
def fxPlace (F v f : Int) : Int := if f ≤ F + 32 then v * 2 ^ (F + 32 - f).toNat else v / 2 ^ (f - F - 32).toNat

/-- The bounds of the 160-bit accumulator and of a 64-bit value (R387). -/
abbrev fxMax : Int := 2 ^ 159 - 1
abbrev fxMin : Int := - 2 ^ 159
abbrev valMax : Int := 2 ^ 63 - 1
abbrev valMin : Int := - 2 ^ 63

/-- Add a placed addend to an accumulator; one that has saturated holds its bound (R387). -/
def fxAccAdd (acc : Int × Bool) (v : Int) : Int × Bool :=
  if acc.2 then acc
  else
    let t := if v < fxMin || fxMax < v then v else acc.1 + v
    if t < fxMin then (fxMin, true) else if fxMax < t then (fxMax, true) else (t, false)

/-- The accumulator of a list of addends (value, `FRAC`) for a result of `FRAC` F (R381, R386). -/
def fxAcc (F : Int) (l : List (Int × Int)) : Int × Bool := l.foldl (fun a x => fxAccAdd a (fxPlace F x.1 x.2)) (0, false)

/-- A rounded result held to 64 bits, and whether it saturated (R387). -/
def clamp64 (v : Int) : Int × Bool := if v < valMin then (valMin, true) else if valMax < v then (valMax, true) else (v, false)

/-- The rounded sum of addends in a class of `FRAC` F, and whether it saturated (R381, R382, R387). -/
def fxSum (F : Int) (l : List (Int × Int)) : Int × Bool :=
  let a := fxAcc F l
  if a.2 then (if a.1 < 0 then valMin else valMax, true) else clamp64 (divEven a.1 (2 ^ 32))

/-- The quotient of a sum of addends by a held divisor of `FRAC` fd, rounded once (R383). -/
def fxQuot (F : Int) (l : List (Int × Int)) (d fd : Int) : Int × Bool :=
  let a := fxAcc F l
  if a.2 then (if a.1 < 0 then valMin else valMax, true)
  else
    let num := if 0 ≤ fd then a.1 * 2 ^ fd.toNat else a.1
    let den := if 0 ≤ fd then d.toNat * 2 ^ 32 else d.toNat * 2 ^ 32 * 2 ^ (-fd).toNat
    clamp64 (divEven num den)

/-- An FP64 value in a class of `FRAC` F (R389); none for a NaN. -/
def fxOfF64 (F : Int) (w : Word) : Option (Int × Bool) :=
  match f64.decode w.toNat with
  | .nan => none
  | .inf s => some (if s then valMin else valMax, true)
  | .fin s m e => some (clamp64 (roundInt .nearestEven s m (e + F)))

/-- The FP64 code of a value of `FRAC` F (R389). -/
def fxToF64 (F v : Int) : Word := wd (f64.round .nearestEven (.fin (decide (v < 0)) v.natAbs (-F))).1

/-- A computed result of a class, and the classes that have saturated so far in order. -/
abbrev Sats := List Nat

/-- A result with its class added to the saturations if it saturated. -/
def sat (c : Nat) (x : Int × Bool) (l : Sats) : Int × Sats := (x.1, if x.2 then l ++ [c] else l)

/-! ## The schedule image (R390 to R394) -/

/-- Section i of an image. -/
def imgSec (img : List Byte) (i : Nat) : List Byte := (img.drop (bytesAt img (0x40 + 8 * i) 4)).take (bytesAt img (0x44 + 8 * i) 4)
abbrev imgClasses (img : List Byte) : Nat := bytesAt img 6 1 + 1
abbrev imgCost (img : List Byte) : Nat := bytesAt img 7 1
abbrev imgN (img : List Byte) : Nat := bytesAt img 0x08 4
abbrev imgM (img : List Byte) : Nat := bytesAt img 0x0C 4
abbrev imgNnzJ (img : List Byte) : Nat := bytesAt img 0x10 4
abbrev imgNnzL (img : List Byte) : Nat := bytesAt img 0x14 4
abbrev imgSupers (img : List Byte) : Nat := bytesAt img 0x18 4
abbrev imgTasks (img : List Byte) : Nat := bytesAt img 0x1C 4

/-- `FRAC` of a class. -/
def imgFrac (img : List Byte) (c : Nat) : Int := sext (bytesAt (imgSec img 0) (8 * c) 1) 8
/-- Row and column of Jacobian entry e (R391, R393). -/
def imgEntry (img : List Byte) (e : Nat) : Nat × Nat := (bytesAt (imgSec img 1) (8 * e + 4) 4, bytesAt (imgSec img 1) (8 * e) 4)
/-- `XCLASS`, `GCLASS` and `SCLASS` of unknown j. -/
def imgX (img : List Byte) (j : Nat) : Nat := bytesAt (imgSec img 2) (4 * j) 1
def imgG (img : List Byte) (j : Nat) : Nat := bytesAt (imgSec img 2) (4 * j + 1) 1
def imgS (img : List Byte) (j : Nat) : Nat := bytesAt (imgSec img 2) (4 * j + 2) 1
/-- `RCLASS` of residual i and `JCLASS` of entry e. -/
def imgR (img : List Byte) (i : Nat) : Nat := bytesAt (imgSec img 3) i 1
def imgJ (img : List Byte) (e : Nat) : Nat := bytesAt (imgSec img 4) e 1

/-- A supernode (R392). -/
structure Super where
  first  : Nat
  ncols  : Nat
  rows   : List Nat
  pc     : Nat
  lc     : Nat
  dc     : Nat
  deriving DecidableEq, Repr

/-- Supernode t of an image. -/
def imgSuper (img : List Byte) (t : Nat) : Super :=
  let s := imgSec img 5
  let o := 32 * t
  { first := bytesAt s o 4, ncols := bytesAt s (o + 4) 4
    rows := (upTo (bytesAt s (o + 8) 4)).map (fun i => bytesAt (imgSec img 6) (4 * (bytesAt s (o + 12) 4 + i)) 4)
    pc := bytesAt s (o + 16) 1, lc := bytesAt s (o + 17) 1, dc := bytesAt s (o + 18) 1 }

/-- All supernodes of an image. -/
def imgSuperList (img : List Byte) : List Super := (upTo (imgSupers img)).map (imgSuper img)

/-- The tasks of an image: kind, target and source (R391). -/
def imgTaskList (img : List Byte) : List (Nat × Nat × Nat) :=
  let s := imgSec img 7
  (upTo (imgTasks img)).map (fun i => (bytesAt s (16 * i + 7) 1, bytesAt s (16 * i) 4, bytesAt s (16 * i + 8) 4))

/-- Strictly ascending numbers. -/
def ascending : List Nat → Bool
  | a :: b :: r => decide (a < b) && ascending (b :: r)
  | _ => true

/-- Whether the supernodes keep to R392: they cover the columns from `from_` on without gap or overlap, their row lists
lie in the section, begin with their own columns and ascend below n; their last 13 bytes are zero. -/
def supersOk (img : List Byte) (n : Nat) : List Nat → Nat → Bool
  | [], c => c == n
  | t :: r, c =>
    let u := imgSuper img t
    let s := imgSec img 5
    let rows := bytesAt s (32 * t + 8) 4
    u.first == c && decide (1 ≤ u.ncols ∧ u.ncols ≤ rows ∧ c + u.ncols ≤ n)
      && decide (4 * (bytesAt s (32 * t + 12) 4 + rows) ≤ (imgSec img 6).length)
      && u.rows.take u.ncols == (upTo u.ncols).map (· + c) && ascending u.rows && u.rows.all (fun i => decide (i < n))
      && bytesAt s (32 * t + 19) 13 == 0 && supersOk img n r (c + u.ncols)

/-- The place among the supernodes of the one that holds column j. -/
def superOf (l : List Super) (j : Nat) : Nat := (findPos (fun u => decide (u.first ≤ j ∧ j < u.first + u.ncols)) l).getD 0

/-- The supernode that holds column j. -/
def superAt (l : List Super) (j : Nat) : Super := nth l ⟨0, 0, [], 0, 0, 0⟩ (superOf l j)

/-- The rows of L in column j, the diagonal included (R392). -/
def rowsOf (l : List Super) (j : Nat) : List Nat := (superAt l j).rows.filter (fun i => decide (j ≤ i))

/-- Whether (i, k) lies in the pattern of L. -/
def inPattern (l : List Super) (i k : Nat) : Bool := (rowsOf l k).contains i

/-- Whether the row lists name every row that JᵀJ brings to L: the columns of each two entries of one row of J. -/
def coversJ (l : List Super) : List (Nat × Nat) → Bool
  | [] => true
  | (i, j) :: r => (r.takeWhile (fun y => y.1 == i)).all (fun y => inPattern l y.2 j) && coversJ l r

/-- Whether the row lists name every row that elimination fills in: what follows the first row below the diagonal of a column lies in
the column of that number. -/
def coversFill (l : List Super) (n : Nat) : Bool :=
  (upTo n).all (fun j =>
    match rowsOf l j with
    | _ :: p :: r => r.all (fun i => inPattern l i p)
    | _ => true)

/-- Whether the row lists name every row of L (R392): those of JᵀJ and of the fill, and no fewer entries than `NNZ_L`. -/
def patternOk (img : List Byte) : Bool :=
  let l := imgSuperList img
  coversJ l ((upTo (imgNnzJ img)).map (imgEntry img)) && coversFill l (imgN img)
    && decide (imgNnzL img ≤ ((upTo (imgN img)).map (fun j => (rowsOf l j).length)).foldl (· + ·) 0)

/-- `HASH` of an image as computed (R393). -/
def imgHash (img : List Byte) : Word :=
  word64 (sha512 (imgSec img 1 ++ imgSec img 2 ++ imgSec img 3 ++ imgSec img 4 ++ imgSec img 5 ++ imgSec img 6)) 0

/-- Whether an image passes R394 for the hash of its descriptor. Its length is the end of its last section (log 35). -/
def imgOk (img : List Byte) (hash : Word) : Bool :=
  let n := imgN img
  let m := imgM img
  let k := imgClasses img
  let secs := (upTo 8).map (fun i => (bytesAt img (0x40 + 8 * i) 4, bytesAt img (0x44 + 8 * i) 4))
  let lens := [8 * k, 8 * imgNnzJ img, 4 * n, m, imgNnzJ img, 32 * imgSupers img, (imgSec img 6).length, 16 * imgTasks img]
  decide (0x80 ≤ img.length) && bytesAt img 0 4 == 0x3845534C && bytesAt img 4 2 == 1
    && decide (imgCost img < k ∧ 1 ≤ n ∧ n ≤ 2097152 ∧ 1 ≤ m ∧ m ≤ 16777216)
    && decide (1 ≤ imgNnzJ img ∧ imgNnzJ img ≤ 268435456 ∧ 1 ≤ imgNnzL img ∧ imgNnzL img ≤ 67108864)
    && secs.all (fun x => decide (x.1 + x.2 ≤ img.length)) && secs.map (·.2) == lens
    && (secs.foldl (fun a x => max a (x.1 + x.2)) 0x80) == img.length
    && (upTo k).all (fun c => bytesAt (imgSec img 0) (8 * c + 1) 7 == 0)
    && ascending ((upTo (imgNnzJ img)).map (fun e => leNat ((imgSec img 1).drop (8 * e) |>.take 8)))
    && (upTo (imgNnzJ img)).all (fun e => decide ((imgEntry img e).1 < m ∧ (imgEntry img e).2 < n ∧ imgJ img e < k))
    && (upTo n).all (fun j => decide (imgX img j < k ∧ imgG img j < k ∧ imgS img j < k) && bytesAt (imgSec img 2) (4 * j + 3) 1 == 0)
    && (upTo m).all (fun i => decide (imgR img i < k))
    && (imgSuperList img).all (fun u => decide (u.pc < k ∧ u.lc < k ∧ u.dc < k))
    && supersOk img n (upTo (imgSupers img)) 0 && patternOk img
    && (imgTaskList img).all (fun x => decide (1 ≤ x.1 ∧ x.1 ≤ 5 ∧ x.2.1 < imgSupers img ∧ x.2.2 < imgSupers img))
    && imgHash img == word64 img 0x20 && word64 img 0x20 == hash

/-! ## The computation (R384 to R386) -/

/-- The key of element (i, j) in the tables of P and L. -/
abbrev ijKey (i j : Nat) : Nat := i + j * 2 ^ 24

/-- The place in the task list of the task that brings source column k to a target supernode (R386); kinds 2 and 3
serve the factorisation. Columns that no task names come last. -/
def taskPlace (img : List Byte) (l : List Super) (kinds : List Nat) (target k : Nat) : Nat :=
  let tasks := imgTaskList img
  (findPos (fun x : Nat × Nat × Nat => kinds.contains x.1 && x.2.1 == target &&
    (x.2.2 == superOf l k || (x.1 == 3 && superOf l k == target))) tasks).getD tasks.length

/-- Put k among source columns in task-list order, then ascending (R386). -/
def insertBy (f : Nat → Nat) (k : Nat) : List Nat → List Nat
  | [] => [k]
  | x :: r => if f k < f x then k :: x :: r else x :: insertBy f k r

/-- Source columns in the order of R386. -/
def inTaskOrder (img : List Byte) (l : List Super) (kinds : List Nat) (target : Nat) (ks : List Nat) : List Nat :=
  ks.foldl (fun acc k => insertBy (taskPlace img l kinds target) k acc) []

/-- The Jacobian entries of column j by row: row, value, `FRAC`. -/
def colJ (x : Lse) (j : Nat) : List (Nat × Int × Int) :=
  (upTo (imgNnzJ x.img)).filterMap (fun e =>
    let p := imgEntry x.img e
    if p.2 = j then some (p.1, nth x.j 0 e, imgFrac x.img (imgJ x.img e)) else none)

/-- P = JᵀJ over the pattern of L (R376, R384). -/
def Lse.formP (x : Lse) : Tab Int × Sats :=
  let sl := imgSuperList x.img
  (upTo (imgN x.img)).foldl (fun acc j =>
    let cj := colJ x j
    let c := (superAt sl j).pc
    (rowsOf sl j).foldl (fun (acc : Tab Int × Sats) i =>
      let ci := colJ x i
      let adds := cj.filterMap (fun a => (ci.find? (fun b => b.1 == a.1)).map (fun b => (a.2.1 * b.2.1, a.2.2 + b.2.2)))
      let v := sat c (fxSum (imgFrac x.img c) adds) acc.2
      (acc.1 ++ [(ijKey i j, v.1)], v.2)) acc) ([], [])

/-- g = Jᵀr (R384). -/
def Lse.formG (x : Lse) (l : Sats) : List Int × Sats :=
  (upTo (imgN x.img)).foldl (fun (acc : List Int × Sats) j =>
    let c := imgG x.img j
    let adds := (colJ x j).map (fun a => (a.2.1 * nth x.r 0 a.1, a.2.2 + imgFrac x.img (imgR x.img a.1)))
    let v := sat c (fxSum (imgFrac x.img c) adds) acc.2
    (acc.1 ++ [v.1], v.2)) ([], l)

/-- `CONTROL` (R397). -/
abbrev Lse.control (x : Lse) : Word := nth x.desc 0 12
abbrev Lse.lm (x : Lse) : Bool := bit x.control 1
abbrev Lse.dmode (x : Lse) : Bool := bit x.control 2
abbrev Lse.xfmt (x : Lse) : Bool := bit x.control 3
abbrev Lse.rcont (x : Lse) : Bool := bit x.control 4
abbrev Lse.maxit (x : Lse) : Nat := fld x.control 24 16
abbrev Lse.ldown (x : Lse) : Nat := fld x.control 40 4
abbrev Lse.lup (x : Lse) : Nat := fld x.control 44 4
abbrev Lse.lambda0 (x : Lse) : Int := sfld x.control 48 8

/-- The diagonal of N (R385). -/
def Lse.addDiag (x : Lse) (l : Sats) : List Int × Sats :=
  let sl := imgSuperList x.img
  (upTo (imgN x.img)).foldl (fun (acc : List Int × Sats) j =>
    let c := (superAt sl j).pc
    let f := imgFrac x.img c
    let p := x.p.get 0 (ijKey j j)
    if x.lm then
      let v := sat c (fxSum f [(p, f), if x.dmode then (p, f - x.e) else (1, - x.e)]) acc.2
      (acc.1 ++ [v.1], v.2)
    else (acc.1 ++ [p], acc.2)) ([], l)

/-- The factor as far as it has been computed: L, the scaled entries E, D, and the saturations. -/
structure Fact where
  l    : Tab Int
  e    : Tab Int
  d    : List Int
  sats : Sats
  deriving DecidableEq, Repr

/-- One column of the factorisation (R384); none when its pivot is not positive (R377). -/
def factColumn (x : Lse) (sl : List Super) (a : Fact) (j : Nat) : Option Fact × Sats :=
  let img := x.img
  let t := superOf sl j
  let u := superAt sl j
  let fr := imgFrac img
  let src := inTaskOrder img sl [2, 3] t ((upTo j).filter (fun k => inPattern sl j k))
  let term := fun (i k : Nat) =>
    let w := superAt sl k
    (- (a.l.get 0 (ijKey i k) * a.e.get 0 (ijKey j k)), fr w.lc + fr w.dc)
  let d := sat u.dc (fxSum (fr u.dc) ((nth x.dg 0 j, fr u.pc) :: src.map (term j))) a.sats
  if d.1 ≤ 0 then (none, d.2)
  else
    (some ((rowsOf sl j).filter (fun i => decide (j < i)) |>.foldl (fun (a' : Fact) i =>
      let adds := (x.p.get 0 (ijKey i j), fr u.pc) :: (src.filter (fun k => inPattern sl i k)).map (term i)
      let v := sat u.lc (fxQuot (fr u.lc) adds d.1 (fr u.dc)) a'.sats
      let e := sat u.dc (fxSum (fr u.dc) [(v.1 * d.1, fr u.lc + fr u.dc)]) v.2
      { a' with l := a'.l ++ [(ijKey i j, v.1)], e := a'.e ++ [(ijKey i j, e.1)], sats := e.2 })
      { a with d := a.d ++ [d.1], sats := d.2 }), d.2)

/-- The LDLᵀ factorisation of N (R384); none when a pivot fails, with the saturations up to there. -/
def factCols (x : Lse) (sl : List Super) : List Nat → Fact → Option Fact × Sats
  | [], a => (some a, a.sats)
  | j :: r, a =>
    match factColumn x sl a j with
    | (some a', _) => factCols x sl r a'
    | (none, l) => (none, l)

/-- The step δ from the factor and the gradient (R384). -/
def Lse.solve (x : Lse) : List Int × Sats :=
  let img := x.img
  let sl := imgSuperList img
  let fr := imgFrac img
  let n := imgN img
  let y := (upTo n).foldl (fun (acc : List Int × Sats) j =>
    let c := imgG img j
    let src := inTaskOrder img sl [4] (superOf sl j) ((upTo j).filter (fun k => inPattern sl j k))
    let adds := (- nth x.g 0 j, fr c) ::
      src.map (fun k => (- (x.l.get 0 (ijKey j k) * nth acc.1 0 k), fr (superAt sl k).lc + fr (imgG img k)))
    let v := sat c (fxSum (fr c) adds) acc.2
    (acc.1 ++ [v.1], v.2)) ([], [])
  let z := (upTo n).foldl (fun (acc : List Int × Sats) j =>
    let c := imgS img j
    let v := sat c (fxQuot (fr c) [(nth y.1 0 j, fr (imgG img j))] (nth x.dg 1 j) (fr (superAt sl j).dc)) acc.2
    (acc.1 ++ [v.1], v.2)) ([], y.2)
  (upTo n).reverse.foldl (fun (acc : List Int × Sats) j =>
    let c := imgS img j
    let src := inTaskOrder img sl [5] (superOf sl j) ((rowsOf sl j).filter (fun i => decide (j < i)))
    let adds := (nth z.1 0 j, fr c) ::
      src.map (fun i => (- (x.l.get 0 (ijKey i j) * nth acc.1 0 (i - j - 1)), fr (superAt sl j).lc + fr (imgS img i)))
    let v := sat c (fxSum (fr c) adds) acc.2
    (v.1 :: acc.1, v.2)) ([], z.2)

/-- The cost of residuals (R384). -/
def Lse.costOf (x : Lse) (r : List Int) (l : Sats) : Int × Sats :=
  let c := imgCost x.img
  sat c (fxSum (imgFrac x.img c) ((upTo (imgM x.img)).map (fun i =>
    (nth r 0 i * nth r 0 i, 2 * imgFrac x.img (imgR x.img i))))) l

/-! ## The engine -/

/-- A register of logical LSE n. -/
abbrev lseReg (n o : Nat) : Nat := regAt .lse n o

/-- How engine n reaches memory (R402): class 3, activity USER, its list's tag. -/
def State.lseReq (s : State) (n : Nat) (prio : Bool) : Req := ⟨3, 0, (s.lse n).tenant, prio, s.part.dieOfLse n⟩

/-- Engine n changed by f. -/
def State.modLse (s : State) (n : Nat) (f : Lse → Lse) : State := s.setLse n (f (s.lse n))

/-- The number of a phase (R410). -/
def Phase.num : Phase → Nat
  | .idle => 0 | .load => 1 | .wait => 2 | .test => 3 | .form => 4 | .factor => 5 | .solve => 6 | .publish => 7

/-- Take saturations of a phase into the counts of engine n (R387). -/
def State.lseSats (s : State) (n : Nat) (l : Sats) : State :=
  match l with
  | [] => s
  | c :: _ =>
    let x := s.lse n
    let s := if x.satAny then s else (s.setRfld (lseReg n 0x10) 32 8 c).setRfld (lseReg n 0x10) 40 1 1
    (s.bump (lseReg n 0x10) 0 32 l.length).modLse n (fun y =>
      { y with satAny := true, satClass := if x.satAny then x.satClass else c, satCount := y.satCount + l.length })

/-- `COST` and `REQ_COST`: C(xₐ) as FP64; before it has been computed the word is open (log 33). -/
def Lse.costWord (x : Lse) : Word :=
  if x.known then fxToF64 (imgFrac x.img (imgCost x.img)) x.cost else Config.lseNoCost x.desc x.j x.r

/-- Engine n goes on to write bytes at an address, as `act` says. -/
def State.lseOut (s : State) (n : Nat) (act : LseAct) (a : Word) (d : List Byte) : State :=
  s.modLse n (fun x => { x with act := act, got := [], put := putPieces [(wd (addrLocal a), d)] })

/-- The result half of the exchange block (R403), after `DONE`. -/
def Lse.resultBytes (x : Lse) (code : BitVec 16) (reason : Nat) (cost : Word) : List Byte :=
  leBytes 2 code.toNat ++ leBytes 2 (if x.notice then Code.LSE_WARM_REJECT.toNat else 0) ++ leBytes 1 reason
    ++ leBytes 1 x.cur ++ leBytes 1 x.phase.num ++ leBytes 1 (if x.satAny then x.satClass else 0) ++ leBytes 4 x.facts
    ++ leBytes 4 x.accepted ++ leBytes 4 x.satCount ++ zeros 4 ++ leBytes 8 cost.toNat ++ zeros 24

/-- Whether the resident state is kept after an ending (R415). -/
def keepsResident (code : BitVec 16) (phase : Phase) : Bool :=
  if code = Code.LSE_IMAGE || code = Code.LSE_WORK || code = Code.LSE_MEM_FAULT then false
  else if code = Code.LSE_DEADLINE_ITER || code = Code.LSE_DEADLINE_FACT || code = Code.LSE_STOPPED then phase != .load
  else true

/-- Whether an outcome is a fault, of which the die writes a record (log 32). -/
def lseFault (code : BitVec 16) : Bool :=
  code != 0 && code != Code.LSE_DEADLINE_ITER && code != Code.LSE_DEADLINE_FACT && code != Code.LSE_STOPPED

/-- The solve of engine n ends with a code and a reason (R403, R414, R415): it goes on to write the result half. -/
def State.lseEnd (s : State) (n : Nat) (code : BitVec 16) (reason : Nat) : State :=
  let x := s.lse n
  s.lseOut n (.result code (s.now (s.part.dieOfLse n))) (nth x.desc 0 11 + 0x48) (x.resultBytes code reason x.costWord)

/-- The result half of engine n is written (R401, R415): the entry hears of the outcome. -/
def State.lseFinish (s : State) (n : Nat) (code : BitVec 16) : State :=
  let x := s.lse n
  let s := if code = 0 then s else s.setRfld (lseReg n 0) 32 16 code.toNat
  let s := s.modLse n (fun y =>
    { y with phase := .idle, act := .rest, stop := false, entry := none, resident := y.resident && keepsResident code x.phase })
  let s := if lseFault code then s.raise0 (s.part.dieOfLse n) uLse n code 0 else s
  let status := if x.soft && (code = Code.LSE_DEADLINE_ITER || code = Code.LSE_DEADLINE_FACT) then 0 else code
  match x.entry with
  | some cr => s.targetDone cr n status
  | none => s

/-- The code that a deadline has in a phase (R411). -/
def deadlineCode (p : Phase) : BitVec 16 :=
  match p with
  | .form | .factor | .solve => Code.LSE_DEADLINE_FACT
  | _ => Code.LSE_DEADLINE_ITER

/-- Whether an engine is writing the words that open or close its solve, where it takes no sample. -/
def Lse.closed (x : Lse) : Bool :=
  match x.act with
  | .begin0 | .begin1 | .result _ _ | .last _ => true
  | _ => false

/-- A sample of engine n (R411, R413): none when the solve goes on. A deadline comes before a stop (log 35). -/
def State.lseDue (s : State) (n : Nat) : Option (BitVec 16) :=
  let x := s.lse n
  if x.phase = .idle || x.closed then none
  else if x.deadline ≠ 0 && decide (x.deadline ≤ s.now (s.part.dieOfLse n)) then some (deadlineCode x.phase)
  else if x.stop then some Code.LSE_STOPPED
  else none

/-- Add cycles to `LSE_CYCLES` (R420). -/
def State.lseCount (s : State) (n c : Nat) : State := s.bump (lseReg n 0x28) 0 48 c

/-- The multiply-accumulates of the phase that engine n is in (R390, R417); 0 where it computes nothing. -/
def Lse.macs (x : Lse) : Nat :=
  match x.phase with
  | .form => if x.fresh then bytesAt x.img 0x30 8 else imgN x.img
  | .factor => bytesAt x.img 0x38 8
  | .solve => 2 * imgNnzL x.img
  | _ => 0

/-- Take a sample: end the solve when it is due; the cycles of a compute phase that it cuts count (R420, log 34). -/
def State.lseSample (s : State) (n : Nat) : State :=
  match s.lseDue n with
  | some c =>
    let x := s.lse n
    let k := if x.macs = 0 then 0 else Config.lseCut x.phase.num x.macs (s.now (s.part.dieOfLse n))
    (s.lseCount n k).lseEnd n c 3
  | none => s

/-- Engine n enters a phase, at whose start it samples. -/
def State.lseEnter (s : State) (n : Nat) (p : Phase) : State := (s.modLse n (fun x => { x with phase := p })).lseSample n

/-- The saturations of a phase that has run end the solve when `RCONT` = 0 (R388); otherwise go on with `k`. -/
def State.lsePhaseSats (s : State) (n : Nat) (l : Sats) (k : State → State) : State :=
  let s := s.lseSats n l
  if !l.isEmpty && !(s.lse n).rcont then s.lseEnd n Code.LSE_RANGE 3 else k s

/-- Add the cycles of the compute phase that ends (R417, R420, log 34). -/
def State.lseCycles (s : State) (n : Nat) : State :=
  s.lseCount n (Config.lseCycles (s.lse n).phase.num (s.lse n).macs)

/-! ## Starting (R395 to R400) -/

/-- Whether a range of this package's HBM is named. -/
def State.inHbm (s : State) (a : Word) (len : Nat) : Bool := addrPkg a == s.pkg && decide (addrLocal a + len ≤ s.part.hbm) && decide (addrLocal a < s.part.hbm)

/-- Whether a descriptor breaks R396 or R397, or names an address outside the local HBM (R398). -/
def State.lseDescBad (s : State) (d : List Word) : Bool :=
  let w := fun i => nth d 0 i
  let c := w 12
  let lm := bit c 1
  let ring := w 10
  !( (w 0).toNat % 64 == 0 && s.inHbm (w 0) (w 1).toNat
    && (w 3).toNat % 4096 == 0 && s.inHbm (w 3) (w 4).toNat
    && (w 5).toNat % 8 == 0 && s.inHbm (w 5) 0 && (w 6).toNat % 8 == 0 && s.inHbm (w 6) 0
    && s.inHbm (w 7) 0 && s.inHbm (w 8) 0
    && (w 9).toNat % 64 == 0 && s.inHbm (w 9) (fld ring 32 32 * fld ring 0 8)
    && fld ring 8 24 == 0 && fld ring 32 32 % 64 == 0 && decide (128 ≤ fld ring 32 32 ∧ 1 ≤ fld ring 0 8 ∧ fld ring 0 8 ≤ 16)
    && (w 11).toNat % 64 == 0 && s.inHbm (w 11) 128
    && fld c 56 8 == 0 && fld c 5 19 == 0 && decide (1 ≤ fld c 24 16)
    && (if lm then decide (-64 ≤ sfld c 48 8 ∧ sfld c 48 8 ≤ 63) && decide (1 ≤ fld c 44 4)
        else fld c 48 8 == 0 && fld c 44 4 == 0 && !bit c 2)
    && !bit (w 13) 63 && w 14 == 0 && w 15 == 0)

/-- Engine n accepts an entry and starts its solve (R398 to R400, R404): `DONE`, then `REQ_SEQ` are to be cleared, and a warm
start skips LOAD. -/
def State.lseStart (s : State) (n : Nat) (d : List Word) (deadline : Word) (soft : Bool) (tenant : BitVec 12)
    (cr : Creator) : State :=
  let x := s.lse n
  let c := nth d 0 12
  let warm := bit c 0 && x.resident && nth d 0 2 == x.hash && decide ((nth d 0 3, nth d 0 4) = x.work)
  let s := (s.setReg (lseReg n 0x10) 0).setLse n
    { x with
      phase := if warm then .publish else .load
      desc := d, entry := some cr, tenant := tenant, soft := soft, deadline := deadline, stop := false
      warm := warm, notice := bit c 0 && !warm, cur := 0, req := 0, e := sfld c 48 8, facts := 0, accepted := 0
      prev := 0, cost := 0, known := false, fresh := true, satAny := false, satClass := 0, satCount := 0
      resident := warm }
  s.lseOut n .begin0 (nth d 0 11 + 0x40) (zeros 8)

/-! ## The phases -/

/-- 64-bit fixed-point values as they stand in memory. -/
def fxList (b : List Byte) : List Int := (chunks 8 b).map (fun w => sext (leNat w) 64)

/-- MR3 extended (R654, R664). -/
def State.extendMr (s : State) (r : Nat) (d : List Byte) : State :=
  { s with sec := { s.sec with mr := modAt s.sec.mr r (fun m => sha512 (m ++ d)) } }

/-- A measurement of a program that a job's dispatcher loads: MR3 extended with its SHA-512, from arming until teardown
(R664). -/
def State.measure (s : State) (img : List Byte) : State :=
  if s.jobState = 1 || s.jobState = 2 then s.extendMr 3 (sha512 img) else s

/-- The image of a cold start has come (R394): it is refused, or goes to the work area. -/
def State.lseImage (s : State) (n : Nat) (img : List Byte) : State :=
  let d := fun i => nth (s.lse n).desc 0 i
  if !imgOk img (d 2) then s.lseEnd n Code.LSE_IMAGE 3
  else if (d 4) < word64 img 0x28 then s.lseEnd n Code.LSE_WORK 3
  else (s.modLse n (fun y => { y with img := img })).lseOut n .work (d 3) (img.take (d 4).toNat)

/-- LOAD is done (R400): the schedule is resident and measured (R664). -/
def State.lseLoaded (s : State) (n : Nat) : State :=
  let d := fun i => nth (s.lse n).desc 0 i
  ((s.modLse n (fun y => { y with hash := d 2, work := (d 3, d 4), resident := true, act := .rest })).measure (s.lse n).img).lseEnter
    n .publish

/-- The end of FORM (R376, R385). -/
def State.lseForm (s : State) (n : Nat) : State :=
  let x := s.lse n
  let (x', l) :=
    if x.fresh then
      let p := x.formP
      let g := x.formG p.2
      ({ x with p := p.1, g := g.1 }, g.2)
    else (x, [])
  let dg := x'.addDiag l
  let s := (s.lseCycles n).setLse n { x' with dg := dg.1, facts := x.facts + 1 }
  s.lsePhaseSats n dg.2 (fun s => s.lseEnter n .factor)

/-- A rejection, or a pivot failure in Levenberg–Marquardt mode: the exponent rises (R375, R377), and the next FORM
recomputes the diagonal only. -/
def State.lseReject (s : State) (n : Nat) : State :=
  let x := s.lse n
  let e := x.e + x.lup
  let s := s.modLse n (fun y => { y with e := e, fresh := false })
  if 63 < e then s.lseEnd n Code.LSE_LAMBDA_MAX 3
  else if x.facts = x.maxit then s.lseEnd n 0 2
  else s.lseEnter n .form

/-- The end of FACTOR (R377, R384). -/
def State.lseFactor (s : State) (n : Nat) : State :=
  let x := s.lse n
  let f := factCols x (imgSuperList x.img) (upTo (imgN x.img)) ⟨[], [], [], []⟩
  let s := s.lseCycles n
  s.lsePhaseSats n f.2 (fun s =>
    match f.1 with
    | some a => (s.modLse n (fun y => { y with l := a.l, dg := a.d })).lseEnter n .solve
    | none => if x.lm then s.lseReject n else s.lseEnd n Code.LSE_PIVOT 3)

/-- The end of SOLVE (R384). -/
def State.lseSolve (s : State) (n : Nat) : State :=
  let x := s.lse n
  let d := x.solve
  let s := (s.lseCycles n).modLse n (fun y => { y with x := d.1, req := y.req + 1 })
  s.lsePhaseSats n d.2 (fun s => s.lseEnter n .publish)

/-- The point xₐ of a buffer in fixed point (R396, R389); what a NaN there becomes is open (log 33). -/
def lseTake (x : Lse) : List (List Byte) → Nat → Sats → List Int × Sats
  | [], _, l => ([], l)
  | w :: r, j, l =>
    let f := imgFrac x.img (imgX x.img j)
    let v := if x.xfmt then sat (imgX x.img j) ((fxOfF64 f (wd (leNat w))).getD ((Config.lseNan f (wd (leNat w))).toInt, false)) l
      else (sext (leNat w) 64, l)
    let (vs, l) := lseTake x r (j + 1) v.2
    (v.1 :: vs, l)

/-- The candidate x꜀ = xₐ + δ of unknown j on (R384). -/
def lseAdd (x : Lse) : List Int → Nat → Sats → List Int × Sats
  | [], _, l => ([], l)
  | v :: r, j, l =>
    let c := imgX x.img j
    let y := sat c (fxSum (imgFrac x.img c) [(v, imgFrac x.img c), (nth x.x 0 j, imgFrac x.img (imgS x.img j))]) l
    let (vs, l) := lseAdd x r (j + 1) y.2
    (y.1 :: vs, l)

/-- The bytes of a point as a buffer holds it (R397 `XFMT`). -/
def lsePut (x : Lse) : List Int → Nat → List Byte
  | [], _ => []
  | v :: r, j => leBytes 8 (if x.xfmt then (fxToF64 (imgFrac x.img (imgX x.img j)) v) else wdInt v).toNat ++ lsePut x r (j + 1)

/-- The address of buffer b (R396). -/
def Lse.buf (x : Lse) (b : Nat) : Word := nth x.desc 0 (5 + b)

/-- The request half goes out for the current request, its first word last (R403, R404). -/
def State.lseRequest (s : State) (n : Nat) (sat : Bool) : State :=
  let x := s.lse n
  let b := if x.req = 0 then 0 else 1 - x.cur
  s.lseOut n (.body sat) (nth x.desc 0 11 + 8)
    (leBytes 1 b ++ leBytes 1 x.prev ++ leBytes 1 (wdInt x.e).toNat ++ zeros 5 ++ leBytes 8 x.costWord.toNat ++ zeros 40)

/-- The accepted point has come: the candidate goes to the other buffer (R404). -/
def State.lseCandidate (s : State) (n : Nat) (b : List Byte) : State :=
  let x := s.lse n
  let (xa, l) := lseTake x (chunks 8 b) 0 []
  let (xc, l) := lseAdd x xa 0 l
  (s.lseSats n l).lseOut n (.cand (!l.isEmpty)) (x.buf (1 - x.cur)) (lsePut x xc 0)

/-- The request is published (R373, R388). -/
def State.lsePublished (s : State) (n : Nat) (sat : Bool) : State :=
  if sat && !(s.lse n).rcont then s.lseEnd n Code.LSE_RANGE 3
  else (s.modLse n (fun y => { y with act := .rest })).lseEnter n .wait

/-! ## Batches (R405 to R409) -/

/-- The entries of a batch as (kind, index, value), none when a reserved bit is set or a kind, an index or a value fails
R408. -/
def batchOk (img : List Byte) (e : Word × Word) : Bool :=
  let k := fld e.1 60 4
  let i := fld e.1 0 32
  fld e.1 32 28 == 0 && decide (k < 4) && decide (i < if k % 2 = 0 then imgNnzJ img else imgM img)
    && (decide (k < 2) || (fxOfF64 0 e.2).isSome)

/-- One entry applied to Jacobian and residuals (R406, R407). -/
def batchApply (img : List Byte) (a : List Int × List Int × Sats) (e : Word × Word) : List Int × List Int × Sats :=
  let k := fld e.1 60 4
  let i := fld e.1 0 32
  let c := if k % 2 = 0 then imgJ img i else imgR img i
  let v := if k < 2 then (sext e.2.toNat 64, a.2.2) else
    match fxOfF64 (imgFrac img c) e.2 with
    | some v => sat c v a.2.2
    | none => (0, a.2.2)
  if k % 2 = 0 then (modAt a.1 i (fun _ => v.1), a.2.1, v.2) else (a.1, modAt a.2.1 i (fun _ => v.1), v.2)

/-- The slot of the expected batch (R405). -/
def Lse.slotAddr (x : Lse) : Word :=
  let cfg := nth x.desc 0 10
  nth x.desc 0 9 + wd (x.req % fld cfg 0 8 * fld cfg 32 32)

/-- TEST on a batch (R375, R378, R388, R409): it is applied and judged, and its slot is to be freed. -/
def State.lseTest (s : State) (n : Nat) (es : List (Word × Word)) : State :=
  let x := s.lse n
  let (j, r, l) := es.foldl (batchApply x.img) (x.j, x.r, [])
  let (cc, l) := x.costOf r l
  let s := s.lseSats n l
  let free := fun (s : State) (k : LseNext) => s.lseOut n (.clear k) x.slotAddr (zeros 8)
  if !l.isEmpty && !x.rcont then free s (.end_ Code.LSE_RANGE 3)
  else if x.req = 0 then
    free (s.modLse n (fun y => { y with j := j, r := r, cost := cc, known := true, fresh := true })) .form
  else if !x.lm || cc < x.cost then
    let s := s.modLse n (fun y =>
      { y with j := j, r := r, cost := cc, cur := 1 - x.cur, prev := 1, fresh := true, accepted := x.accepted + 1
               e := if x.lm then max (x.e - x.ldown) (-64) else x.e })
    if (x.cost - cc).natAbs ≤ (nth x.desc 0 13).toNat then free s (.end_ 0 1)
    else if x.facts = x.maxit then free s (.end_ 0 2)
    else free s .form
  else free (s.modLse n (fun y => { y with prev := 2 })) .reject

/-- The slot of a tested batch is free (R409). -/
def State.lseTested (s : State) (n : Nat) (k : LseNext) : State :=
  let s := s.modLse n (fun y => { y with act := .rest })
  match k with
  | .end_ c r => s.lseEnd n c r
  | .form => s.lseEnter n .form
  | .reject => s.lseReject n

/-- The header of the expected slot has come (R408): nothing there, a batch that fails, or one whose entries are to be read. -/
def State.lseHeader (s : State) (n : Nat) (hd : List Byte) : State :=
  let x := s.lse n
  let count := bytesAt hd 8 4
  if word64 hd 0 = 0 then s.modLse n (fun y => { y with act := .rest })
  else if word64 hd 0 ≠ wd (x.req + 1) || bytesAt hd 12 52 ≠ 0 || fld (nth x.desc 0 10) 32 32 < 64 + 16 * count then
    s.lseEnd n Code.LSE_DELTA 3
  else s.modLse n (fun y => { y with act := .batch count })

/-- The entries of a batch have come (R408): their checks, then TEST. -/
def State.lseBatch (s : State) (n : Nat) (b : List Byte) : State :=
  let es := (chunks 16 b).map (fun e => (word64 e 0, word64 e 8))
  if !es.all (batchOk (s.lse n).img) then s.lseEnd n Code.LSE_DELTA 3
  else
    let s := (s.modLse n (fun y => { y with act := .rest })).lseEnter n .test
    if (s.lse n).act = .rest then s.lseTest n es else s

/-! ## Memory

What an engine reads and writes starts piece by piece as memory lets it. What it writes has reached memory before anything that
follows from it: a piece that copy-on-write holds keeps the engine (R404, R483). -/

/-- Engine n reads a range and goes on with its bytes; refused, the solve ends (R421). Also whether it has gone on. -/
def State.lseRead (s : State) (n : Nat) (prio : Bool) (a : Word) (len : Nat) (k : State → List Byte → State) : State × Bool :=
  let (s, got, r) := s.fetch (s.lseReq n prio) (s.lse n).got (addrLocal a) len
  let keep := fun (l : List (Word × List Byte)) => s.modLse n (fun x => { x with got := l })
  match r with
  | .done d => (k (keep []) d, true)
  | .refused _ => ((keep []).lseEnd n Code.LSE_MEM_FAULT 3, true)
  | _ => (keep got, false)

/-- Engine n writes what it has to write and goes on with `k` when all of it is in memory, with `bad` when it is refused. -/
def State.lseWrite (s : State) (n : Nat) (k bad : State → State) : State × Bool :=
  let x := s.lse n
  let (s, r) := s.put (s.lseReq n false) (fun _ _ => .lse n) x.put 0 0
  let s := s.modLse n (fun y => { y with put := r.rest, heldW := y.heldW + r.held })
  if r.code.isSome then (bad (s.modLse n (fun y => { y with put := [] })), true)
  else if r.rest.isEmpty && (s.lse n).heldW = 0 then (k s, true)
  else (s, false)

/-- What engine n has under way with memory goes on by one step; also whether it has gone on. -/
def State.lseStep (s : State) (n : Nat) : State × Bool :=
  let x := s.lse n
  let d := fun i => nth x.desc 0 i
  let set := fun (act : LseAct) (s : State) => s.modLse n (fun y => { y with act := act })
  let fault := fun (s : State) => s.lseEnd n Code.LSE_MEM_FAULT 3
  match x.act with
  | .rest => (s, false)
  | .begin0 => s.lseWrite n (fun s => s.lseOut n .begin1 (d 11) (zeros 8)) fault
  | .begin1 => s.lseWrite n (fun s => (set .rest s).lseSample n) fault
  | .image => s.lseRead n false (d 0) (d 1).toNat (fun s b => s.lseImage n b)
  | .work => s.lseWrite n (set .jbase) fault
  | .jbase => s.lseRead n false (d 7) (8 * imgNnzJ x.img) (fun s b => set .rbase (s.modLse n (fun y => { y with j := fxList b })))
  | .rbase => s.lseRead n false (d 8) (8 * imgM x.img) (fun s b => (s.modLse n (fun y => { y with r := fxList b })).lseLoaded n)
  | .point => s.lseRead n false (x.buf x.cur) (8 * imgN x.img) (fun s b => s.lseCandidate n b)
  | .cand f => s.lseWrite n (fun s => s.lseRequest n f) fault
  | .body f => s.lseWrite n (fun s => s.lseOut n (.seq f) (d 11) (leBytes 8 (x.req + 1))) fault
  | .seq f => s.lseWrite n (fun s => s.lsePublished n f) fault
  | .poll => s.lseRead n true x.slotAddr 64 (fun s b => s.lseHeader n b)
  | .batch c => s.lseRead n false (x.slotAddr + 64) (16 * c) (fun s b => s.lseBatch n b)
  | .clear k => s.lseWrite n (fun s => s.lseTested n k) fault
  | .result c t =>
    s.lseWrite n (fun s => s.lseOut n (.last c) (d 11 + 0x40) (leBytes 8 t.toNat)) (set (.result Code.LSE_MEM_FAULT t))
  | .last c => s.lseWrite n (fun s => s.lseFinish n c) (set (.last Code.LSE_MEM_FAULT))

/-- What engine n has under way with memory goes on as far as memory lets it. -/
def State.lseGo (s : State) (n : Nat) : Nat → State
  | 0 => s
  | fuel + 1 =>
    match s.lseStep n with
    | (s, true) => State.lseGo s n fuel
    | (s, false) => s

/-- What engine n has under way with memory goes on. -/
def State.lseRun (s : State) (n : Nat) : State := s.lseGo n 16

/-- A write of engine n that memory held has been made, or refused. -/
def State.lseDone (s : State) (n : Nat) (code : BitVec 16) : State :=
  let s := s.modLse n (fun y => { y with heldW := y.heldW - 1 })
  let x := s.lse n
  if code = 0 || x.phase = .idle then s.lseRun n
  else
    match x.act with
    | .result _ t => (s.modLse n (fun y => { y with act := .result Code.LSE_MEM_FAULT t })).lseRun n
    | .last _ => (s.modLse n (fun y => { y with act := .last Code.LSE_MEM_FAULT })).lseRun n
    | _ => (s.lseEnd n Code.LSE_MEM_FAULT 3).lseRun n

/-! ## Control (R411, R413, R420) -/

/-- Phases in which the engine samples at task boundaries or polls (R411). -/
def sampled (p : Phase) : Bool := p == .load || p == .wait || p == .form || p == .factor || p == .solve

/-- A write of 1 to `LSE_CTRL.STOP` (R413): the solve ends at its next sample, which in a phase that samples inside itself
follows at once. -/
def lseStopStep (n : Nat) (s : State) : State :=
  if (s.lse n).phase = .idle then s
  else
    let s := s.modLse n (fun x => { x with stop := true })
    if sampled (s.lse n).phase then (s.lseSample n).lseRun n else s

/-- A write of 1 to `LSE_CTRL.DROP` (R420). -/
def lseDropStep (n : Nat) (s : State) : State :=
  if (s.lse n).phase = .idle then s.modLse n (fun x => { x with resident := false }) else s

end Sys2Proof.Machine
end

