-- ==== Sys2Proof/Machine/UuOps.lean ====
section
/-! DEFINITION. The update unit (R422 to R451): stochastic rounding, the four rules, state layouts, and one layer of an
entry. -/

namespace Sys2Proof.Machine

/-! ## Arithmetic (R434 to R438) -/

/-- FP32 product, quotient, square root and difference, rounded to nearest even. -/
def mul32 (a b : BitVec 32) : BitVec 32 := f32of ((f32v a).mul (f32v b))
def div32 (a b : BitVec 32) : BitVec 32 := BitVec.ofNat 32 (f32.divF .nearestEven (f32v a) (f32v b)).1
def sqrt32 (a : BitVec 32) : BitVec 32 := BitVec.ofNat 32 (f32.sqrtF .nearestEven (f32v a)).1
def sub32 (a b : BitVec 32) : BitVec 32 := f32of ((f32v a).add (f32v b).neg)
/-- FP64 square root, rounded to nearest even, and narrowing to FP32. -/
def sqrt64 (a : Word) : Word := wd (f64.sqrtF .nearestEven (f64v a)).1
def narrow64 (a : Word) : BitVec 32 := f32of (f64v a)

/-- The 24-bit rounding value of an element (R437). -/
def uuRandom (seed : Word) (t layer e : Nat) : Nat :=
  let z : Word := seed + wd t * 0x9E3779B97F4A7C15 + wd layer * 0xD1B54A32D192ED03 + wd e * 0xC2B2AE3D27D4EB4F
  let z := (z ^^^ (z >>> 30)) * 0xBF58476D1CE4E5B9
  let z := (z ^^^ (z >>> 27)) * 0x94D049BB133111EB
  let z := z ^^^ (z >>> 31)
  (z >>> 40).toNat

/-- sround of an exact value with a generator value: the code, and whether it saturated (R436). A value that rounds up to
zero from below keeps its sign (log 36). -/
def sround (f : FFmt) (r : Val) (gen : Nat) : Nat × Bool :=
  match r with
  | .nan => (f.nanC, false)
  | .inf s => (f.infC s, false)
  | .fin s m e =>
    if m = 0 then (f.withSign s 0, false)
    else
      let q := f.quantum m e
      if (match f.decode f.maxC with
          | .fin _ mm me => let g := min e me; decide (scaleTo mm me g < scaleTo m e g)
          | _ => false) then (f.withSign s f.maxC, true)
      else if q ≤ e then (f.withSign s (f.encodeMag (scaleTo m e q) q), false)
      else
        let d := 2 ^ (q - e).toNat
        let u := m / d
        let rem := m % d
        if rem = 0 then (f.withSign s (f.encodeMag u q), false)
        else
          let frac := if s then d - rem else rem
          let hi := decide (gen < frac * 2 ^ 24 / d)
          (f.withSign s (f.encodeMag (if hi != s then u + 1 else u) q), false)

/-- pw(β, t) by square and multiply over the 32 bits of t (R438). -/
def uuPow (b : BitVec 32) (t : Nat) : BitVec 32 :=
  (upTo 32).reverse.foldl (fun x k =>
    let x := mul32 x x
    if t / 2 ^ k % 2 = 1 then mul32 x b else x) one32

/-! ## Descriptors (R429, R430) -/

/-- The 128 bytes of a layer's descriptor, field by field. -/
abbrev ldWord (d : List Byte) (o : Nat) : Word := word64 d o
abbrev ldRows (d : List Byte) : Nat := bytesAt d 0x30 4
abbrev ldCols (d : List Byte) : Nat := bytesAt d 0x34 4
abbrev ldNrows (d : List Byte) : Nat := bytesAt d 0x38 4
abbrev ldLayer (d : List Byte) : Nat := bytesAt d 0x3C 2
abbrev ldCfg (d : List Byte) : Nat := bytesAt d 0x3E 2
abbrev ldRule (d : List Byte) : Nat := ldCfg d % 4
abbrev ldPfmt (d : List Byte) : Bool := ldCfg d / 4 % 2 == 1
abbrev ldGfmt (d : List Byte) : Bool := ldCfg d / 8 % 2 == 1
abbrev ldSparse (d : List Byte) : Bool := ldCfg d / 16 % 2 == 1
abbrev ldF32 (d : List Byte) (o : Nat) : BitVec 32 := BitVec.ofNat 32 (bytesAt d o 4)

/-- Bytes of a parameter and of a gradient element. -/
def ldPw (d : List Byte) : Nat := if ldPfmt d then 4 else 2
def ldGw (d : List Byte) : Nat := if ldGfmt d then 4 else 2

/-- A finite FP32 value. -/
def fin32 (x : BitVec 32) : Bool := !(f32v x).isNan && !(f32v x).isInf
/-- 0 ≤ x for an FP32 value. -/
def nonneg32 (x : BitVec 32) : Bool := (Val.zero false).le (f32v x)

/-- The offsets of the arrays of a state region, and its length (R432): each array starts on a 64-byte boundary. -/
def uuArrays (rule : Nat) (sparse : Bool) (rows cols : Nat) : List Nat :=
  let n := rows * cols
  let counts := if sparse then [4 * rows] else []
  match rule with
  | 0 => counts ++ [4 * n]
  | 2 => [4 * rows, 4 * cols, 8 * cols]
  | _ => counts ++ [4 * n, 4 * n]

/-- The start of each array after a place, and the end of the last one. -/
def layout : List Nat → Nat → List Nat
  | [], o => [o]
  | l :: r, o => ((o + 63) / 64 * 64) :: layout r ((o + 63) / 64 * 64 + l)

/-- The starts of the arrays of a layer's state, and the layout's length (R432). -/
def ldLayout (d : List Byte) : List Nat := layout (uuArrays (ldRule d) (ldSparse d) (ldRows d) (ldCols d)) 64

/-- Whether a descriptor breaks R424 or R429. -/
def ldBad (d : List Byte) : Bool :=
  let rows := ldRows d
  let cols := ldCols d
  let unit := fun (x : BitVec 32) => nonneg32 x && (f32v x).lt (f32v one32)
  let small := fun (x : BitVec 32) => fin32 x && nonneg32 x
  !( decide (1 ≤ rows ∧ rows ≤ 2 ^ 24 ∧ 1 ≤ cols ∧ cols ≤ 2 ^ 24 ∧ rows * cols ≤ 2 ^ 31)
    && (ldWord d 0).toNat % 64 == 0 && (ldWord d 8).toNat % 64 == 0 && (ldWord d 16).toNat % 64 == 0
    && (ldWord d 0x20).toNat % 32 == 0
    && (if ldSparse d then (ldWord d 0x28).toNat % 4 == 0 && decide (1 ≤ ldNrows d ∧ ldNrows d ≤ rows)
        else ldWord d 0x28 == 0 && ldNrows d == 0)
    && decide (ldCfg d < 32)
    && unit (ldF32 d 0x48) && unit (ldF32 d 0x4C) && small (ldF32 d 0x50) && small (ldF32 d 0x54) && fin32 (ldF32 d 0x58)
    && (if ldRule d = 3 then fin32 (ldF32 d 0x5C) && (Val.zero false).lt (f32v (ldF32 d 0x5C)) else ldF32 d 0x5C == 0)
    && (d.drop 0x60).all (· == 0) )

/-- Whether a rule is not allowed in the mode or shape of a layer (R430). -/
def ldRuleBad (d : List Byte) : Bool :=
  (ldSparse d && (ldRule d == 2 || ldRule d == 3)) || (ldRule d == 2 && (ldRows d < 2 || ldCols d < 2))

/-- The home-stack part of stack k: its first local address and length (R455). -/
def State.homePart (s : State) (k : Nat) : Nat × Nat :=
  let st := s.part.stPerAd
  let h := s.homeGib (k / st)
  (k / st * (st * stackSize) + st * (24 - h) * 2 ^ 30 + k % st * (h * 2 ^ 30), h * 2 ^ 30)

/-- Whether a range lies in the home-stack part of stack k (R423). -/
def State.atHome (s : State) (k : Nat) (a : Word) (len : Nat) : Bool :=
  let h := s.homePart k
  addrPkg a == s.pkg && decide (h.1 ≤ addrLocal a ∧ addrLocal a + len ≤ h.1 + h.2)

/-- Elements of the gradient (R442). -/
def ldGrads (d : List Byte) : Nat := if ldSparse d then ldNrows d * ldCols d else ldRows d * ldCols d

/-- Whether every region of a layer lies on its home stack (R423). -/
def State.ldPlaced (s : State) (k : Nat) (d : List Byte) : Bool :=
  s.atHome k (ldWord d 0) (ldRows d * ldCols d * ldPw d) && s.atHome k (ldWord d 8) (ldGrads d * ldGw d)
    && s.atHome k (ldWord d 16) (ldWord d 0x18).toNat && s.atHome k (ldWord d 0x20) 32
    && (!ldSparse d || s.atHome k (ldWord d 0x28) (4 * ldNrows d))

/-! ## Memory -/

/-- A register of UU k. -/
abbrev uuReg (k o : Nat) : Nat := regAt .uu k o

/-- How UU k reaches memory: class 4, activity UPDATE, its list's tag (R445, R459). -/
def State.uuReq (s : State) (k : Nat) : Req := ⟨4, 4, (s.uu k).tenant, false, s.part.dieOfStack k⟩

/-- UU k changed by f. -/
def State.modUu (s : State) (k : Nat) (f : Upd → Upd) : State := s.setUu k (f (s.uu k))

/-- Read ranges of local HBM for UU k one after another; what has come stays with the unit. -/
def State.uuReads (s : State) (k : Nat) : List (Word × Nat) → List Byte → State × MemRes
  | [], acc => (s, .done acc)
  | (a, n) :: r, acc =>
    if n = 0 then State.uuReads s k r acc
    else if !s.inHbm a n then (s, .refused 0)
    else
      let (s, got, x) := s.fetch (s.uuReq k) (s.uu k).got (addrLocal a) n
      let s := s.modUu k (fun u => { u with got := got })
      match x with
      | .done b => State.uuReads s k r (acc ++ b)
      | x => (s, x)

/-! ## The rules (R439 to R443) -/

/-- What a layer's rule works on: elements as (index, t, p, g, m, v), all widened to FP32 where they are numbers. -/
structure UElem where
  e : Nat
  t : Nat
  p : BitVec 32
  g : BitVec 32
  m : BitVec 32
  v : BitVec 32
  deriving DecidableEq, Repr

/-- What a rule leaves: parameter codes, first and second moments, clips, and for TRUST ratio and norms. -/
structure URes where
  p     : List Nat
  m     : List (BitVec 32)
  v     : List (BitVec 32)
  clips : Nat
  ratio : BitVec 32
  pn    : Word
  un    : Word
  deriving DecidableEq, Repr

/-- The parameter format of a layer. -/
def ldFmt (d : List Byte) : FFmt := if ldPfmt d then f32 else bf16

/-- The new parameter of an element: sround(p − s × d) (R435). -/
def uuStep (d : List Byte) (s : BitVec 32) (x : UElem) (u : BitVec 32) : Nat × Bool :=
  sround (ldFmt d) ((f32v x.p).add ((f32v s).mul (f32v u)).neg) (uuRandom (ldWord d 0x40) x.t (ldLayer d) x.e)

/-- The new moments of ADAMW and TRUST. -/
def uuMoments (d : List Byte) (x : UElem) : BitVec 32 × BitVec 32 :=
  let b1 := ldF32 d 0x48
  let b2 := ldF32 d 0x4C
  (fma32 b1 x.m (mul32 (sub32 one32 b1) x.g), fma32 b2 x.v (mul32 (sub32 one32 b2) (mul32 x.g x.g)))

/-- (m / bc1) / (sqrt(v / bc2) + eps) at step count t. -/
def uuRatio (d : List Byte) (t : Nat) (m v : BitVec 32) : BitVec 32 :=
  let bc1 := sub32 one32 (uuPow (ldF32 d 0x48) t)
  let bc2 := sub32 one32 (uuPow (ldF32 d 0x4C) t)
  div32 (div32 m bc1) (add32 (sqrt32 (div32 v bc2)) (ldF32 d 0x50))

/-- A result of a rule whose parameters are the given codes. -/
def uuResult (ps : List (Nat × Bool)) (m v : List (BitVec 32)) : URes :=
  ⟨ps.map (·.1), m, v, (ps.filter (·.2)).length, 0, 0, 0⟩

/-- MOMENTUM. -/
def uuMomentum (d : List Byte) (s : BitVec 32) (l : List UElem) : URes :=
  let ms := l.map (fun x => fma32 (ldF32 d 0x48) x.m x.g)
  uuResult ((l.zip ms).map (fun x => uuStep d s x.1 (fma32 (ldF32 d 0x54) x.1.p x.2))) ms (l.map (·.v))

/-- ADAMW. -/
def uuAdamw (d : List Byte) (s : BitVec 32) (l : List UElem) : URes :=
  let mv := l.map (uuMoments d)
  uuResult ((l.zip mv).map (fun x =>
    uuStep d s x.1 (fma32 (ldF32 d 0x54) x.1.p (uuRatio d x.1.t x.2.1 x.2.2)))) (mv.map (·.1)) (mv.map (·.2))

/-- TRUST. -/
def uuTrust (d : List Byte) (s : BitVec 32) (l : List UElem) : URes :=
  let mv := l.map (uuMoments d)
  let us := (l.zip mv).map (fun x => fma32 (ldF32 d 0x54) x.1.p (uuRatio d x.1.t x.2.1 x.2.2))
  let pn := l.foldl (fun a x => add64 a (mul64 (widen64 x.p) (widen64 x.p))) 0
  let un := us.foldl (fun a u => add64 a (mul64 (widen64 u) (widen64 u))) 0
  let ratio :=
    if (f64v pn).isNan || (f64v un).isNan then nan32
    else if (Val.zero false).lt (f64v pn) && (Val.zero false).lt (f64v un) then narrow64 (div64 (sqrt64 pn) (sqrt64 un))
    else one32
  let ratio := min32 ratio (ldF32 d 0x5C)
  let st := mul32 s ratio
  { uuResult ((l.zip us).map (fun x => uuStep d st x.1 x.2)) (mv.map (·.1)) (mv.map (·.2)) with
    ratio := ratio, pn := sqrt64 pn, un := sqrt64 un }

/-- The new row and column factors of FACTORED and its scratch sums (R439, R440), from the old factors. -/
def uuFactors (d : List Byte) (g : List (BitVec 32)) (row col : List (BitVec 32)) :
    List (BitVec 32) × List (BitVec 32) × List Word :=
  let rows := ldRows d
  let cols := ldCols d
  let b2 := ldF32 d 0x4C
  let c2 := sub32 one32 b2
  let q := g.map (fun x => widen64 (fma32 x x (ldF32 d 0x50)))
  let rsum := (upTo rows).map (fun i => ((q.drop (i * cols)).take cols).foldl add64 0)
  let csum := (upTo cols).map (fun j => (upTo rows).foldl (fun a i => add64 a (nth q 0 (i * cols + j))) 0)
  ((rsum.zip row).map (fun x => fma32 b2 x.2 (mul32 c2 (narrow64 (div64 x.1 (nat64 cols))))),
   (csum.zip col).map (fun x => fma32 b2 x.2 (mul32 c2 (narrow64 (div64 x.1 (nat64 rows))))), csum)

/-- FACTORED, from its new factors. -/
def uuFactored (d : List Byte) (s : BitVec 32) (l : List UElem) (row col : List (BitVec 32)) : URes :=
  let rmean := narrow64 (div64 (row.foldl (fun a x => add64 a (widen64 x)) 0) (nat64 (ldRows d)))
  uuResult (l.map (fun x =>
    let vh := div32 (mul32 (nth row 0 (x.e / ldCols d)) (nth col 0 (x.e % ldCols d))) rmean
    uuStep d s x (fma32 (ldF32 d 0x54) x.p (div32 x.g (sqrt32 vh))))) [] []

/-! ## One layer (R427, R431) -/

/-- The widened value of a parameter or gradient code (R70). -/
def uuWiden (isF32 : Bool) (c : Nat) : BitVec 32 := f32of ((if isF32 then f32 else bf16).decode c)

/-- The numbers of `w` bytes each that bytes hold. -/
def uuCodes (w : Nat) (b : List Byte) : List Nat := (chunks w b).map leNat

/-- FP32 codes as bytes. -/
def f32Bytes (l : List (BitVec 32)) : List Byte := l.flatMap (fun x => leBytes 4 x.toNat)

/-- A layer's result record (R431). -/
def uuRecord (code : BitVec 16) (nang : Nat) (r : URes) : List Byte :=
  leBytes 2 code.toNat ++ zeros 2 ++ leBytes 4 nang ++ leBytes 4 r.clips ++ leBytes 4 r.ratio.toNat
    ++ leBytes 8 r.pn.toNat ++ leBytes 8 r.un.toNat

/-- Nothing computed. -/
def URes.none : URes := ⟨[], [], [], 0, 0, 0, 0⟩

/-- A layer of UU k ends with a code, 0 when it has finished (R427, R431): its record goes to `RESULT`, where that is an address
in this package's HBM (log 36). -/
def State.uuEnd (s : State) (k : Nat) (code : BitVec 16) (res : Word) (rec : List Byte) : State :=
  s.modUu k (fun u => { u with
    act := .record code, got := [], put := if s.inHbm res 32 then putPieces [(wd (addrLocal res), rec)] else [] })

/-- A layer of UU k ends without having computed. -/
def State.uuFail (s : State) (k : Nat) (d : List Byte) (code : BitVec 16) : State :=
  s.uuEnd k code (ldWord d 0x20) (uuRecord code 0 URes.none)

/-- Go on with what UU k has read; a refusal ends its work (R427), and what has not come yet is asked for again. -/
def State.uuThen (s : State) (k : Nat) (d : List Byte) (l : List (Word × Nat)) (go : State → List Byte → State) : State :=
  match s.uuReads k l [] with
  | (s, .done b) => go s b
  | (s, .refused _) => s.uuFail k d Code.UU_MEM_FAULT
  | (s, _) => s

/-- The header of a state region matches its layer (R432). -/
def uuHeaderOk (d h : List Byte) : Bool :=
  bytesAt h 4 1 == ldRule d && bytesAt h 5 1 == (if ldSparse d then 1 else 0) && bytesAt h 6 2 == 0
    && bytesAt h 8 4 == ldRows d && bytesAt h 12 4 == ldCols d && (h.drop 16).all (· == 0)

/-- A count one higher, staying at its largest value (R433). -/
def uuCount (t : Nat) : Nat := if t = 0xFFFFFFFF then t else t + 1

/-- The elements of a layer: row indices with their step counts, and the codes read. -/
def uuElems (d : List Byte) (rows : List (Nat × Nat)) (p g : List Nat) (m v : List Nat) : List UElem :=
  let cols := ldCols d
  (upTo (rows.length * cols)).map (fun i =>
    let r := nth rows (0, 0) (i / cols)
    ⟨r.1 * cols + i % cols, r.2, uuWiden (ldPfmt d) (nth p 0 i), uuWiden (ldGfmt d) (nth g 0 i),
     BitVec.ofNat 32 (nth m 0 i), BitVec.ofNat 32 (nth v 0 i)⟩)

/-- Cut codes of parameters into the rows they came from, as writes of `w` bytes an element from base address `a`. -/
def uuRowWrites (d : List Byte) (w : Nat) (a : Word) (rows : List (Nat × Nat)) (l : List Nat) : List (Word × List Byte) :=
  let cols := ldCols d
  (upTo rows.length).map (fun i =>
    (a + wd ((nth rows (0, 0) i).1 * cols * w), ((l.drop (i * cols)).take cols).flatMap (leBytes w)))

/-- The ranges of the listed rows of an array of `w`-byte elements. -/
def uuRowReads (d : List Byte) (w : Nat) (a : Word) (rows : List (Nat × Nat)) : List (Word × Nat) :=
  rows.map (fun r => (a + wd (r.1 * ldCols d * w), ldCols d * w))

/-- Where array i of a layer's state starts. -/
def ldArray (d : List Byte) (i : Nat) : Word := ldWord d 16 + wd (nth (ldLayout d) 0 i)

/-- The place among the state arrays of the first after the row counts. -/
def ldFirst (d : List Byte) : Nat := if ldSparse d then 1 else 0

/-- What a rule reads of its rows: parameters, gradients, moments or factors. -/
def uuRanges (d : List Byte) (rows : List (Nat × Nat)) : List (Word × Nat) :=
  let c := ldFirst d
  let moments := if ldRule d = 0 then [c] else if ldRule d = 2 then [] else [c, c + 1]
  uuRowReads d (ldPw d) (ldWord d 0) rows ++ [(ldWord d 8, ldGrads d * ldGw d)]
    ++ moments.flatMap (fun i => uuRowReads d 4 (ldArray d i) rows)
    ++ (if ldRule d = 2 then [(ldArray d 0, 4 * ldRows d), (ldArray d 1, 4 * ldCols d)] else [])

/-- What a rule leaves: its result with the new factors of FACTORED, and its count of gradients that are no number (R439 to R443). -/
def uuRule (d : List Byte) (eta : BitVec 32) (rows : List (Nat × Nat)) (b : List Byte) :
    URes × (List (BitVec 32) × List (BitVec 32) × List Word) × Nat :=
  let n := rows.length * ldCols d
  let part := fun (o len : Nat) => (b.drop o).take len
  let go := n * ldPw d
  let mo := go + ldGrads d * ldGw d
  let codes := fun (o len : Nat) => uuCodes 4 (part o (4 * len))
  let l := uuElems d rows (uuCodes (ldPw d) (part 0 go)) (uuCodes (ldGw d) (part go (ldGrads d * ldGw d))) (codes mo n) (codes (mo + 4 * n) n)
  let s := mul32 eta (ldF32 d 0x58)
  let f := uuFactors d (l.map (·.g)) ((codes mo (ldRows d)).map (BitVec.ofNat 32))
    ((codes (mo + 4 * ldRows d) (ldCols d)).map (BitVec.ofNat 32))
  let r := match ldRule d with
    | 0 => uuMomentum d s l
    | 1 => uuAdamw d s l
    | 2 => uuFactored d s l f.1 f.2.1
    | _ => uuTrust d s l
  (r, f, (l.filter (fun x => !fin32 x.g)).length)

/-- UU k runs the rule of a layer over its rows and goes on to write what it leaves: step counts and state, then parameters. -/
def State.uuRun (s : State) (k : Nat) (d : List Byte) (t : Nat) (rows : List (Nat × Nat)) : State :=
  s.uuThen k d (uuRanges d rows) (fun s b =>
    let (r, f, nang) := uuRule d (s.uu k).eta rows b
    let c := ldFirst d
    let counts := if ldSparse d then rows.map (fun x => (ldArray d 0 + wd (4 * x.1), leBytes 4 x.2)) else [(ldWord d 16, leBytes 4 t)]
    let state := match ldRule d with
      | 0 => uuRowWrites d 4 (ldArray d c) rows (r.m.map BitVec.toNat)
      | 2 => [(ldArray d 0, f32Bytes f.1), (ldArray d 1, f32Bytes f.2.1), (ldArray d 2, wordsBytes f.2.2)]
      | _ => uuRowWrites d 4 (ldArray d c) rows (r.m.map BitVec.toNat) ++ uuRowWrites d 4 (ldArray d (c + 1)) rows (r.v.map BitVec.toNat)
    let here := fun (l : List (Word × List Byte)) => putPieces (l.map (fun x => (wd (addrLocal x.1), x.2)))
    s.modUu k (fun u => { u with
      got := [], put := here (counts ++ state)
      act := .state (ldPw d) (here (uuRowWrites d (ldPw d) (ldWord d 0) rows r.p)) (leBytes 8 (ldWord d 0x20).toNat ++ uuRecord 0 nang r) }))

/-- UU k takes its layer up to what it writes (R427, R430, R432, R442): descriptor, checks in order, then the rule. -/
def State.uuLayer (s : State) (k : Nat) : State :=
  let u := s.uu k
  -- an unread descriptor names no `RESULT`
  s.uuThen k (List.replicate 128 0xFF) [(u.table + wd (128 * u.idx), 128)] (fun s d =>
    if ldBad d then s.uuFail k d Code.UU_DESC
    else if ldRuleBad d then s.uuFail k d Code.UU_RULE
    else if !s.ldPlaced k d then s.uuFail k d Code.UU_PLACEMENT
    else if (ldWord d 0x18).toNat < nth (ldLayout d) 0 ((ldLayout d).length - 1) then s.uuFail k d Code.UU_STATE
    else
      s.uuThen k d [(ldWord d 16, 64)] (fun s h =>
        if !uuHeaderOk d h then s.uuFail k d Code.UU_STATE
        else if ldSparse d then
          s.uuThen k d [(ldWord d 0x28, 4 * ldNrows d)] (fun s rb =>
            let rows := uuCodes 4 rb
            if !ascending rows || rows.any (fun i => decide (ldRows d ≤ i)) then s.uuFail k d Code.UU_ROWLIST
            else
              s.uuThen k d (rows.map (fun i => (ldWord d 16 + wd (64 + 4 * i), 4))) (fun s cb =>
                s.uuRun k d 0 (rows.zip ((uuCodes 4 cb).map uuCount))))
        else
          let t := uuCount (bytesAt h 0 4)
          s.uuRun k d t ((upTo (ldRows d)).map (fun i => (i, t)))))

/-- UU k has done its work: the entry hears its first non-zero layer code (R428). -/
def State.uuFinish (s : State) (k : Nat) : State :=
  let u := s.uu k
  let s := s.setUu k { u with busy := false, entry := none }
  match u.entry with
  | some cr => s.targetDone cr k u.status
  | none => s

/-- The record of a layer is written (R427): `LAST_CODE`, and the next layer or the end of the work. -/
def State.uuLayerEnd (s : State) (k : Nat) (code : BitVec 16) : State :=
  let s := if code = 0 then s.bump (uuReg k 0x10) 0 48 1
    else (s.setRfld (uuReg k 0) 32 16 code.toNat).raise0 (s.part.dieOfStack k) uUu k code 0
  let u := s.uu k
  let s := s.setUu k { u with act := .rest, status := if u.status = 0 then code else u.status }
  if code = Code.UU_MEM_FAULT || u.count ≤ u.idx + 1 then s.uuFinish k
  else s.setUu k { s.uu k with idx := u.idx + 1 }

/-- UU k writes what it has to write, counting `n` bytes as one parameter (none where n = 0), and goes on with `go` when all of it is
in memory, with `bad` when it is refused; also whether it has gone on. -/
def State.uuWrite (s : State) (k n : Nat) (go bad : State → State) : State × Bool :=
  let u := s.uu k
  let (s, r) := s.put (s.uuReq k) (fun _ len => .uu k (if n = 0 then 0 else len / n)) u.put 0 0
  let s := (if n = 0 then s else s.bump (uuReg k 0x18) 0 48 (r.sent / n)).modUu k
    (fun u => { u with put := r.rest, heldW := u.heldW + r.held })
  if r.code.isSome then (bad (s.modUu k (fun u => { u with put := [] })), true)
  else if r.rest.isEmpty && (s.uu k).heldW = 0 then (go s, true)
  else (s, false)

/-- UU k ends its work on a refusal while it writes a layer whose `RESULT` and record stand in `rec` (R427). -/
def State.uuFault (s : State) (k : Nat) (rec : List Byte) : State :=
  s.uuEnd k Code.UU_MEM_FAULT (word64 rec 0) (uuRecord Code.UU_MEM_FAULT 0 URes.none)

/-- What UU k has under way with memory goes on by one step; also whether it has gone on. -/
def State.uuStep (s : State) (k : Nat) : State × Bool :=
  match (s.uu k).act with
  | .rest => (s, false)
  | .read => let t := s.uuLayer k; (t, decide ((t.uu k).act ≠ .read))
  | .state pw p rec =>
    s.uuWrite k 0 (fun s => s.modUu k (fun u => { u with act := .param pw rec, put := p })) (fun s => s.uuFault k rec)
  | .param pw rec => s.uuWrite k pw (fun s => s.uuEnd k 0 (word64 rec 0) (rec.drop 8)) (fun s => s.uuFault k rec)
  | .record code => s.uuWrite k 0 (fun s => s.uuLayerEnd k code) (fun s => s.uuLayerEnd k Code.UU_MEM_FAULT)

/-- What UU k has under way with memory goes on as far as memory lets it, in at most `fuel` steps. -/
def State.uuGo (s : State) (k : Nat) : Nat → State
  | 0 => s
  | fuel + 1 =>
    match s.uuStep k with
    | (s, true) => State.uuGo s k fuel
    | (s, false) => s

/-- What UU k has under way with memory goes on. -/
def State.uuAct (s : State) (k : Nat) : State := s.uuGo k 4

/-- A write of UU k that memory held has been made, or refused: `n` parameters have been written. -/
def State.uuDone (s : State) (k n : Nat) (code : BitVec 16) : State :=
  let s := s.modUu k (fun u => { u with heldW := u.heldW - 1 })
  if code = 0 then (s.bump (uuReg k 0x18) 0 48 n).uuAct k
  else
    match (s.uu k).act with
    | .state _ _ rec | .param _ rec => (s.uuFault k rec).uuAct k
    | .record _ => (s.modUu k (fun u => { u with act := .record Code.UU_MEM_FAULT })).uuAct k
    | _ => s

/-- UU k accepts an entry (R426): one that names a layer latches `ETA` and clears `VALID`; one that names none completes
at once. -/
def State.uuStart (s : State) (k : Nat) (table : Word) (count : Nat) (tenant : BitVec 12) (cr : Creator) : State :=
  if count = 0 then s.targetDone cr k 0
  else
    (s.setUu k ⟨true, table, count, 0, BitVec.ofNat 32 (s.rfld (uuReg k 8) 0 32), 0, some cr, tenant, .rest, [], [], 0⟩).setRfld (uuReg k 8) 32 1 0

/-- A write of `UU_STEP.ETA` (R449). -/
def uuStepWriteStep (k : Nat) (eta : BitVec 32) (s : State) : State :=
  s.setReg (uuReg k 8) (wd (eta.toNat + 2 ^ 32))

end Sys2Proof.Machine
end

