-- ==== Sys2Proof/Machine/DispOps.lean ====
section
/-! DEFINITION. Dispatchers and what they hand out (R265 to R279, R817): reading an entry with its checks, refusing and
passing entries, loading programs, binding queues, launches, and the submission of a list. -/

namespace Sys2Proof.Machine

/-! ## Lists -/

/-- List l of dispatcher pd. -/
def State.cmdList (s : State) (pd l : Nat) : Option CmdList := (s.dsp pd).lists.find? (fun x => x.id == l)

/-- Change list l of dispatcher pd. -/
def State.modList (s : State) (pd l : Nat) (f : CmdList → CmdList) : State :=
  s.setDsp pd { s.dsp pd with lists := (s.dsp pd).lists.map (fun x => if x.id = l then f x else x) }

/-- The list goes on with its next entry. -/
def State.dspNext (s : State) (pd l : Nat) : State :=
  s.modList pd l (fun x => { x with idx := x.idx + 1, rem := 0, got := [], loc := [], err := 0, fin := none })

/-- The creator tag of the current entry of a list. -/
def creatorOf (pd : Nat) (x : CmdList) : Creator := ⟨pd, x.id, x.idx⟩

/-- The entry fails when offered: the list stops there (R272) and `DSP_LAST` names it (R285). R270 has a record written for an
engine beyond its class count, and no rule has one for another code (log 32). -/
def State.dspFail (s : State) (pd l : Nat) (code : BitVec 16) : State :=
  match s.cmdList pd l with
  | none => s
  | some x =>
    let s := (s.modList pd l (fun x => { x.stop code x.idx (s.now (4 + pd)) with err := 0, fin := none })).dspLast pd x.idx code
    if code = Code.CL_ABSENT_ENGINE then s.raise0 (4 + pd) uDsp pd code 0 else s

/-- The entry has been accepted by its targets (R271): they are running from now on. -/
def State.dspStart (s : State) (pd l : Nat) (targets : List Nat) (h : Word) : State :=
  (s.modList pd l (fun x => { x with runs := x.runs ++ [⟨x.idx, fld h 56 8, bit h 15, targets, []⟩] })).dspNext pd l

/-- Every entry that the list has started has completed (R271). -/
def CmdList.quiet (x : CmdList) : Bool := x.runs.all (fun (r : EntryRun) => r.ended)

/-- The first entry that has failed, in order of index (R272). -/
def CmdList.failed (x : CmdList) : Option (BitVec 16 × Nat) :=
  (x.runs.filter (fun (r : EntryRun) => r.ended && r.code != 0)).foldl (fun (acc : Option (BitVec 16 × Nat)) r =>
    match acc with
    | some y => if r.idx < y.2 then some (r.code, r.idx) else acc
    | none => some (r.code, r.idx)) none

/-! ## Reading -/

/-- How dispatcher pd reaches memory: class 6, activity USER, the tag of the list (R663). -/
def dspReq (pd : Nat) (x : CmdList) (prio : Bool) : Req := ⟨6, 0, x.tenant, prio, 4 + pd⟩

/-- Whether remote pieces that cover a range have come. -/
def covers (got : List (Word × List Byte)) (l : List Word) : Bool := l.all (fun a => got.any (fun g => g.1 == a))

/-- Read a local range for the current entry of list x; what has come stays with the list. -/
def State.dspFetch (s : State) (pd : Nat) (x : CmdList) (prio : Bool) (a len : Nat) : State × MemRes :=
  let loc := match s.cmdList pd x.id with | some y => y.loc | none => []
  let (s, loc, r) := s.fetch (dspReq pd x prio) loc a len
  (s.modList pd x.id (fun y => { y with loc := loc }), match r with | .refused 0 => .refused Code.CL_BAD_COMMAND | r => r)

/-- Read a range for the current entry of a list. A local range is read as memory lets it; of a remote one the requests are sent
(R817). -/
def State.dspRead (s : State) (pd : Nat) (x : CmdList) (prio : Bool) (a : Word) (len : Nat) : State × MemRes :=
  if s.isLocal a then s.dspFetch pd x prio (addrLocal a) len
  else
    let ps := (remotePieces (s.maxData (fdOf (4 + pd)) (addrPkg a) x.tenant) (addrLocal a) len).map
      (fun p => (mkAddr (addrPkg a) p.1, p.2))
    if x.err ≠ 0 then (s, .refused x.err)
    else if 0 < x.rem then (s, .wait)
    else if covers x.got (ps.map (·.1)) then (s, .done (gather x.got a len))
    else
      let s := s.modList pd x.id (fun y => { y with rem := ps.length })
      (ps.foldl (fun s p => s.sendReq (4 + pd) (s.userHdr opREAD p.1 p.2 x.tenant 0) [] (.disp pd x.id p.1)) s, .wait)

/-- Read a range that an entry names and go on with its bytes; until they have come the entry waits. -/
def State.dspNeed (s : State) (pd : Nat) (x : CmdList) (a : Word) (len : Nat) (k : State → List Byte → State) : State :=
  match s.dspRead pd x false a len with
  | (s, .refused c) => s.dspFail pd x.id c
  | (s, .done d) => k s d
  | (s, _) => s

/-- The outcome of a remote read of list l. -/
def State.dspDone (s : State) (pd l : Nat) (a : Word) (code : BitVec 16) (data : List Byte) : State :=
  s.modList pd l (fun x =>
    { x with rem := x.rem - 1, got := if code = 0 then x.got ++ [(a, data)] else x.got, err := if code = 0 then x.err else code })

/-! ## Writing a record -/

/-- List l begins to write a record at a local address; `code` is how a `DIGEST` then ends. -/
def State.dspPutStart (s : State) (pd l a : Nat) (data : List Byte) (code : BitVec 16) : State :=
  s.modList pd l (fun x => { x with put := putPieces [(wd a, data)], fin := some code, err := 0 })

/-- The record of list l goes to memory as it lets it: once it stands there, 0 or the code of a refusal. -/
def State.dspPut (s : State) (pd l : Nat) : State × Option (BitVec 16) :=
  match s.cmdList pd l with
  | none => (s, none)
  | some x =>
    match s.put (dspReq pd x false) (fun _ _ => .digest pd l) x.put 0 0 with
    | (s, p) =>
      let x := { x with
        put := if p.code.isSome then [] else p.rest
        heldW := x.heldW + p.held
        err := if x.err = 0 then p.code.getD 0 else x.err }
      (s.modList pd l (fun _ => x), if x.put.isEmpty && x.heldW == 0 then some x.err else none)

/-- A piece of a record that memory held is written, or refused (R484). -/
def State.dspPutDone (s : State) (pd l : Nat) (code : BitVec 16) : State :=
  s.modList pd l (fun x => { x with heldW := x.heldW - 1, err := if x.err = 0 then code else x.err })

/-! ## Entries (R268 to R272) -/

/-- The `CLASS` of a command, for the commands that exist (R269). -/
def cmdClass (cmd : Nat) : Option Nat :=
  if cmd < 4 || cmd = 0x13 || cmd = 0x60 then some 0
  else if cmd = 0x10 || cmd = 0x11 || cmd = 0x12 then some 1
  else if cmd = 0x20 then some 5
  else if cmd = 0x30 then some 2
  else if cmd = 0x40 then some 3
  else if cmd = 0x50 then some 4
  else none

/-- The argument words that a command uses (R269 and the chapters that it names). -/
def cmdUses (w : List Word) : List Nat :=
  match fld (nth w 0 0) 56 8 with
  | 0x03 => [1] | 0x10 => [1, 2] | 0x11 => [1] | 0x12 => [1, 2, 3, 4, 5]
  | 0x13 => if (nth w 0 1).toNat % 4 < 2 then [1, 2, 3, 4] else [1, 2, 3, 4, 5, 6]
  | 0x20 => [1] | 0x30 => [1, 2, 3] | 0x40 => [1] | 0x50 => [1, 2, 3, 4, 5] | 0x60 => [1, 2, 3]
  | _ => []

abbrev cmdFirst (w : List Word) : Nat := fld (nth w 0 0) 32 16
abbrev cmdCount (w : List Word) : Nat := fld (nth w 0 0) 16 16

/-- The targets of an entry. -/
def cmdTargets (w : List Word) : List Nat := (upTo (cmdCount w)).map (· + cmdFirst w)

/-- Whether an entry is malformed (R269). -/
def cmdBad (w : List Word) : Bool :=
  let h := nth w 0 0
  match cmdClass (fld h 56 8) with
  | none => true
  | some c =>
    fld h 52 4 != c || (cmdCount w == 0) != (c == 0) || fld h 48 4 != 0 || fld h 0 15 != 0
      || (upTo 8).any (fun i => i != 0 && !(cmdUses w).contains i && nth w 0 i != 0)
      || (fld h 56 8 == 0x30 && !decide ((nth w 0 3).toNat < 2))

/-- The class count that `FIRST` + `COUNT` must not exceed (R270). -/
def State.classCount (s : State) (c : Nat) : Nat :=
  match c with
  | 1 => s.part.clusters | 2 => s.part.lse | 3 => s.part.stacks | 4 => 4 | 5 => 2 | _ => 2 ^ 32

/-- A `SNAPSHOT` entry whose `FIRST` and `COUNT` are not 0 and 4 (R629). -/
def snapPairBad (w : List Word) : Bool :=
  fld (nth w 0 0) 56 8 == 0x50 && fld (nth w 0 0) 52 4 == 4 && (cmdFirst w != 0 || cmdCount w != 4)

/-- Why an entry is refused before its own rules are asked, if it is (R269, R270, R629, R760). The rules give no order between the
pair of R629 and the cases of R269 and R270; the model asks R629 first (DESIGN CHOICE, log 104). -/
def State.cmdRefusal (s : State) (w : List Word) : Option (BitVec 16) :=
  let c := fld (nth w 0 0) 52 4
  if snapPairBad w then some Code.SE_DESC
  else if cmdBad w then some Code.CL_BAD_COMMAND
  else if s.classCount c < cmdFirst w + cmdCount w then some Code.CL_ABSENT_ENGINE
  else if c = 1 && (cmdTargets w).any (fun n => !s.clusterOn n) then some Code.PWR_DOMAIN_OFF
  else none

/-- An entry is refused before its own rules are asked; the snapshot engines show their code. -/
def State.cmdFail (s : State) (pd l : Nat) (c : BitVec 16) : State :=
  (if c = Code.SE_DESC then s.seCode c else s).dspFail pd l c

/-- The step of a list at an entry of command `cmd` (R271): it waits behind a `SYNC` entry, reads the entry, refuses a
malformed one, and else does `f`, which leaves the entry where it is when it has to wait. An entry of another known command
is left to its own row. -/
def State.dspRow (s : State) (pd l cmd : Nat) (f : State → CmdList → List Word → State) : State :=
  match s.cmdList pd l with
  | none => s
  | some x =>
    if x.state ≠ .running || x.runs.any (fun (r : EntryRun) => r.sync && !r.ended) then s
    else
      match s.dspRead pd x true (x.addr + wd (64 * x.idx)) 64 with
      | (s', .refused c) => s'.dspFail pd l c
      | (s', .done b) =>
        let w := (upTo 8).map (fun i => word64 b (8 * i))
        if (cmdClass (fld (nth w 0 0) 56 8)).isSome && fld (nth w 0 0) 56 8 ≠ cmd then s
        else
          match s'.cmdRefusal w with
          | some c => s'.cmdFail pd l c
          | none => f s' x w
      | (s', _) => s'

/-! ## Clusters: who holds them (R273) -/

/-- A target is held by an earlier command of dispatcher pd itself: the entry waits (R273). -/
def State.ownHeld (s : State) (pd : Nat) (cr : Creator) (ts : List Nat) : Bool :=
  ts.any (fun n => match (s.cl n).heldBy with | some c => c.unit == pd && c != cr | none => false)

/-- The targets of a `LOAD_PROGRAM` or `BIND_QUEUES` are held by it, or by nothing (R273). -/
def State.holdAll (s : State) (ts : List Nat) (by_ : Option Creator) : State :=
  ts.foldl (fun s n => s.modCl n (fun c => { c with heldBy := by_ })) s

/-- A target is held by a command of the other dispatcher (R273, R274). -/
def State.otherHeld (s : State) (pd : Nat) (ts : List Nat) : Bool :=
  ts.any (fun n => match (s.cl n).heldBy with | some c => c.unit != pd | none => false)

/-! ## Loading a program (R265, R266) -/

/-- The header of a program image: whether it keeps to R265, and the length of the image that it announces. -/
def progHeader (h : List Byte) : Bool × Nat :=
  let words := bytesAt h 8 4
  let wick := bytesAt h 0x0C 4
  (bytesAt h 0 4 == 0x38504348 && bytesAt h 4 2 == 1 && decide (bytesAt h 6 2 < 2) && decide (1 ≤ words ∧ words ≤ 4096)
     && decide (wick ≤ 2048) && wick % 256 == 0 && decide (bytesAt h 0x10 4 < words) && (h.drop 0x14).all (· == 0),
   0x40 + 8 * words + wick)

/-- A cluster's `LOAD_PROGRAM` ends with a status (R266): its entry hears of it. The first target of an entry that takes
the image has it measured (R664). -/
def State.loadEnd (s : State) (n : Nat) (code : BitVec 16) (img : List Byte) : State :=
  match (s.cl n).heldBy with
  | none => s.modCl n (fun c => { c with loading := none })
  | some cr =>
    let s := s.modCl n (fun c => { c with heldBy := none, loading := none })
    let first := match (s.cmdList cr.unit cr.list).bind (fun x => x.runs.find? (fun (r : EntryRun) => r.idx == cr.entry)) with
      | some r => !r.status.any (fun x => x.2 == 0)
      | none => false
    let s := if code = 0 && first then s.measure img else s
    s.targetDone cr n code

/-- The header has been accepted and the copy begins: the old program's bindings go (R210, R245). -/
def State.loadBegin (s : State) (n : Nat) : State :=
  s.modCl n (fun c => { c with st := .empty, bound := false, queues := [], codeWords := 0 })

/-- The whole image is there (R266): instruction and wick memory are written and cleared beyond it. -/
def State.loadFinish (s : State) (n : Nat) (img : List Byte) : State :=
  let words := bytesAt img 8 4
  let s : State := { s with
    mem := memWrL (memWrL (memClear (memClear s.mem (imemKey n 0) (imemKey n 32768)) (wickKey n 0) (wickKey n 2048))
      (imemKey n 0) ((img.drop 0x40).take (8 * words))) (wickKey n 0) (img.drop (0x40 + 8 * words)) }
  (s.modCl n (fun c => { c with
    st := .loaded, codeWords := words, entry := bytesAt img 0x10 4, rfmode := bytesAt img 6 2 % 2 == 1 })).loadEnd n 0 img

/-- An access to the image has failed (R266): the DM's code, the underlying one in `DM_STATUS`. -/
def State.loadFail (s : State) (n : Nat) (remote : Bool) (code : BitVec 16) : State :=
  (s.setRfld (clReg n 0x6000) (if remote then 48 else 32) 16 code.toNat).loadEnd n
    (if remote then Code.CL_DM_REMOTE else Code.CL_DM_MEM_FAULT) []

/-- Read the remote pieces of an image for cluster n. -/
def State.loadAsk (s : State) (n : Nat) (x : ProgLoad) (a : Word) (len : Nat) : State :=
  let d := s.part.dieOfCl n
  let ps := remotePieces (s.maxData (fdOf d) (addrPkg a) s.workTag) (addrLocal a) len
  let s := s.modCl n (fun c => { c with loading := some { x with rem := ps.length } })
  ps.foldl (fun s p =>
    let a := mkAddr (addrPkg a) p.1
    s.sendReq d (s.userHdr opREAD a p.2 s.workTag 0) [] (.load n x.id a)) s

/-- The outcome of a remote piece of image `id` of cluster n (R266). -/
def State.loadDone (s : State) (n id : Nat) (a : Word) (code : BitVec 16) (data : List Byte) : State :=
  match (s.cl n).loading with
  | none => s
  | some x =>
    if x.id ≠ id then s
    else if code ≠ 0 then s.loadFail n true code
    else
      let x := { x with rem := x.rem - 1, got := x.got ++ [(a, data)] }
      if x.rem ≠ 0 then s.modCl n (fun c => { c with loading := some x })
      else if x.body then s.loadFinish n (gather x.got x.addr x.len)
      else
        let h := progHeader (gather x.got x.addr 64)
        if !h.1 || h.2 ≠ x.len then s.loadEnd n Code.CL_IMAGE []
        else
          let s := s.loadBegin n
          if x.len ≤ 64 then s.loadFinish n (gather x.got x.addr x.len)
          else s.loadAsk n { x with body := true } (x.addr + 64) (x.len - 64)

/-- A part of a local image is read for cluster n as memory lets it (R266): on with its bytes, or the load fails. -/
def State.loadPart (s : State) (n : Nat) (x : ProgLoad) (o len : Nat) (k : State → List Byte → State) : State :=
  if !s.moverRange x.addr (o + len) then s.loadEnd n Code.CL_DM_RANGE []
  else
    let (s, loc, r) := s.fetch (s.moverReq n) x.loc (addrLocal x.addr + o) len
    let s := s.modCl n (fun c => { c with loading := c.loading.map (fun y => { y with loc := loc }) })
    match r with
    | .done d => k s d
    | .refused 0 => s.loadEnd n Code.CL_DM_RANGE []
    | .refused c => s.loadFail n false c
    | _ => s

/-- The load of a local image into cluster n goes on as memory lets it (R266): header, checks, then the copy. -/
def State.loadRun (s : State) (n : Nat) : State :=
  match (s.cl n).loading with
  | none => s
  | some x =>
    if !s.isLocal x.addr then s
    else
      s.loadPart n x 0 64 (fun s h =>
        let k := progHeader h
        if !k.1 || k.2 ≠ x.len then s.loadEnd n Code.CL_IMAGE []
        else
          let s := if x.body then s
            else (s.loadBegin n).modCl n (fun c => { c with loading := c.loading.map (fun y => { y with body := true }) })
          match (s.cl n).loading with
          | none => s
          | some y => s.loadPart n y 64 (x.len - 64) (fun s b => s.loadFinish n (h ++ b)))

/-- Cluster n starts to load an image (R266): a local one is read, checked and copied; a remote one is asked for. -/
def State.loadStart (s : State) (a : Word) (len n : Nat) : State :=
  let x : ProgLoad := ⟨(s.cl n).loads, a, len, 0, [], [], false⟩
  let s := s.modCl n (fun c => { c with loads := c.loads + 1, loading := some x })
  if a.toNat % 8 ≠ 0 then s.loadEnd n Code.CL_IMAGE []
  else if !s.isLocal a then s.loadAsk n x a 64
  else s.loadRun n

/-! ## Binding queues (R235, R236) -/

/-- The slice of a binding word: first byte and the byte after its last. -/
def bindSlice (w : Word) : Nat × Nat := (fld w 0 20, fld w 0 20 + fld w 48 6 * fld w 38 10 * 128)

/-- Whether a binding word fails R236 by itself. -/
def bindWordBad (w : Word) : Bool :=
  let prod := fld w 57 3
  let cons := fld w 54 3
  let slot := fld w 38 10
  if !bit w 60 then w != 0
  else
    prod == cons || prod == 3 || decide (4 < prod) || cons == 0 || cons == 3 || decide (4 < cons)
      || !decide (1 ≤ fld w 48 6 ∧ fld w 48 6 ≤ 32) || (slot == 0) != (prod == 0) || decide (512 < slot)
      || fld w 0 20 % 128 != 0 || decide (0x100000 < (bindSlice w).2) || fld w 61 3 != 0 || fld w 20 18 != 0

/-- Whether two slices overlap; empty ones never do. -/
def slicesMeet (a b : Nat × Nat) : Bool := decide (a.1 < b.2 ∧ b.1 < a.2 ∧ a.1 < a.2 ∧ b.1 < b.2)

/-- No two of a list of slices overlap. -/
def slicesApart : List (Nat × Nat) → Bool
  | [] => true
  | a :: r => !r.any (slicesMeet a) && slicesApart r

/-- Whether a binding table fails R236. -/
def bindBad (b : List Byte) : Bool :=
  let ws := (upTo 32).map (fun i => word64 b (16 * i))
  ws.any bindWordBad || (upTo 32).any (fun i => word64 b (16 * i + 8) != 0)
    || !slicesApart ((ws.filter (fun w => bit w 60)).map bindSlice)

/-- The queues of cluster n bound by a table (R235, R273). -/
def State.bindTo (s : State) (n : Nat) (b : List Byte) : State :=
  s.modCl n (fun c => { c with
    bound := true, queues := (upTo 32).map (fun i => (i, { Queue.unbound with bind := word64 b (16 * i) })) })

/-! ## Launches (R274, R567) -/

/-- The first of several lamplighter refusals in the order of R567 (R274). -/
def firstRefusal (l : List (BitVec 16)) : Option (BitVec 16) :=
  [Code.TM_NOT_LOCKED, Code.TM_LATE_LAUNCH, Code.TM_LL_FULL].find? (fun c => l.contains c)

/-- Reserve an entry in the lamplighter of each die: the state and the refusals (R274). -/
def State.reserve (s : State) (t : Word) (cr : Creator) (args : List Word) : List (Nat × List Nat) → State × List (BitVec 16)
  | [] => (s, [])
  | (d, ns) :: r =>
    match s.llRequest d ⟨t, cr, .clusters ns args, false⟩ with
    | (s, some c) => let x := State.reserve s t cr args r; (x.1, c :: x.2)
    | (s, none) => State.reserve (ns.foldl (fun s n => s.modCl n (fun c => { c with pendingLl := true })) s) t cr args r

/-- A reservation aborts a self-test of its clusters (R725). -/
def State.abortTests (s : State) (ns : List Nat) : State :=
  { s with err := { s.err with tests := s.err.tests.map (fun (t : Test) =>
    if t.unit = uCluster && ns.contains t.index then { t with running := false } else t) } }

/-! ## Submission (R277, R278, R817) -/

/-- Whether a submission names bad addresses (R817). -/
def State.submitBad (s : State) (list record : Word) : Bool :=
  list.toNat % 64 != 0 || !s.inHbm list 64 || record.toNat % 32 != 0 || !s.inHbm record 32

/-- A command list is submitted (R278, R625, R817): accepted with its number, or refused with a code. -/
def State.submit (s : State) (pd : Nat) (list start record tag : Word) (by_ : Submitter) : State × BitVec 16 × Nat :=
  let d := s.dsp pd
  if s.jobState = 3 then (s.jobCode Code.JOB_ENDED, Code.JOB_ENDED, 0)
  else if s.submitBad list record then (s, Code.CL_BAD_COMMAND, 0)
  else if 8 ≤ d.lists.length then (s, Code.CL_DSP_FULL, 0)
  else if start.toNat < (s.now (4 + pd)).toNat + 8000 then (s, Code.TM_LATE_LAUNCH, 0)
  else
    match s.llRequest (4 + pd) ⟨start, ⟨pd, d.next, 0⟩, .list pd d.next, true⟩ with
    | (s, some c) => (s, c, 0)
    | (s, none) =>
      (s.setDsp pd ⟨d.lists ++ [⟨d.next, list, start, record, tag, by_, s.workTag, 0, .waiting, [], 0, [], [], 0, 0, [], 0, none⟩], d.next + 1⟩,
        0, d.next)

end Sys2Proof.Machine
end

