-- ==== Sys2Proof/Machine/JobOps.lean ====
section
/-! DEFINITION. The job agent (R609 to R628): starts down the tree of members, acknowledgements, decisions and cancels,
quiet points, and teardown. -/

namespace Sys2Proof.Machine

/-! ## Quiet points (R628, R729) -/

/-- No cluster is RUNNING or PENDING, no dispatcher holds a list, no solve or update-unit entry runs, no collective group is
open, and no snapshot is copying (R628). -/
def State.atRest (s : State) : Bool :=
  s.clusters.all (fun x => x.2.st != .running && !x.2.pendingLl) && s.disps.all (fun x => x.2.lists.isEmpty)
    && s.lses.all (fun x => x.2.phase == .idle) && s.upds.all (fun x => !x.2.busy)
    && (s.openGroup 0).isNone && (s.openGroup 1).isNone
    && (match s.job.snap with | some r => !r.take | none => true)

/-- `DBG_STATUS.DEGRADED` (R729). -/
def State.degraded (s : State) : Bool := s.rfld (regAt .dbg 0 0) 1 1 == 1

/-- `JOB_STATUS.QUIET` (R628, R729). -/
def State.quiet (s : State) : Bool := s.atRest && !s.degraded

/-! ## The registers of the job agent (R648) -/

/-- `JOB_STATUS`. -/
abbrev jobStatus : Nat := regAt .se 0 0x1000

/-- The state, identifier, attempt and tenant of the job that the package serves (R648). -/
def State.setJob (s : State) (st : Nat) (job : BitVec 32) (attempt : Nat) (tenant : BitVec 12) : State :=
  let s := ((s.setRfld jobStatus 0 3 st).setRfld jobStatus 32 32 job.toNat).setRfld jobStatus 24 8 attempt
  { s with job := { s.job with localTag := tenant } }

/-! ## The tree (R612, R613) -/

abbrev jsJob (b : List Byte) : BitVec 32 := BitVec.ofNat 32 (bytesAt b 0 4)
abbrev jsAttempt (b : List Byte) : Nat := bytesAt b 4 1
abbrev jsDepth (b : List Byte) : Nat := bytesAt b 5 1
abbrev jsFanout (b : List Byte) : Nat := bytesAt b 6 2
abbrev jsN (b : List Byte) : Nat := bytesAt b 8 4
abbrev jsTenant (b : List Byte) : Nat := bytesAt b 0x0C 2
abbrev jsRoot (b : List Byte) : Nat := bytesAt b 0x0E 2
abbrev jsTl (b : List Byte) : Word := word64 b 0x10
abbrev jsTa (b : List Byte) : Word := word64 b 0x18

/-- The fields of a `JSTART` lie in the ranges of R612. -/
def jsFieldsOk (b : List Byte) : Bool :=
  decide (jsJob b ≠ 0 ∧ jsAttempt b ≤ 3 ∧ 2 ≤ jsFanout b ∧ jsFanout b ≤ 32 ∧ 1 ≤ jsN b ∧ jsN b ≤ 16384 ∧ jsTenant b < 4096
    ∧ jsRoot b < 16384 ∧ (word64 b 0x20).toNat % 8 = 0 ∧ word64 b 0x38 = 0) && b.length == 128

/-- The package numbers of a manifest (R613). -/
def manifestOf (m : List Byte) : List Nat := (chunks 2 m).map (fun x => leNat x % 2 ^ 14)

/-- The depth of an entry: parent steps to entry 0 (R613). -/
def treeDepth (fanout : Nat) : Nat → Nat → Nat
  | 0, _ => 0
  | fuel + 1, i => if i = 0 then 0 else 1 + treeDepth fanout fuel ((i - 1) / fanout)

/-- The children of an entry (R615). -/
def treeKids (fanout n i : Nat) : List Nat := ((upTo fanout).map (fun j => i * fanout + 1 + j)).filter (· < n)

/-- The ticks of 20 µs. -/
def tick20 : Nat := 80000

/-! ## Starting (R614 to R617, R619) -/

/-- Why a member refuses a start before it has the manifest (R616): its state, the time, and a field outside its range, which the
rules give no code of its own (log 43). A start whose manifest is still on its way keeps others out. -/
def State.jobEarly (s : State) (b : List Byte) : Option (BitVec 16) :=
  if s.jobState ≠ 0 || !s.quiet || s.job.cancelled.contains (jsJob b, jsAttempt b) || s.job.fetch.isSome then some Code.JOB_BUSY
  else if (jsTa b).toNat < (s.now 4).toNat + (jsDepth b + 1) * tick20 then some Code.JOB_LATE
  else if !jsFieldsOk b then some Code.JOB_MANIFEST
  else none

/-- Why a member refuses a start, but for its dispatcher (R616): `m` is the manifest as fetched, `sender` the package that
sent the start (none at the root). -/
def State.jobRefusal (s : State) (b m : List Byte) (sender : Option Nat) : Option (BitVec 16) :=
  let l := manifestOf m
  let me := findPos (· == s.pkg) l
  let parentOk := match me, sender with
    | some i, some p => decide (0 < i) && nth l 0 ((i - 1) / jsFanout b) == p
    | some i, none => i == 0
    | none, _ => false
  match s.jobEarly b with
  | some c => some c
  | none =>
    if m.length ≠ 2 * jsN b || sha512 m ≠ (b.drop 0x40).take 64 || !parentOk then some Code.JOB_MANIFEST
    else if !l.contains s.twin then some Code.JOB_PARTITION
    else if jsTenant b ≠ 0 && !s.mcs.any (fun x => x.2.keys.any (fun k => k.tag.toNat == jsTenant b)) then some Code.JOB_TENANT
    else none

/-- A job message to a package (R611, R709). -/
def State.jobSend (s : State) (peer : Nat) (op : Byte) (data : List Byte) (o : Owner) : State :=
  s.sendReq 4 { hdr0 with dpkg := BitVec.ofNat 14 peer, op := op, len := BitVec.ofNat 10 data.length, tc := 7, act := 5 } data o

/-- Change the start under way. -/
def State.modStart (s : State) (g : JobRun → JobRun) : State := { s with job := { s.job with start := s.job.start.map g } }

/-- The bytes of a `JACK` (R617). -/
def jackBytes (job : BitVec 32) (attempt : Nat) (status : BitVec 16) (count failed : Nat) : List Byte :=
  leBytes 4 job.toNat ++ leBytes 1 attempt ++ zeros 1 ++ leBytes 2 status.toNat ++ leBytes 4 count ++ leBytes 2 failed ++ zeros 2

/-- The children of this member, by manifest index. -/
def JobRun.kids (r : JobRun) : List Nat := treeKids r.fanout r.n r.index

/-- `STATUS`, `COUNT` and `FAILED` of this member and the children that have answered (R617). -/
def JobRun.sum (r : JobRun) : BitVec 16 × Nat × Nat :=
  let here := r.kids.filterMap (fun k => (r.acks.find? (fun a => a.1 == k)).map (·.2))
  let count := here.foldl (fun n a => n + a.2.1) (if r.ownCode = 0 then 1 else 0)
  if r.ownCode ≠ 0 then (r.ownCode, count, nth r.manifest 0 r.index)
  else
    match here.find? (fun a => a.1 != 0) with
    | some a => (a.1, count, a.2.2)
    | none => (0, count, 0)

/-- A member whose children have all answered sends its own `JACK` (R618); the root sends none. -/
def State.tryAck (s : State) : State :=
  match s.job.start with
  | none => s
  | some r =>
    match r.parent with
    | none => s
    | some p =>
      if !r.acked && r.kids.all (fun k => r.acks.any (fun a => a.1 == k)) then
        let (st, n, f) := r.sum
        (s.modStart (fun r => { r with acked := true })).jobSend p.toNat 0x75 (jackBytes r.job r.attempt st n f) .none
      else s

/-- The measurement of an armed start (R664): MR3 is zero and then extended. Of a tenant with no binding the digest of its
identity is open (log 43). -/
def State.measureStart (s : State) (tenant : BitVec 12) (job : BitVec 32) (digest : List Byte) : State :=
  let (ident, s) := match s.sec.bind.find? (fun x => x.1 == tenant) with
    | some x => (x.2, s)
    | none => s.openBytes 64
  let s : State := { s with sec := { s.sec with mr := modAt s.sec.mr 3 (fun _ => zeros 64) } }
  s.extendMr 3 (ident ++ leBytes 4 job.toNat ++ digest)

/-- A start is handled (R614): refused with a code, or armed and forwarded. `maddr` is where this package's own copy of the
manifest stands. -/
def State.jobArm (s : State) (b m : List Byte) (sender : Option Nat) (maddr : Word) (host : Option (Nat × Nat)) :
    State × BitVec 16 :=
  match s.jobRefusal b m sender with
  | some c => (s.jobCode c, c)
  | none =>
    let tenant := BitVec.ofNat 12 (jsTenant b)
    let (t, code, _) := (s.setJob 1 (jsJob b) (jsAttempt b) tenant).submit 0 (word64 b 0x28) (jsTl b) (word64 b 0x30) 0 .job
    if code ≠ 0 then (s.jobCode code, code)
    else
      let l := manifestOf m
      let i := (findPos (· == s.pkg) l).getD 0
      let digest := (b.drop 0x40).take 64
      let r : JobRun := {
        job := jsJob b, attempt := jsAttempt b, depth := jsDepth b, fanout := jsFanout b, n := jsN b, tenant := tenant
        root := BitVec.ofNat 14 (jsRoot b), tl := jsTl b, ta := jsTa b, list := word64 b 0x28, record := word64 b 0x30
        mdigest := digest, manifest := l, maddr := maddr, parent := sender.map (BitVec.ofNat 14), index := i, ownCode := 0
        acks := [], acked := false, gone := [], sentAt := s.now 4, decided := false, host := host }
      let t := t.measureStart tenant r.job digest
      let t : State := { t with job := { t.job with start := some r } }
      let fwd := patch (patch b 5 (leBytes 1 (r.depth + 1))) 0x20 (leBytes 8 maddr.toNat)
      let t := r.kids.foldl (fun t k => t.jobSend (nth l 0 k) 0x74 fwd .none) t
      (t.tryAck, 0)

/-- Remember a start as handled (R614). -/
def State.jobHandled (s : State) (b : List Byte) : State :=
  { s with job := { s.job with handled := s.job.handled ++ [(jsJob b, jsAttempt b)] } }

/-- The outcome of a start goes to the session that asked for it (R624, R704). -/
def State.jobTell (s : State) (job : BitVec 32) (attempt : Nat) (host : Option (Nat × Nat)) (code : BitVec 16) (failed : Nat) : State :=
  let s := if code = 0 then s else s.jobCode code
  match host with
  | some (f, sess) =>
    s.eventTo f sess 1 (leBytes 4 job.toNat ++ leBytes 1 attempt ++ zeros 1 ++ leBytes 2 code.toNat ++ leBytes 2 failed ++ zeros 6)
  | none => s

/-- A start that this package has not armed is refused: its sender hears at once (R616), the root tells the host (R624). -/
def State.jobNo (s : State) (sender : Option Nat) (b : List Byte) (host : Option (Nat × Nat)) (c : BitVec 16) : State :=
  match sender with
  | some p => (s.jobCode c).jobSend p 0x75 (jackBytes (jsJob b) (jsAttempt b) c 0 s.pkg) .none
  | none => s.jobTell (jsJob b) (jsAttempt b) host c s.pkg

/-- How the job agent reaches memory: as its dispatcher, activity MGMT, tag 0 (R611, R615). -/
abbrev jobReq : Req := ⟨6, 5, 0, false, 4⟩

/-- The start whose manifest is here goes on as memory lets it (R614, R615): the copy is written whole, then the start is armed. -/
def State.jobFetchRun (s : State) : State :=
  match s.job.fetch with
  | none => s
  | some x =>
    match x.m with
    | none => s
    | some m =>
      let p := x.sender.map (·.toNat)
      let (s, r) := s.put jobReq (fun _ _ => .jcopy) x.put 0 0
      let set := fun (f : Option JobFetch) (s : State) => ({ s with job := { s.job with fetch := f } } : State)
      match r.code with
      | some c => (set none s).jobNo p x.body x.host (if c = 0 then Code.JOB_MANIFEST else c)
      | none =>
        if r.rest.isEmpty && x.heldW + r.held = 0 then
          match (set none s).jobArm x.body m p x.maddr x.host with
          | (s, 0) => s
          | (s, c) => s.jobNo p x.body x.host c
        else set (some { x with put := r.rest, heldW := x.heldW + r.held }) s

/-- A piece of a manifest copy that memory held has been written, or refused. -/
def State.jobCopied (s : State) (code : BitVec 16) : State :=
  match s.job.fetch with
  | none => s
  | some x =>
    if code = 0 then State.jobFetchRun { s with job := { s.job with fetch := some { x with heldW := x.heldW - 1 } } }
    else State.jobNo { s with job := { s.job with fetch := none } } (x.sender.map (·.toNat)) x.body x.host code

/-- A `JSTART` from a package (R614, R616): a repeated one is ignored, a refusal is told at once, and else the manifest is fetched
from the sender. -/
def State.jobStart (s : State) (sender : Nat) (b : List Byte) : State :=
  if s.job.handled.contains (jsJob b, jsAttempt b) then s
  else
    let s := s.jobHandled b
    match s.jobEarly b with
    | some c => s.jobNo (some sender) b none c
    | none =>
      -- requests count in whole 8-byte words (R709), and so does the end of the manifest (log 43)
      let ps := remotePieces 512 (addrLocal (word64 b 0x20)) ((2 * jsN b + 7) / 8 * 8)
      let s : State := { s with job := { s.job with
        fetch := some ⟨some (BitVec.ofNat 14 sender), b, wd Config.manifestAt.toNat, none, ps.length, [], none, [], 0⟩ } }
      ps.foldl (fun s p => s.sendReq 4 { hdr0 with
        dpkg := BitVec.ofNat 14 sender, daddr := BitVec.ofNat 50 p.1, op := 0x77, len := BitVec.ofNat 10 p.2, tc := 7, act := 5
        arg := wd (jsJob b).toNat } [] (.jman (jsJob b) (jsAttempt b) (wd p.1))) s

/-- The answer to a `JMREAD` of this package (R614, R615): a failed one refuses the start, which the rules give no code of its own
(log 43); with the last the copy is written. -/
def State.jobManifest (s : State) (job : BitVec 32) (attempt : Nat) (a : Word) (code : BitVec 16) (d : List Byte) : State :=
  match s.job.fetch with
  | none => s
  | some x =>
    if jsJob x.body ≠ job ∨ jsAttempt x.body ≠ attempt ∨ x.m.isSome then s
    else if code ≠ 0 then
      State.jobNo { s with job := { s.job with fetch := none } } (x.sender.map (·.toNat)) x.body x.host Code.JOB_MANIFEST
    else
      let x := { x with rem := x.rem - 1, got := x.got ++ [(a, d)] }
      let n := 2 * jsN x.body
      let m := (gather x.got (wd (addrLocal (word64 x.body 0x20))) ((n + 7) / 8 * 8)).take n
      let x := if x.rem = 0 then { x with m := some m, got := [], put := putPieces [(x.maddr, m)] } else x
      State.jobFetchRun { s with job := { s.job with fetch := some x } }

/-- A start from the host at the root, which acts at depth 0 (R611, R619): the manifest is read from the address that the start names.
No code while memory has to be waited for. -/
def State.jobRoot (s : State) (b : List Byte) (host : Option (Nat × Nat)) : State × Option (BitVec 16) :=
  let b := patch b 5 [0]
  let d := treeDepth (jsFanout b) 64 (jsN b - 1)
  let a := word64 b 0x20
  let no := fun (s : State) (c : BitVec 16) => (({ s with job := { s.job with rootGot := [] } } : State).jobCode c, some c)
  if !jsFieldsOk b then no s Code.JOB_MANIFEST
  else if (jsTl b).toNat < (jsTa b).toNat + 800000 ∨ (jsTa b).toNat < (s.now 4).toNat + (d + 1) * tick20 then no s Code.JOB_LATE
  else
    match s.fetch jobReq s.job.rootGot (addrLocal a) (2 * jsN b) with
    | (s, _, .done m) =>
      let (s, c) := (({ s with job := { s.job with rootGot := [] } } : State).jobHandled b).jobArm b m none a host
      (s, some c)
    | (s, _, .refused _) => no s Code.JOB_MANIFEST
    | (s, got, _) => ({ s with job := { s.job with rootGot := got } }, none)

/-! ## Acknowledgements (R618) -/

/-- A `JACK` from a child (R618). -/
def State.jobAck (s : State) (sender : Nat) (d : List Byte) : State :=
  match s.job.start with
  | none => s
  | some r =>
    if jsJob d ≠ r.job ∨ jsAttempt d ≠ r.attempt then s
    else
      match r.kids.find? (fun k => nth r.manifest 0 k == sender) with
      | none => s
      | some k =>
        if r.acks.any (fun a => a.1 == k) then s
        else
          (s.modStart (fun r => { r with
            acks := r.acks ++ [(k, BitVec.ofNat 16 (bytesAt d 6 2), bytesAt d 8 4, bytesAt d 0x0C 2)] })).tryAck

/-- The wait for children ends (R618): those that are silent are recorded so. -/
def State.jobSilent (s : State) : State :=
  match s.job.start with
  | none => s
  | some r =>
    if r.ta.toNat ≤ (s.now 4).toNat + (r.depth + 1) * tick20 then
      let late := r.kids.any (fun k => !r.acks.any (fun a => a.1 == k))
      ((if late then s.jobCode Code.JOB_SILENT else s).modStart (fun r => { r with
        acks := r.acks ++ (r.kids.filter (fun k => !r.acks.any (fun a => a.1 == k))).map
          (fun k => (k, Code.JOB_SILENT, 0, nth r.manifest 0 k)) })).tryAck
    else s

/-! ## Decision and cancel (R620 to R624) -/

/-- The outcome of the start under way (R624). -/
def State.jobEvent (s : State) (r : JobRun) (code : BitVec 16) (failed : Nat) : State :=
  s.jobTell r.job r.attempt r.host code failed

/-- The armed start is given up: the package is IDLE again. -/
def State.jobIdle (s : State) : State :=
  let s := s.setJob 0 0 0 0
  { s with job := { s.job with start := none } }

/-- Cancel the start list that this package has armed (R571, R621): 0, or `TM_CANCEL_LATE`. -/
def State.cancelStart (s : State) : State × BitVec 16 :=
  match (s.dsp 0).lists.find? (fun x => x.by_ == .job) with
  | none => (s, Code.TM_CANCEL_LATE)
  | some x =>
    match s.llCancel 4 ⟨0, x.id, 0⟩ with
    | (s, 0) => (s.setDsp 0 { s.dsp 0 with lists := (s.dsp 0).lists.filter (fun y => y.id != x.id) }, 0)
    | r => r

/-- The other members of a start. -/
def JobRun.others (r : JobRun) : List Nat := (r.manifest.take r.n).drop 1

/-- The packages named in a failure, in the order of their failure (R622). -/
def JobRun.failedPkgs (r : JobRun) : List Nat :=
  (r.acks.filter (fun a => a.2.1 != 0)).foldl (fun l a => if l.contains a.2.2.2 then l else l ++ [a.2.2.2]) []

/-- The bytes of a `JSTART` of the root for a further attempt (R622). -/
def JobRun.startBytes (r : JobRun) (attempt : Nat) (tl ta : Word) (digest : List Byte) : List Byte :=
  leBytes 4 r.job.toNat ++ leBytes 1 attempt ++ leBytes 1 0 ++ leBytes 2 r.fanout ++ leBytes 4 r.n ++ leBytes 2 r.tenant.toNat
    ++ leBytes 2 r.root.toNat ++ leBytes 8 tl.toNat ++ leBytes 8 ta.toNat ++ leBytes 8 r.maddr.toNat ++ leBytes 8 r.list.toNat
    ++ leBytes 8 r.record.toNat ++ zeros 8 ++ digest

/-- Every cancel is confirmed: the root starts again with the failed packages at the end of the manifest, or ends the
start after attempt 3 (R622). -/
def State.jobReissue (s : State) (r : JobRun) : State :=
  let s := s.jobIdle
  if 3 ≤ r.attempt then s.jobEvent r Code.JOB_START_FAILED r.sum.2.2
  else
    let bad := r.failedPkgs
    let l := r.manifest.filter (fun p => !bad.contains p) ++ bad.filter (fun p => r.manifest.contains p)
    let m := l.flatMap (fun p => leBytes 2 p)
    let now := s.now 4
    let b := r.startBytes (r.attempt + 1) (now + (r.tl - r.sentAt)) (now + (r.ta - r.sentAt)) (sha512 m)
    let s := s.jobHandled b
    let put := putPieces [(wd (addrLocal r.maddr), m)]
    State.jobFetchRun { s with job := { s.job with fetch := some ⟨none, b, r.maddr, r.host, 0, [], some m, put, 0⟩ } }

/-- The answer to a `JCANCEL` of the root (R622, R623). -/
def State.jobCancelDone (s : State) (pkg : Nat) (code : BitVec 16) : State :=
  match s.job.start with
  | none => s
  | some r =>
    if !r.decided || r.host.isNone && r.parent.isSome then s
    else if code ≠ 0 then s.jobIdle.jobEvent r Code.JOB_CANCEL_UNKNOWN pkg
    else
      let s := s.modStart (fun r => { r with gone := r.gone ++ [(pkg, code)] })
      if r.gone.length + 1 = r.others.length then s.jobReissue r else s

/-- At `TA` the root decides (R620): the start stands, or it is cancelled everywhere. -/
def State.jobDecide (s : State) : State :=
  match s.job.start with
  | none => s
  | some r =>
    if r.parent.isSome || r.decided || decide ((s.now 4).toNat < r.ta.toNat) then s
    else
      let (st, n, _) := r.sum
      let s := s.modStart (fun r => { r with decided := true })
      if n = r.n ∧ st = 0 then s.jobEvent r 0 0
      else
        match s.cancelStart with
        | (s, 0) =>
          let body := leBytes 4 r.job.toNat ++ leBytes 1 r.attempt ++ zeros 3
          if r.others.isEmpty then s.jobReissue r
          else r.others.foldl (fun s p => s.jobSend p 0x76 body (.job (BitVec.ofNat 14 p))) s
        | (s, _) => s.jobEvent r Code.JOB_CANCEL_UNKNOWN s.pkg

/-- A `JCANCEL` (R621): the code of its answer. -/
def State.jobCancel (s : State) (d : List Byte) : State × BitVec 16 :=
  let key := (jsJob d, jsAttempt d)
  let note := fun (s : State) => ({ s with job := { s.job with cancelled := s.job.cancelled ++ [key] } } : State)
  match s.job.start with
  | none => (note s, 0)
  | some r =>
    if (r.job, r.attempt) ≠ key then (note s, 0)
    else
      match s.cancelStart with
      | (s, 0) => (s.jobIdle, 0)
      | (s, _) => (s.jobCode Code.JOB_CANCEL_LATE, Code.JOB_CANCEL_LATE)

/-! ## Teardown (R625 to R627) -/

/-- Step 1: every lamplighter entry of the job is cancelled, and every list ends with `JOB_ENDED`. -/
def State.tearLists (s : State) : State :=
  let s := (upTo 8).foldl (fun s d =>
    let l := (s.lamp d).entries
    l.foldl (fun s (e : LlEntry) =>
      match e.target with
      | .clusters ns _ => if e.armed then ns.foldl (fun s n => s.targetDone e.creator n Code.JOB_ENDED) s else s
      | _ => s) ((l.foldl (fun s e => s.unhold e) s).setEntries d [])) s
  [0, 1].foldl (fun s pd =>
    s.setDsp pd { s.dsp pd with lists := (s.dsp pd).lists.map (fun x =>
      match x.state with
      | .ended _ _ => x
      | _ => x.stop Code.JOB_ENDED x.idx (s.now (4 + pd))) }) s

/-- Step 2: programs stop with `JOB_ENDED`, and least-squares engines are asked to stop (R231, R413). -/
def State.tearUnits (s : State) : State :=
  let s := (upTo s.part.clusters).foldl (fun s n =>
    if (s.cl n).st = .running then s.stopProgram n Code.JOB_ENDED 0 (s.cl n).pc 0 else s) s
  { s with lses := s.lses.map (fun x => (x.1, if x.2.phase = .idle then x.2 else { x.2 with stop := true })) }

/-- A request to tear down job `job` (R625): 0 when it is accepted; of another job than the one launched there is nothing to
tear down (log 44). -/
def State.teardown (s : State) (job : BitVec 32) (by_ : Option (Nat × Nat)) : State × BitVec 16 :=
  if !s.launched ∨ job ≠ s.jobId then (s.jobCode Code.JOB_ENDED, Code.JOB_ENDED)
  else
    let s : State := { s with job := { s.job with tearBy := s.job.tearBy ++ (match by_ with | some x => [x] | none => []) } }
    if s.jobState = 3 then (s, 0)
    else
      let s := (s.setRfld jobStatus 0 3 3).jobCode Code.JOB_ENDED
      let s := s.tearLists.tearUnits
      let s := if s.snapBusy then s.endSnap Code.SE_CANCELLED else s
      ({ s with job := { s.job with tearStep := 3 } }, 0)

/-- The lines of the twin that this package's caches hold modified go back to it, and no line is held any more (R625,
R759). -/
def State.flushLines (s : State) : State :=
  let l := s.lines
  let s := { s with lines := [] }
  l.foldl (fun s x =>
    if x.2.dirty then s.sendReq 4 (s.lineHdr opCWB x.1 128 0) x.2.data .none else s) s

/-- A solver core that starts at firmware level at `PWR_SCVEC` (R760, R775). -/
def State.freshCore (s : State) (run : Bool) : Core := { Core.reset with pc := s.reg (regAt .pwr 0 0x40), run := run }

/-- The memories, buffers and sets of cluster n are cleared, and it is EMPTY (R625, R759). The rules do not say whether this is a
reset of the cluster for its registers: the model keeps them, `EE_TILES`, the SRU counts and the last codes with them (DESIGN CHOICE,
log 105). -/
def State.clearCluster (s : State) (n : Nat) : State :=
  let m := memClear (memClear (memClear s.mem (fontKey n 0) (fontKey n 0x100000)) (imemKey n 0) (imemKey n 0x10000))
    (wickKey n 0) (wickKey n 0x800)
  let s : State := { s with mem := m }
  if (s.clusters.find n).isSome then
    s.modCl n (fun c => { c with
      st := .empty, bound := false, queues := [], codeWords := 0, entry := 0, tb := [], k := [], bank0 := none, bank1 := none
      sets := [], reads := [], log := [], eePend := [], dm := [], meQ := [], eeQ := [], sruQ := [], dmQ := [] })
  else s

/-- A tenant is erased: its key slots, fabric key and binding (R665). -/
def State.eraseTenant (s : State) (t : BitVec 12) : State :=
  { s with
    mcs := s.mcs.map (fun x => (x.1, { x.2 with keys := x.2.keys.filter (fun k => k.tag != t) }))
    sec := { s.sec with fabric := s.sec.fabric.filter (fun k => k.1 != t), bind := s.sec.bind.filter (fun k => k.1 != t) } }

/-- Steps 4 to 6, and the start of step 7: keys, caches and cores, cluster memories, and the granules whose retag begins. The
write-back of step 5 sends what the caches hold of the twin's lines, as R759 has it (log 44). -/
def State.tearClear (s : State) : State :=
  let tag := s.job.localTag
  let s : State := { s with homeKeys := [], fontKeys := [], outKeys := [] }
  let s := s.flushLines
  let s : State := { s with cores := s.cores.map (fun x => (x.1, s.freshCore x.2.run)) }
  let s := (upTo s.part.clusters).foldl (fun s n => s.clearCluster n) s
  let s : State := { s with lses := s.lses.map (fun x => (x.1, { x.2 with resident := false })) }
  let s := (upTo s.part.stacks).foldl (fun s k => s.setRfld (regAt .uu k 0x08) 32 1 0) s
  let s := if tag = 0 then s else (s.tags.filter (fun x => x.2 == tag)).foldl (fun s x => s.retag x.1 0) s
  { s with job := { s.job with tearStep := 7 } }

/-- Steps 8 and 9: the tenant's keys, and IDLE with an event. -/
def State.tearFinish (s : State) : State :=
  let job := s.jobId
  let s := if s.job.localTag = 0 then s else s.eraseTenant s.job.localTag
  let by_ := s.job.tearBy
  let s := s.jobIdle
  let s : State := { s with job := { s.job with tearStep := 0, tearBy := [] } }
  let body := leBytes 4 job.toNat ++ zeros 4
  let ops := [0, 1].flatMap (fun f => ((s.he f).sessions.filter (fun x => x.role == .operator)).map (fun x => (f, x.id)))
  (by_ ++ ops.filter (fun x => !by_.contains x)).foldl (fun s x => s.eventTo x.1 x.2 2 body) s

/-- Teardown goes on (R625, R626, R628): to step 7 once the package is at rest, and to its end once every granule of the tenant is
retagged. -/
def State.tearStep (s : State) : State :=
  let s := if s.jobState = 3 ∧ s.job.tearStep = 3 ∧ s.atRest then s.tearClear.runRetags else s
  if s.jobState = 3 ∧ s.job.tearStep = 7 ∧ (s.job.localTag = 0 ∨ !s.tags.any (fun x => x.2 == s.job.localTag)) then s.tearFinish
  else s

end Sys2Proof.Machine
end

