-- ==== Sys2Proof/Machine/LinkOps.lean ====
section
/-! DEFINITION. The links of the fabric (R499 to R506): a port leaving UP, the loss of the valley (R538), and the sending
end of a link with its arbitration and budgets (R506, R523, R525). -/

namespace Sys2Proof.Machine

/-- The code of a port (R551). -/
def State.flCode (s : State) (p : Nat) (c : BitVec 16) : State := s.setRfld (flReg p 0) 16 16 c.toNat

/-- The record of a link event of a port (R717). -/
def State.flRec (s : State) (p : Nat) (c : BitVec 16) : Rec := s.rec0 (fdDie (p / 18)) uPort p c 6

/-- A line whose holder, the twin, is lost: when the twin had modified it, both its units become poisoned (R538). -/
def State.lineLost (s : State) (a : Nat) : State :=
  let yes := Config.twinModified s.free
  let s := { s with free := s.free + 1 }
  if yes then
    [0, 64].foldl (fun s o =>
      let (k, off) := s.mapAddr (a + o)
      s.eccPoison k off (a + o)) s
  else s

/-- Both twin ports have left UP (R538, R639): the twin's holders leave the directory, the copies of the twin's lines are
gone, and a snapshot that copies to the twin ends. -/
def State.loseValley (s : State) (p : Nat) : State :=
  let excl := s.dir.filter (fun x => x.2 == .exclusive)
  let s := { s with valleyLost := true, valleyOwn := false, dir := [], lines := [] }
  let s := excl.foldl (fun s x => s.lineLost x.1) s
  let s := (s.flCode p Code.FAB_VALLEY_LOST).raise (s.flRec p Code.FAB_VALLEY_LOST)
  s.snapTwinLost

/-- A port leaves UP (R500): its buffers are dropped, and a `FAB_LINK_DOWN` record counts in warning class 4 (R730). -/
def State.leaveUp (s : State) (p : Nat) : State :=
  let s := s.setPortState p 0
  let s := [0, 1].foldl (fun s f =>
    let r := s.fr f
    s.setFr f { r with buf := r.buf.filter (fun b => b.port != p) }) s
  let s := (s.flCode p Code.FAB_LINK_DOWN).raiseWarn 4 p (s.flRec p Code.FAB_LINK_DOWN)
  let s := s.parentLost p
  if (p = 0 ∨ p = 18) ∧ !s.portUp 0 ∧ !s.portUp 18 then
    if s.valleyLost then s.snapTwinLost else s.loseValley p
  else s

/-! ## Keys (R501, R502, R656) -/

/-- What this end of a link says of an ephemeral key (R501, R656). -/
def linkHello (k : Nat) : LinkHello :=
  let point := padTo 133 (Config.pubKey k)
  ⟨point, padTo 132 (Config.sign deviceKey (infoLink ++ point)), Config.certs⟩

/-- Whether what the peer says checks (R501). -/
def helloOk (x : LinkHello) : Bool :=
  match Config.chainKey x.chain with
  | some k => Config.pointOk x.point && Config.ecdsaOk k (infoLink ++ x.point) x.sig
  | none => false

/-- The key of the direction from the end with one point to the end with another, from the shared secret (R501). -/
def linkKey (secret src dst : List Byte) : List Byte := (hkdf Config.linkSalt secret (Config.linkInfo src dst)).take 32

/-- Transmit and receive key of the exchange of ephemeral key k with a peer's point (R501). -/
def linkKeys (k : Nat) (peer : List Byte) : List Byte × List Byte :=
  let own := padTo 133 (Config.pubKey k)
  let z := Config.ecdh k peer
  (linkKey z own peer, linkKey z peer own)

/-- A port enters KEYING (R501): it makes an ephemeral key and says so. -/
def State.startKeying (s : State) (p : Nat) : State :=
  let (k, s) := s.drawKey
  let s := s.setPort p { s.port p with eph := some k }
  State.setPortState { s with wire := s.wire ++ [(p, .hello (linkHello k))] } p 2

/-- Keying has failed (R501). -/
def State.keyingFails (s : State) (p : Nat) : State :=
  let s := s.setPort p { s.port p with eph := none }
  ((s.setPortState p 4).flCode p Code.FAB_LINK_AUTH).raise (s.flRec p Code.FAB_LINK_AUTH)

/-- A twin port is keyed (R538): the valley is there again once both packages have been reset since its loss. -/
def State.valleyBack (s : State) (p : Nat) : State :=
  if s.valleyLost && s.valleyOwn && (p == 0 || p == 18) then
    let yes := Config.twinReset s.free
    { s with free := s.free + 1, valleyLost := !yes, valleyOwn := !yes }
  else s

/-- Keying has succeeded: both directions run new keys from index 0 (R501; log 25). -/
def State.portKeyed (s : State) (p : Nat) (keys : List Byte × List Byte) : State :=
  let x := s.port p
  ((s.setPort p { Port.reset with retired := x.retired, txKey := keys.1, rxKey := keys.2 }).setRfld (flReg p 0) 8 1 0).setPortState p 3
    |>.valleyBack p

/-- Put a frame on the link of port p, enciphered (R503), after a sync word where one is due (R504). -/
def State.linkSend (s : State) (p : Nat) (y : JFrame) : State :=
  let n := frameBytes y
  let x := s.port p
  let due := decide (4096 < x.synced + 8 + n)
  let ctr := x.txCtr + 1
  let head := wd (s.rfld (flReg p 0) 8 1 * 2 ^ 63 + (n - 24) / 8 * 2 ^ 56 + ctr % 2 ^ 56)
  let body := padTo (n - 24) (wordsBytes (hdrWords y.hdr y.hdr.hops.toNat) ++ y.payload ++ leBytes 4 y.crc.toNat)
  let c := gcmSeal x.txKey (leBytes 12 ctr) (leBytes 8 head.toNat) body
  let s := s.setPort p { x with txCtr := ctr, txFrames := x.txFrames + 1, synced := if due then n else x.synced + n }
  let s := s.bump (flReg p 0x18) 0 48 (if due then n + 8 else n)
  { s with wire := s.wire ++ (if due then [(p, .sync ctr)] else []) ++ [(p, .frame ⟨head, c.take (n - 24), c.drop (n - 24), 0⟩)] }

/-- A link control frame with what this end says of a key (R502). -/
def State.linkControl (s : State) (p k : Nat) : State :=
  let h := linkHello k
  let d := Config.linkMsg h.point h.sig h.chain
  s.linkSend p (mkFrame { hdr0 with op := 0x7F, tc := 7, act := 5, len := BitVec.ofNat 10 d.length } d)

/-- A link control frame has come (R502): the end that asked for the exchange switches to its new transmit key, the other answers;
both hold the new receive key beside the old. -/
def State.linkExchange (s : State) (p : Nat) (x : LinkHello) : State :=
  if !helloOk x then s.keyingFails p
  else
    match (s.port p).eph with
    | some k =>
      let keys := linkKeys k x.point
      let q := s.port p
      (s.setPort p { q with eph := none, txKey := keys.1, txFrames := 0, rxOther := some keys.2 }).setRfld (flReg p 0) 8 1
        (1 - s.rfld (flReg p 0) 8 1)
    | none =>
      let (k, s) := s.drawKey
      (s.setPort p { s.port p with rxOther := some (linkKeys k x.point).2 }).linkControl p k

/-! ## The sending end (R503, R506, R523, R525) -/

/-- Whether a frame waits in router f for port p in a class, and its budgets let it start. -/
def State.frameReady (s : State) (f p tc : Nat) (b : BufFrame) : Bool :=
  b.port == p && b.frame.hdr.tc.toNat == tc && s.budgetOk (40 + p) b.frame.hdr.act.toNat
    && s.passesOk (fdDie f) (fdDie (p / 18)) b.frame.hdr.act.toNat

/-- The place of the first frame of a class that waits in router f for port p and whose budgets let it start. TC4 and TC5 have separate
buffers for requests and responses, so that no response waits behind a request (R524). -/
def State.firstReady (s : State) (f p tc : Nat) : Option Nat :=
  let l := (s.fr f).buf
  match (if tc = 4 ∨ tc = 5 then findPos (fun b => s.frameReady f p tc b && !isReq b.frame.hdr.op) l else none) with
  | some i => some i
  | none => findPos (s.frameReady f p tc) l

/-- The first frame of a class for port p in either router, that of the port's own die first. -/
def State.readyOf (s : State) (p tc : Nat) : Option (Nat × Nat) :=
  match s.firstReady (p / 18) p tc with
  | some i => some (p / 18, i)
  | none => (s.firstReady (1 - p / 18) p tc).map (fun i => (1 - p / 18, i))

/-- The classes of the weighted round robin in their order (R523). -/
def wrrClasses : List Nat := [0, 1, 3, 7]

/-- The weight of a place of the round robin (R555). -/
def State.wrrWeight (s : State) (f i : Nat) : Nat := s.rfld (frReg f 0x38) (8 * i) 8

/-- The next class that the round robin of port p serves, with its place and the frames it may still send in this turn:
the class in turn while its weight lasts, else the next class with a frame ready (R523; log 26). -/
def State.wrrPick (s : State) (p : Nat) : Option (Nat × Nat × Nat) :=
  let x := s.port p
  let f := p / 18
  let ok := fun i => (s.readyOf p (nth wrrClasses 0 i)).isSome && decide (0 < s.wrrWeight f i)
  if 0 < x.wrrLeft ∧ ok x.wrrAt then some (nth wrrClasses 0 x.wrrAt, x.wrrAt, x.wrrLeft - 1)
  else
    match ([1, 2, 3, 4].map (fun j => (x.wrrAt + j) % 4)).find? ok with
    | some i => some (nth wrrClasses 0 i, i, s.wrrWeight f i - 1)
    | none => none

/-- The time stamps that a frame takes when it leaves (R560): t1 of `TREQ`, t3 of `TRESP`. -/
def State.stampOut (s : State) (p : Nat) (x : JFrame) : State × JFrame :=
  if x.hdr.op = 0x60 then (s.setTm { s.tm with t1 := if s.tm.seq = x.hdr.seq.toNat then some (s.now 6) else s.tm.t1 }, x)
  else if x.hdr.op = 0x61 then (s, { mkFrame x.hdr (leBytes 8 (s.now (fdDie (p / 18))).toNat) with hdr := x.hdr })
  else (s, x)

/-- The frame at a place of router f leaves over port p, charged to the port and the passes (R525, R732, R734). -/
def State.sendFrame (s : State) (f p i : Nat) : State :=
  match (s.fr f).buf[i]? with
  | none => s
  | some b =>
    let r := s.fr f
    let s := s.setFr f { r with buf := dropAt r.buf i }
    let n := frameBytes b.frame
    let s := (s.chargeBudget (40 + p) b.frame.hdr.act.toNat n).chargePasses (fdDie f) (fdDie (p / 18)) b.frame.hdr.act.toNat
      b.frame.payload.length
    let (s, y) := s.stampOut p b.frame
    s.linkSend p y

/-- A port that is UP sends one frame, if one may leave: TC4, TC5 and TC2 in strict priority, then the round robin
(R523); the credit of R506 is taken to be there (log 110). -/
def State.portSend (s : State) (p : Nat) : State :=
  if !s.portUp p then s
  else
    match ([4, 5, 2].filterMap (fun tc => s.readyOf p tc)) with
    | (f, i) :: _ => s.sendFrame f p i
    | [] =>
      match s.wrrPick p with
      | none => s
      | some (tc, at_, left) =>
        let s := s.setPort p { s.port p with wrrAt := at_, wrrLeft := left }
        match s.readyOf p tc with
        | some (f, i) => s.sendFrame f p i
        | none => s

/-- Ask every port to send (one frame for each port in a cycle of UCLK, log 14). -/
def State.sendAll (s : State) : State :=
  if (s.fr 0).buf.isEmpty && (s.fr 1).buf.isEmpty then s else (upTo 36).foldl (fun s p => s.portSend p) s

/-! ## Registers of ports and routers (R500, R501, R522, R551, R554) -/

/-- A port that may train: enabled, not retired, and its SerDes bank on (R501, R729, R737, R757). -/
def State.mayTrain (s : State) (p : Nat) : Bool :=
  s.rfld (flReg p 0) 3 1 == 1 && !(s.port p).retired && s.domainOn (26 + p / 9)

/-- A write of `FL_STATE.EN` (R500, R501, R551): 0 holds the port DOWN; a rise restarts training, also of a FAILED
port, which stays FAILED until then. -/
def State.writeFlEn (s : State) (p : Nat) (v : Word) : State :=
  let was := s.rfld (flReg p 0) 3 1
  let s := s.setRfld (flReg p 0) 3 1 (fld v 3 1)
  if fld v 3 1 = 0 then if s.portUp p then s.leaveUp p else if s.portState p = 4 then s else s.setPortState p 0
  else if was = 0 then s.setPortState p (if s.mayTrain p then 1 else 0)
  else s

/-- A discarded write of a router register records `FAB_REG_VALUE` (R554, R810). -/
def State.frRefuse (s : State) (f : Nat) : State × BitVec 16 :=
  (s.setRfld (frReg f 0) 32 16 Code.FAB_REG_VALUE.toNat, Code.FAB_REG_VALUE)

/-- A write of `FR_EPOCH.CUR`: it must name a valid bank (R522, R554). -/
def State.writeEpochCur (s : State) (f e : Nat) : State × BitVec 16 :=
  match s.bankOf f e with
  | some _ => (s.setRfld (frReg f 0x08) 0 2 e, 0)
  | none => s.frRefuse f

/-- The bank that carries the current epoch. -/
def State.curBank (s : State) (f : Nat) : Option Nat := s.bankOf f (s.curEpoch f)

/-- A write of the epoch of a bank makes it valid; the current bank's epoch takes no write, and the new epoch is
`CUR` + 1 (R522, R554). -/
def State.writeEpochBank (s : State) (f b e : Nat) : State × BitVec 16 :=
  if s.curBank f = some b ∨ e ≠ (s.curEpoch f + 1) % 4 then s.frRefuse f
  else ((s.setRfld (frReg f 0x08) (4 + 2 * b) 2 e).setRfld (frReg f 0x08) (9 + b) 1 1, 0)

/-- The bank that is not current. -/
def State.oldBank (s : State) (f : Nat) : Nat := if s.curBank f = some 0 then 1 else 0

/-- `FR_EPOCH.DRAIN`: the frames that router f holds under the epoch of the bank that is not current (R522). -/
def State.drain (s : State) (f : Nat) : Nat :=
  ((s.fr f).buf.filter (fun b =>
    s.bankValid f (s.oldBank f) && b.frame.hdr.epoch.toNat == s.bankEpoch f (s.oldBank f))).length

/-- Invalidate the old bank once it is asked for and `DRAIN` is zero (R522). -/
def State.tryRetire (s : State) (f : Nat) : State :=
  if (s.fr f).retire && s.drain f == 0 then
    (s.setFr f { s.fr f with retire := false }).setRfld (frReg f 0x08) (9 + s.oldBank f) 1 0
  else s

/-- A write of `FR_EPOCH.RETIRE` asks to invalidate the old bank (R522). -/
def State.writeRetire (s : State) (f : Nat) : State := (s.setFr f { s.fr f with retire := true }).tryRetire f

/-- A write of `FR_RT_DATA`: the entry that `FR_RT_INDEX` names, but not in the current bank (R522, R554). -/
def State.writeRtData (s : State) (f : Nat) (v : Word) : State × BitVec 16 :=
  let b := s.rfld (frReg f 0x10) 14 1
  if s.curBank f = some b then s.frRefuse f
  else
    let r := s.fr f
    (s.setFr f { r with rt := r.rt.set (b * 16384 + s.rfld (frReg f 0x10) 0 14) (v &&& wd (2 ^ 64 - 2 ^ 56 + (2 ^ 36 - 1))) }, 0)

end Sys2Proof.Machine
end

