-- ==== Sys2Proof/Machine/ErrOps.lean ====
section
/-! DEFINITION. Self-tests and their verdicts, retirement, and the replacement of retired units at a job mapping (R724 to
R729). -/

namespace Sys2Proof.Machine

/-! ## Self-tests (R724 to R726) -/

/-- The array of a unit stands idle, or the test may run at once (R724, R725, R736). -/
def State.mayTest (s : State) (t : Test) : Bool :=
  if t.unit = uCluster then (s.cl t.index).st != .running && !(s.cl t.index).pendingLl
  else if t.unit = uLse then (s.lse t.index).phase == .idle
  else if t.unit = uCu then (s.cu t.index).group.isNone
  else if t.unit = uPort && (t.index = 0 || t.index = 18) then
    let o := 18 - t.index
    !s.err.tests.any (fun x => x.unit == uPort && x.index == o && x.running)
      && (s.portUp o || s.portState o == 0 || s.portState o == 4)
  else true

/-- Change test i. -/
def State.modTest (s : State) (i : Nat) (f : Test → Test) : State :=
  { s with err := { s.err with tests := modAt s.err.tests i f } }

/-- Test i starts if it may; a port leaves UP for it (R724, R725). -/
def State.startTest (s : State) (i : Nat) : State :=
  match s.err.tests[i]? with
  | none => s
  | some t =>
    if t.running || !s.mayTest t then s
    else
      let s := s.modTest i (fun t => { t with running := true })
      if t.unit = uPort then if s.portUp t.index then s.leaveUp t.index else s.setPortState t.index 0 else s

/-- 24 hours in ticks (R726). -/
def day : Nat := 86400 * 4000000000

/-- Three corrected errors have struck the position of a test within 24 hours (R726). -/
def State.threeHits (s : State) (t : Test) : Bool :=
  let now := (s.now t.die).toNat
  decide (3 ≤ (s.err.hits.filter (fun h => h.1 == (t.unit, t.index, t.array, t.addr) && decide (now ≤ h.2.toNat + day))).length)

/-! ## Numbers of units (R28 to R30, R39) -/

/-- The enabled units among the `n` bits of the disabled-unit map from bit `lo` up (R28, R30). -/
def enabledIn (m : BitVec 1024) (lo n : Nat) : List Nat := ((upTo n).map (· + lo)).filter (fun b => !m.getLsbD b)

/-- The classes of units in the map: first bit, number of bits, bits to a die (R39). -/
def mapClass (unit : Nat) : Option (Nat × Nat × Nat) :=
  if unit = uCluster then some (0, 832, 208)
  else if unit = uCore then some (832, 96, 48)
  else if unit = uLse then some (928, 8, 4)
  else none

/-- The bit of the map of a logical unit of a class. -/
def State.mapBit (s : State) (unit index : Nat) : Option Nat :=
  match mapClass unit with
  | some (lo, n, _) => (enabledIn s.part.dumap lo n)[index]?
  | none => none

/-- `DBG_STATUS.REMAP`: retirements wait (R749). -/
def State.showRemap (s : State) : State :=
  s.setRfld (regAt .dbg 0 0) 2 1 (b2n (s.err.retired != 0 || !s.err.rows.isEmpty))

/-- The unit of a lasting fault is marked retired (R727): a cluster, core or engine in `DBG_RETIRED`, a row of HBM for repair,
a port for good (R729). -/
def State.retire (s : State) (t : Test) : State :=
  let s : State :=
    if t.unit = uPort then s.setPort t.index { s.port t.index with retired := true }
    else if t.unit = uMc then
      { s with err := { s.err with rows := s.err.rows ++ [(t.index, Config.hbmRow t.addr.toNat)] } }
    else
      match s.mapBit t.unit t.index with
      | some b => { s with err := { s.err with retired := s.err.retired ||| BitVec.ofNat 1024 (2 ^ b) } }
      | none => s
  s.showRemap

/-- Test i ends (R726, R727): a record with the verdict, which for a lasting fault counts in warning class 7; a port that is
not retired trains again. -/
def State.endTest (s : State) (i : Nat) (lasting : Bool) : State :=
  match s.err.tests[i]? with
  | none => s
  | some t =>
    if !t.running then s
    else
      let bad := lasting || s.threeHits t
      let s : State := { s with err := { s.err with tests := dropAt s.err.tests i } }
      let r : Rec := { s.rec0 t.die t.unit t.index 0 3 with array := t.array, addr := t.addr, test := if bad then 3 else 2 }
      if bad then (s.retire t).raiseWarn 7 0 r
      else
        let s := s.raise r
        if t.unit = uPort && s.mayTrain t.index then s.setPortState t.index 1 else s

/-! ## Job mapping (R727 to R729) -/

/-- The lowest-numbered spare of a class on the die of bit b (R728). -/
def spareFor (spare : BitVec 1024) (lo per b : Nat) : Option Nat :=
  ((upTo per).map (fun i => lo + (b - lo) / per * per + i)).find? (fun x => spare.getLsbD x)

/-- A map with a bit set or cleared. -/
def mapPut (m : BitVec 1024) (b : Nat) (v : Bool) : BitVec 1024 :=
  if v then m ||| BitVec.ofNat 1024 (2 ^ b) else m &&& ~~~ (BitVec.ofNat 1024 (2 ^ b))

/-- One retired unit is replaced by a spare; without one the package is degraded (R728, R729). -/
def State.replaceUnit (s : State) (lo per b : Nat) : State :=
  match spareFor s.part.spare lo per b with
  | some x => { s with
      part := { s.part with dumap := mapPut (mapPut s.part.dumap b true) x false, spare := mapPut s.part.spare x false }
      err := { s.err with retired := mapPut s.err.retired b false } }
  | none => s.setRfld (regAt .dbg 0 0) 1 1 1

/-- The new logical number of each old one of a class, where its unit is still in use (R28, R30). -/
def renumber (old new : BitVec 1024) (lo n i : Nat) : Option Nat :=
  match (enabledIn old lo n)[i]? with
  | some b => findPos (· == b) (enabledIn new lo n)
  | none => none

/-- A table whose keys are renumbered. -/
def reTab {α : Type} (f : Nat → Option Nat) (t : Tab α) : Tab α := t.filterMap (fun x => (f x.1).map (fun j => (j, x.2)))

/-- Where the byte of a cluster's memory goes when clusters are renumbered: none when it goes nowhere, and other bytes
stay. -/
def State.reKey (s : State) (f : Nat → Option Nat) (a : Nat) : Option Nat :=
  match s.region a with
  | .font n o => (f n).map (fun j => fontKey j o)
  | .imem n o => (f n).map (fun j => imemKey j o)
  | .reg .cl n o => (f n).map (fun j => 0x0002000000000000 + regAt .cl j o)
  | _ => some a

/-- The memories and registers of clusters under their new numbers. -/
def State.reClusters (s : State) (f : Nat → Option Nat) : State :=
  { s with
    clusters := reTab f s.clusters
    mem := s.mem.foldl (fun m c => match s.reKey f c.1 with | some k => memWr m k c.2 | none => m) []
    regs := s.regs.filterMap (fun x => (s.reKey f (0x0002000000000000 + x.1)).map (fun k => (k - 0x0002000000000000, x.2))) }

/-- The units of every class under their new logical numbers (R728). -/
def State.reNumber (s : State) (old : BitVec 1024) : State :=
  let new := s.part.dumap
  if old = new then s
  else
    let s := s.reClusters (renumber old new 0 832)
    { s with cores := reTab (renumber old new 832 96) s.cores, lses := reTab (renumber old new 928 8) s.lses }

/-- How many repair rows of stack k are used. -/
def State.rowsUsed (s : State) (k : Nat) : Nat := (s.err.usedRows.filter (· == k)).length

/-- A row of HBM is repaired, its contents kept, while its stack has a repair row left (R727, R729). -/
def State.repairRow (s : State) (x : Nat × Nat) : State :=
  if s.rowsUsed x.1 < Config.repairRows x.1 then
    { s with err := { s.err with usedRows := s.err.usedRows ++ [x.1], rows := s.err.rows.filter (· != x) } }
  else s.setRfld (regAt .dbg 0 0) 1 1 1

/-- A job mapping (R727 to R729): at a quiet point in IDLE every retired unit is replaced and every bad row repaired. -/
def State.jobMapping (s : State) : State :=
  if s.jobState ≠ 0 || !s.atRest then s
  else
    let old := s.part.dumap
    let s := [(0, 832, 208), (832, 96, 48), (928, 8, 4)].foldl (fun (s : State) (c : Nat × Nat × Nat) =>
      ((upTo c.2.1).filter (fun i => s.err.retired.getLsbD (c.1 + i))).foldl
        (fun s i => s.replaceUnit c.1 c.2.2 (c.1 + i)) s) s
    let s := s.reNumber old
    (s.err.rows.foldl (fun s x => s.repairRow x) s).showRemap

end Sys2Proof.Machine
end

