-- ==== Sys2Proof/Machine/RecOps.lean ====
section
/-! DEFINITION. Writing the error records that a command has raised to the rings of their dies (R717 to R723). -/

namespace Sys2Proof.Machine

/-! ## Error records into rings (R717 to R723) -/

/-- The 128 bytes of a disabled-unit map (R39). -/
def mapBytes (m : BitVec 1024) : List Byte := leBytes 128 m.toNat

/-- The 64 bytes of a record with its number in the ring (R717). -/
def recBytes (r : Rec) (seq : Nat) : List Byte :=
  leBytes 2 r.code.toNat ++ leBytes 1 r.kind ++ leBytes 1 (r.flags ||| (if r.late then 4 else 0))
    ++ leBytes 1 r.die ++ leBytes 1 r.unit ++ leBytes 2 r.index ++ leBytes 8 r.time.toNat ++ leBytes 8 r.addr.toNat
    ++ leBytes 1 r.array ++ leBytes 1 r.test ++ leBytes 2 r.detail.toNat ++ leBytes 4 r.job.toNat
    ++ leBytes 2 r.tag.toNat ++ zeros 2 ++ leBytes 4 r.count ++ (sha512 (mapBytes r.map)).take 8
    ++ leBytes 8 r.info.toNat ++ leBytes 8 seq

/-- A register of ring d (R748): 0 BASE, 0x08 SIZE, 0x10 HEAD, 0x18 TAIL. -/
def ringReg (d o : Nat) : Nat := regAt .dbg 0 (0x100 + d * 0x20 + o)

/-- Interrupt 0x28 becomes pending at the firmware of every solver core of processor die d (R723, R311; log 11). -/
def State.errInterrupt (s : State) (d : Nat) : State :=
  if d = 4 || d = 5 then
    ((upTo s.part.sc).filter (fun c => s.part.dieOfSc c == d)).foldl (fun s c =>
      s.modSc c (fun x => { x with fwIpend := x.fwIpend ||| 0x100 })) s
  else s

/-- Keep a record on chip: up to 16, further ones counted in `LOST` (R722). -/
def State.holdRec (s : State) (r : Rec) : State :=
  let l := s.err.held.get [] r.die
  if l.length < 16 then { s with err := { s.err with held := s.err.held.set r.die (l ++ [{ r with late := true }]) } }
  else s.bump (ringReg r.die 0x10) 32 32 1

/-- How ring writes reach memory: class 12, activity TELEMETRY, tag 0 (R459, R722; log 12). -/
def ringReq (d : Nat) : Req := ⟨12, 6, 0, false, d⟩

/-- The writing of ring d. -/
def State.ring (s : State) (d : Nat) : Ring := s.err.rings.get Ring.reset d
/-- The state with the writing of ring d replaced. -/
def State.setRing (s : State) (d : Nat) (x : Ring) : State := { s with err := { s.err with rings := s.err.rings.set d x } }

/-- Ring d is enabled (R750). -/
def State.ringOn (s : State) (d : Nat) : Bool := bit (s.reg (ringReg d 0)) 0

/-- The pieces of record n in its slot: bytes 0x00 to 0x37 first, then `SEQ` (R720). -/
def State.ringPieces (s : State) (d n : Nat) (r : Rec) : List (Word × List Byte) :=
  let a := fld (s.reg (ringReg d 0)) 6 44 * 64 + ((n + 2 ^ 32 - 1) % 2 ^ s.rfld (ringReg d 0x08) 0 5) * 64
  [(wd a, (recBytes r n).take 56), (wd (a + 56), (recBytes r n).drop 56)]

/-- Record n stands in ring d: `LOST` where `TAIL` has not passed the one that it overwrites, `HEAD`, the events and the
interrupt (R720, R721, R723). -/
def State.ringStands (s : State) (d n : Nat) (r : Rec) : State :=
  let size := s.rfld (ringReg d 0x08) 0 5
  let ahead := (s.rfld (ringReg d 0x10) 0 32 + 2 ^ 32 - s.rfld (ringReg d 0x18) 0 32) % 2 ^ 32
  let s := if 2 ^ size ≤ ahead ∧ ahead < 2 ^ 31 then s.bump (ringReg d 0x10) 32 32 1 else s
  ((s.setRfld (ringReg d 0x10) 0 32 n).eventOps 3 (recBytes r n)).errInterrupt d

/-- The record being written goes on as far as memory lets it; a refusal disables the ring, and a ring that is not enabled
writes nothing more (R722). -/
def State.ringPut (s : State) (d : Nat) : State :=
  let x := s.ring d
  if x.bad || !s.ringOn d then s.setRing d { x with put := [], bad := true }
  else
    match s.put (ringReq d) (fun _ _ => .ring d) x.put 0 0 with
    | (s, p) =>
      let bad := p.code.isSome
      let s := if bad then s.setRfld (ringReg d 0) 0 1 0 else s
      s.setRing d { x with put := if bad then [] else p.rest, heldW := x.heldW + p.held, bad := bad }

/-- Ring d goes on: the records on their way are written one after another, and kept on chip once it is not enabled
(R720 to R722). -/
def ringN (d : Nat) : Nat → State → State
  | 0, s => s
  | fuel + 1, s =>
    let x := s.ring d
    match x.cur, x.queue with
    | none, [] => s
    | none, r :: _ =>
      if s.ringOn d then
        let n := (s.rfld (ringReg d 0x10) 0 32 + 1) % 2 ^ 32
        ringN d fuel (s.setRing d { x with cur := some n, put := s.ringPieces d n r })
      else x.queue.foldl (fun s r => s.holdRec r) (s.setRing d Ring.reset)
    | some n, q =>
      let s := s.ringPut d
      let y := s.ring d
      if !y.put.isEmpty || y.heldW ≠ 0 then s
      else
        let s := s.setRing d { y with queue := if y.bad then q else q.drop 1, cur := none, bad := false }
        ringN d fuel (match q, y.bad with | r :: _, false => s.ringStands d n r | _, _ => s)

/-- Ring d goes on. -/
def State.runRing (s : State) (d : Nat) : State := ringN d (2 * (s.ring d).queue.length + 2) s

/-- A piece that memory held for ring d is written, or refused (R483, R722). -/
def State.ringDone (s : State) (d : Nat) (code : BitVec 16) : State :=
  let x := s.ring d
  let s := if code ≠ 0 then s.setRfld (ringReg d 0) 0 1 0 else s
  (s.setRing d { x with heldW := x.heldW - 1, bad := x.bad || code != 0 }).runRing d

/-- A record goes to its die's ring (R719 to R723), or is held while the ring is not enabled. -/
def State.writeRec (s : State) (r : Rec) : State :=
  let x := s.ring r.die
  if x.queue.isEmpty && !s.ringOn r.die then s.holdRec r
  else (s.setRing r.die { x with queue := x.queue ++ [r] }).runRing r.die

/-- Ring d has been enabled: the held records are written first (R722). -/
def State.ringEnabled (s : State) (d : Nat) : State :=
  let l := s.err.held.get [] d
  let s : State := { s with err := { s.err with held := s.err.held.set d [] } }
  (s.setRing d { s.ring d with queue := l ++ (s.ring d).queue }).runRing d

end Sys2Proof.Machine
end

