-- ==== Sys2Proof/Machine/SecOps.lean ====
section
/-! DEFINITION. The SEC block (R650 to R672): key derivation, measurement, the checks of a firmware image, attestation
reports, tenant key packages, erasing a tenant, and debug tokens. -/

namespace Sys2Proof.Machine

/-! ## Key derivation (R660, R697) -/

/-- The bytes of "HN8-TKP" (R660). -/
def infoTkp : List Byte := [0x48, 0x4E, 0x38, 0x2D, 0x54, 0x4B, 0x50]
/-- The bytes of "HN8-BUWEN" (R697). -/
def infoBuwen : List Byte := [0x48, 0x4E, 0x38, 0x2D, 0x42, 0x55, 0x57, 0x45, 0x4E]

/-! ## Keys and codes -/

/-- `SEC_STATUS` (R679). -/
abbrev secStatus : Nat := regAt .sec 0 0

/-- A security code goes to `SEC_STATUS.LAST_CODE` (R679). -/
def State.secCode (s : State) (c : BitVec 16) : State := s.setRfld secStatus 32 16 c.toNat

/-- `SEC_STATUS.DEBUG` (R670, R679). -/
def State.debug (s : State) : Bool := s.rfld secStatus 0 1 == 1

/-- A job with a tag other than 0 is ARMED, RUNNING or ENDING (R666, R699). -/
def State.tenantJob (s : State) : Bool := s.launched && s.job.localTag != 0

/-! ## Firmware images (R652, R653) -/

/-- The signature block of an image: its last 1,024 bytes (R652). -/
def sigBlock (img : List Byte) : List Byte := img.drop (img.length - 1024)

/-- `SVN` of a signature block. -/
abbrev sbSvn (b : List Byte) : Nat := bytesAt b 0x006 1

/-- Whether a signature block has the form of R652 over a body of `n` bytes. -/
def sigFormOk (b : List Byte) (n : Nat) : Bool :=
  b.length == 1024 && bytesAt b 0 4 == 0x38535746 && bytesAt b 4 2 == 1 && decide (sbSvn b ≤ 64) && bytesAt b 7 1 == 0
    && bytesAt b 0x0C 4 == 0 && bytesAt b 0x10 8 == n && bytesAt b 0xDC 4 == 0
    && decide (1 ≤ bytesAt b 0xE0 2 ∧ bytesAt b 0xE0 2 ≤ 798) && (b.drop (0xE2 + bytesAt b 0xE0 2)).all (· == 0)

/-- What the boot ROM finds of an image (R653): 0, `SEC_IMAGE_SIG` or `SEC_ROLLBACK`. -/
def State.imageCode (s : State) (img : List Byte) : BitVec 16 :=
  let b := sigBlock img
  let body := img.take (img.length - 1024)
  let sigOk := match Config.signerKey ((b.drop 0xE2).take (bytesAt b 0xE0 2)) with
    | some k => Config.ecdsaOk k (b.take 0x58) ((b.drop 0x58).take 132)
    | none => false
  if img.length < 1024 || !sigFormOk b body.length || !sigOk || (b.drop 0x18).take 64 != sha512 body then Code.SEC_IMAGE_SIG
  else if sbSvn b < s.part.svn then Code.SEC_ROLLBACK
  else 0

/-- What the alias certificate carries (R656): alias public key, MR0 to MR2, `FW_VERSION`, `SVN`, `SYS_ID`, map digest. -/
def State.aliasFields (s : State) (k : Nat) : List Byte :=
  padTo 133 (Config.pubKey k) ++ (upTo 3).flatMap (nth s.sec.mr []) ++ leBytes 4 (s.rfld (regAt .sec 0 0x10) 0 32)
    ++ leBytes 1 s.sec.svnRun ++ leBytes 8 s.sysId.toNat ++ s.dumapDigest

/-- The alias key is made and certified by the device key, which from then on signs only link statements (R656). -/
def State.makeAlias (s : State) : State :=
  let (k, s) := s.drawKey
  let body := Config.aliasBody (s.aliasFields k)
  State.setRfld { s with sec := { s.sec with alias_ := some k, aliasCert := Config.aliasCert body (padTo 132 (Config.sign deviceKey body)) } }
    secStatus 1 2 3

/-- The boot ROM accepts an image with its configuration block (R654, R656): measurements, `FW_VERSION`, and the alias key. -/
def State.acceptImage (s : State) (img config : List Byte) : State :=
  let b := sigBlock img
  let s := ((s.extendMr 1 b).extendMr 2 (sha512 config))
  let s : State := { s with
    sec := { s.sec with svnRun := sbSvn b }
    part := { s.part with opDigests := (Config.operatorDigests config).take 8 } }
  (s.setReg (regAt .sec 0 0x10) (wd (bytesAt b 8 4))).makeAlias

/-- A write of `SEC_SVN.ADVANCE` (R655): the fuses take the `SVN` of the running image and never decrease. -/
def State.svnAdvance (s : State) : State :=
  { s with part := { s.part with svn := max s.part.svn s.sec.svnRun } }

/-! ## Attestation reports (R658, R659) -/

/-- The bytes of a report that are signed: 0x000 to 0x28F. -/
def State.reportBody (s : State) (nonce pub : List Byte) : List Byte :=
  let running := s.jobState == 1 || s.jobState == 2
  leBytes 4 0x38545441 ++ leBytes 2 1 ++ leBytes 2 (b2n s.debug + 2 * b2n running) ++ leBytes 8 s.sysId.toNat
    ++ leBytes 8 s.sysSize.toNat ++ leBytes 8 (s.reg 0x30).toNat ++ leBytes 4 (s.rfld (regAt .sec 0 0x10) 0 32)
    ++ leBytes 4 (s.sec.svnRun % 256 + s.part.svn % 256 * 256) ++ leBytes 8 (s.now 4).toNat ++ padTo 64 nonce ++ s.dumapDigest
    ++ (upTo 4).flatMap (fun r => nth s.sec.mr [] r) ++ nth s.sec.mr [] 3 ++ leBytes 4 s.jobId.toNat
    ++ leBytes 2 (if s.launched then s.job.localTag.toNat else 0) ++ zeros 10 ++ padTo 136 (padTo 133 pub) ++ zeros 8

/-- The alias-key signature of a message (R657); open where there is no alias key. -/
def State.aliasSign (s : State) (msg : List Byte) : List Byte × State :=
  match s.sec.alias_ with
  | some k => (padTo 132 (Config.sign k msg), s)
  | none => s.openBytes 132

/-- A report with a fresh KX key, and the certificates that follow it (R658, R659, R700). -/
def State.attestReport (s : State) (nonce : List Byte) : State × List Byte :=
  let (k, s) := s.drawKey
  let s : State := { s with sec := { s.sec with kx := (s.sec.kx ++ [(k, padTo 64 nonce)]).drop (s.sec.kx.length + 1 - 4) } }
  let body := s.reportBody nonce (Config.pubKey k)
  let (sig, s) := s.aliasSign body
  (s, body ++ sig ++ zeros 12 ++ leBytes 2 Config.certs.length ++ Config.certs)

/-! ## Tenant key packages (R660 to R662) -/

/-- Whether a key package has the layout of R660. -/
def keypkgForm (p : List Byte) : Bool :=
  p.length == 536 && bytesAt p 0 4 == 0x38504B54 && bytesAt p 4 2 == 1 && decide (0 < bytesAt p 6 2 ∧ bytesAt p 6 2 < 4096)
    && bytesAt p 8 8 == 0 && Config.pointOk ((p.drop 0x10).take 133) && bytesAt p 0x95 3 == 0
    && Config.pointOk ((p.drop 0x98).take 133) && bytesAt p 0x11D 3 == 0 && bytesAt p 0x214 4 == 0

/-- The secret block of a key package under a KX key: none when the GCM tag fails (R660). -/
def keypkgSecret (key : Nat × List Byte) (p : List Byte) : Option (List Byte) :=
  let wrap := (hkdf key.2 (Config.ecdh key.1 ((p.drop 0x10).take 133)) infoTkp).take 32
  (gcmOpen wrap (zeros 12) (p.take 0x120) ((p.drop 0x120).take 112)).map (padTo 96)

/-- The tag of a key package. -/
abbrev keypkgTag (p : List Byte) : BitVec 12 := BitVec.ofNat 12 (bytesAt p 6 2)

/-- The identity digest of a key package (R662). -/
abbrev keypkgId (p : List Byte) : List Byte := sha512 ((p.drop 0x98).take 133)

/-- The code with which a key package is refused under a KX key, 0 when it is accepted (R661, R662, in the order of
R661). -/
def State.keypkgCode (s : State) (key : Option (Nat × List Byte)) (p : List Byte) : BitVec 16 :=
  match key with
  | none => Code.SEC_KX_EXPIRED
  | some k =>
    let sec := keypkgSecret k p
    let bound := s.sec.bind.find? (fun x => x.1 == keypkgTag p)
    if !keypkgForm p || sec.isNone || !Config.ecdsaOk ((p.drop 0x98).take 133) (p.take 0x190) ((p.drop 0x190).take 132)
        || (sec.map (fun x => x.take 32 == (x.drop 32).take 32)).getD true then Code.SEC_KEY_PACKAGE
    else if (match bound with | some x => x.2 != keypkgId p | none => false) then Code.SEC_TAG_IN_USE
    else if bound.isNone && decide (64 ≤ s.sec.bind.length) then Code.SEC_SLOTS_FULL
    else if s.debug || s.sec.unlock.isSome then Code.SEC_DEBUG
    else if bound.isSome && !s.quiet then Code.SEC_NOT_QUIET
    else 0

/-- The memory controller with a key slot that holds a tag's keys (R474, R662). -/
def Mc.setKey (m : Mc) (x : KeySlot) : Mc :=
  if m.keys.any (fun y => y.tag == x.tag) then { m with keys := m.keys.map (fun y => if y.tag = x.tag then x else y) }
  else { m with keys := m.keys ++ [x] }

/-- A table of tags with an entry set. -/
def setTag (l : List (BitVec 12 × List Byte)) (t : BitVec 12) (d : List Byte) : List (BitVec 12 × List Byte) :=
  l.filter (fun x => x.1 != t) ++ [(t, d)]

/-- A key package (R661, R662): its code; accepted or not, the KX key that it names is used up. -/
def State.keypkg (s : State) (p : List Byte) : State × BitVec 16 :=
  let key := s.sec.kx.find? (fun x => x.1 == Config.kxNamed p)
  let c := s.keypkgCode key p
  let s : State := { s with sec := { s.sec with kx := s.sec.kx.filter (fun x => x.1 != Config.kxNamed p) } }
  if c ≠ 0 then (s.secCode c, c)
  else
    let t := keypkgTag p
    let d := ((key.bind (fun k => keypkgSecret k p)).getD [])
    let slot : KeySlot := ⟨t, d.take 32, (d.drop 32).take 32⟩
    let s := (upTo s.part.stacks).foldl (fun s k => s.setMc k ((s.mc k).setKey slot)) s
    ({ s with sec := { s.sec with
      bind := setTag s.sec.bind t (keypkgId p), fabric := setTag s.sec.fabric t ((d.drop 64).take 32) } }, 0)

/-! ## Debug unlock (R667 to R671) -/

/-- The device key digest, `SEC_DEVID0` to `SEC_DEVID7` (R651). -/
abbrev State.devid (s : State) : List Byte := padTo 64 s.part.devid

/-- Whether a token has the layout of R668 and passes check 2 of R669. -/
def State.tokenOk (s : State) (t : List Byte) : Bool :=
  t.length == 272 && bytesAt t 0 4 == 0x38474244 && bytesAt t 4 2 == 1 && decide (bytesAt t 6 2 < 8)
    && (t.drop 8).take 64 == s.devid && (t.drop 0x48).take 64 == padTo 64 s.sec.nonce
    && Config.tokenSigOk (t.take 0x88) ((t.drop 0x88).take 132) && bytesAt t 0x10C 4 == 0

/-- The end of an unlock, once every granule is retagged (R670). -/
def State.unlockEnd (s : State) : State :=
  match s.sec.unlock with
  | some t =>
    if s.retags.isEmpty then
      let s : State := { s with sec := { s.sec with unlock := none } }
      ((s.setRfld secStatus 0 1 1).setRfld secStatus 16 3 (bytesAt t 6 2)).extendMr 2 t
    else s
  | none => s

/-- What an accepted token does (R670): keys and tenants go, the granules of tenants are retagged, and then the package is
unlocked. -/
def State.debugUnlock (s : State) (t : List Byte) : State :=
  let s : State := { s with sec := { s.sec with kx := [], unlock := some t } }
  let s := s.sec.bind.foldl (fun s x => s.eraseTenant x.1) s
  ((s.tags.filter (fun x => x.2 != 0)).foldl (fun s x => s.retag x.1 0) s).unlockEnd

/-- A debug token (R669): its code; a new nonce is drawn after every check. While the granules of an accepted token are retagged the
package does not count as quiet (log 47). -/
def State.token (s : State) (t : List Byte) : State × BitVec 16 :=
  let c : BitVec 16 := if s.jobState ≠ 0 || !s.quiet || s.sec.unlock.isSome then Code.SEC_NOT_QUIET else if !s.tokenOk t then Code.SEC_TOKEN else 0
  let s := if c = 0 then s.debugUnlock t else s.secCode c
  let (n, s) := s.drawBytes 64
  ({ s with sec := { s.sec with nonce := n } }, c)

/-- The operator paths may not act on tenant state under R666: `SEC_TENANT_STATE`, recorded (R679). -/
def State.tenantRefuse (s : State) : State × BitVec 16 := (s.secCode Code.SEC_TENANT_STATE, Code.SEC_TENANT_STATE)

end Sys2Proof.Machine
end

