-- ==== Sys2Proof/Machine/PowerOps.lean ====
section
/-! DEFINITION. Resets (R773, R774), the start of the package and its attempts (R775 to R782), power domains (R757 to R760),
and frequency levels (R761 to R766). -/

namespace Sys2Proof.Machine

/-! ## Reset (R773, R774) -/

/-- The host port after a reset: what it has sent stays sent, and it gives session numbers not yet used. -/
def HostPort.after (h : HostPort) : HostPort := { HostPort.reset with out := h.out, nextSess := h.nextSess }

/-- The unlock nonce is drawn anew (R669, log 47). -/
def State.freshNonce (s : State) : State :=
  let (n, s) := s.drawBytes 64
  { s with sec := { s.sec with nonce := n } }

/-- What every reset keeps of a state beside what the reset itself keeps: fuses, what has been sent, the numbers that are not to come
again (those of sessions, of draws, and of seals, R548), and that the valley is lost (R538; log 23). -/
def State.keepOver (s t : State) : State :=
  State.freshNonce { t with
    pending := s.pending
    part := s.part
    wire := s.wire
    hosts := s.hosts.map (fun x => (x.1, x.2.after))
    free := s.free
    sec := { t.sec with sealCtr := s.sec.sealCtr }
    valleyLost := s.valleyLost
    valleyOwn := s.valleyLost }

/-- The records of die d that a reset leaves on chip (R722, R774): those held, and those whose ring has not taken them. -/
def State.heldRecs (s : State) (d : Nat) : List Rec :=
  (s.err.held.get [] d ++ (s.ring d).queue.map (fun (r : Rec) => { r with late := true })).take 16

/-- What a reset of everything but the processor uncores leaves (R774, R778): the records that the processor dies hold on chip, the
attempt count and the back-off state; `keepTime` keeps the time bases of the processor dies. -/
def State.resetAll (s : State) (keepTime : Bool) : State :=
  s.keepOver { State.reset with
    time := if keepTime then s.time.filter (fun x => x.1 == 4 || x.1 == 5) else []
    err := { Err.reset with held := [4, 5].filterMap (fun d => if s.heldRecs d = [] then none else some (d, s.heldRecs d)) }
    power := { Power.reset with
      powered := s.power.powered, attempts := s.power.attempts, fails := s.power.fails, lastFail := s.power.lastFail } }

/-- A package reset (R773, R774): the start begins again at its next attempt. -/
def State.packageReset (s : State) : State := s.resetAll false

/-- A power-on reset (R773, R774): nothing but the fuses survives, and the strap is sampled (R770). -/
def State.powerOnReset (s : State) (strap : Bool) : State :=
  State.keepOver { s with part := { s.part with strapOut := strap } } State.reset

/-- The package rails are gone, and every state with them (R753). -/
def State.powerOff (s : State) : State :=
  let s := s.powerOnReset s.part.strapOut
  { s with power := { s.power with powered := false } }

/-! ## Records and codes of the PWR block -/

/-- `PWR_STATUS` (R783). -/
abbrev pwrStatus : Nat := regAt .pwr 0 0
/-- A code goes to `PWR_STATUS.LAST_CODE`. -/
def State.pwrCode (s : State) (c : BitVec 16) : State := s.setRfld pwrStatus 32 16 c.toNat
/-- A record of power and clocks about die d (R717). -/
def State.pwrRec (s : State) (d : Nat) (c : BitVec 16) (kind : Nat) : Rec := s.rec0 d uPower d c kind

/-! ## Attempts (R775, R777, R778) -/

/-- The processor die of the current attempt, as a die number (R775). -/
def State.bootDie (s : State) : Nat := 4 + (s.power.attempts - 1) % 2

/-- The lowest enabled core of the booting die (R775). -/
def State.bootCore (s : State) : Nat := if s.bootDie = 4 then 0 else s.part.sc / 2

/-- A start attempt begins, unless one is under way or the back-off lasts (R775, R778). -/
def State.beginAttempt (s : State) : State :=
  if s.power.phase ≠ 0 || s.power.backoff.isSome then s
  else { s with power := { s.power with attempts := min (s.power.attempts + 1) 65535, phase := 1 } }

/-- Ticks of one second. -/
def second : Nat := 4000000000

/-- The code of the phase under way (R781). -/
def State.phaseCode (s : State) : Nat :=
  match s.power.phase with
  | 3 => if s.power.netBy.isSome then 0x5 else 0x3
  | 4 => 0x6
  | 5 => 0x7
  | 6 => 0x8
  | 7 =>
    if s.degraded then 0xB
    else if s.locked 6 && s.portUp 0 && s.portUp 18 then 0x9 else 0xA
  | _ => if s.bootDie = 5 then 0x2 else 0x1

/-- The attempt fails with a code (R775, R778): everything but the processor uncores is reset, the code becomes a record,
and the back-off begins. -/
def State.failAttempt (s : State) (c : BitVec 16) : State :=
  let die := s.bootDie
  let phase := s.phaseCode
  let f := s.power.fails + 1
  let wait := min (2 ^ min (f - 1) 6) 60 * second
  let t := s.resetAll true
  let now := t.now die
  let t : State := { t with power := { t.power with fails := f, lastFail := phase, backoff := some (now, now + wd wait) } }
  (t.pwrCode c).raise (t.pwrRec die c 0)

/-- The four `STATUS` pins, which `PWR_BOOT.STATE` and `HELLO` show too (R781, R782). -/
def State.statusPins (s : State) : Nat :=
  if !s.power.powered || s.power.pinReset || s.power.shutdown then 0x0
  else if s.power.frozen then 0xC
  else
    match s.power.backoff with
    | some (start, _) =>
      let i := ((s.now s.bootDie).toNat - start.toNat) / (second / 4) % 6
      if i = 0 then 0xE
      else if i = 5 then s.power.lastFail
      else s.power.attempts / 16 ^ (4 - i) % 16
    | none => if s.power.fwStopped then 0xF else if s.debug then 0xD else s.phaseCode

/-! ## Phases (R775) -/

/-- Phase 2: the boot ROM starts the lowest enabled core and measures itself (R654, R775). -/
def State.startRom (s : State) : State :=
  let s := s.setSc s.bootCore { Core.reset with pc := 0x000200000F000000, run := true }
  s.extendMr 0 (leBytes 8 Config.romVersion.toNat)

/-- A failed check of an image becomes a record (R653). -/
def State.imageFails (s : State) (c : BitVec 16) : State :=
  (s.secCode c).raise (s.rec0 s.bootDie uSec 0 c 0)

/-- An accepted image stands in the boot buffer, and phase 4 begins with the watchdog armed (R656, R775, R777). -/
def State.imageIn (s : State) (img config : List Byte) (source : Nat) : State :=
  let s := s.acceptImage img config
  let s := s.setRfld (regAt .pwr 0 0x38) 0 2 source
  { s with
    mem := memWrL s.mem (bootKey 0) (img.take (2 ^ 24))
    power := { s.power with phase := 4, netBy := none, phase5By := some (s.now s.bootDie + wd (30 * second)) } }

/-- Phase 3: slot A, then slot B, then network boot (R775). -/
def State.tryImages (s : State) (r : BootResult) : State :=
  let net := fun (s : State) =>
    ({ s with power := { s.power with netBy := some (s.now s.bootDie + wd (20 * second)) } } : State)
  let slotB := fun (s : State) =>
    if r.slotB.isEmpty then net s
    else if s.imageCode r.slotB = 0 then s.imageIn r.slotB r.config 1
    else net (s.imageFails (s.imageCode r.slotB))
  if r.slotA.isEmpty then slotB s
  else if s.imageCode r.slotA = 0 then s.imageIn r.slotA r.config 0
  else slotB (s.imageFails (s.imageCode r.slotA))

/-- Phase 4 ends: every populated stack is in service and holds zeros (R775). -/
def State.stacksUp (s : State) : State :=
  let s : State := { s with mem := memClear s.mem 0 s.part.hbm, poison := [], flips := [], cryptP := [], cryptU := [] }
  (upTo s.part.stacks).foldl (fun s k => s.setRfld (regAt .mc k 0) 0 1 1) s

/-- The phase under way ends, and the next begins (R775). -/
def State.bootPhase (s : State) (r : BootResult) : State :=
  let go := fun (s : State) (n : Nat) => ({ s with power := { s.power with phase := n } } : State)
  match s.power.phase with
  | 1 => if r.badRegs.isEmpty then (go s 2).startRom else s.failAttempt Code.PWR_PMBUS
  | 2 => go s 3
  | 3 => if s.power.netBy.isSome then s else s.tryImages r
  | 4 =>
    if r.badStacks.isEmpty then
      let s := s.stacksUp
      { s with power := { s.power with phase := 5, phase5By := none } }
    else s.failAttempt Code.PWR_HBM_TRAIN
  | 5 => go s 6
  | 6 => { s with power := { s.power with phase := 7, fails := 0 } }
  | _ => s

/-- Network boot has given no image within 20 s (R775). -/
def State.netTimeout (s : State) : State :=
  match s.power.netBy with
  | some t => if t.toNat ≤ (s.now s.bootDie).toNat then s.failAttempt Code.PWR_NO_IMAGE else s
  | none => s

/-- The boot watchdog (R777). -/
def State.bootWatchdog (s : State) : State :=
  match s.power.phase5By with
  | some t => if t.toNat ≤ (s.now s.bootDie).toNat then s.failAttempt Code.PWR_BOOT_TIMEOUT else s
  | none => s

/-- The back-off ends and the next attempt starts (R778). -/
def State.backoffEnd (s : State) : State :=
  match s.power.backoff with
  | some (_, t) =>
    if t.toNat ≤ (s.now s.bootDie).toNat then
      State.beginAttempt { s with power := { s.power with backoff := none } }
    else s
  | none => s

/-- The power domain of a solver core is on (R757). -/
def State.coreOn (s : State) (c : Nat) : Bool :=
  s.allOn || (match s.mapBit uCore c with
    | some b => s.domainOn (20 + (b - 832) / 24)
    | none => false)

/-- A write of `PWR_CTRL.RELEASE` (R775): the cores held in reset start at `PWR_SCVEC`. -/
def State.releaseCores (s : State) : State :=
  (upTo s.part.sc).foldl (fun s c =>
    let x := s.sc c
    if x.run || x.stopped || !s.coreOn c then s else s.setSc c (s.freshCore true)) s

/-! ## Domains (R757 to R760) -/

/-- The solver cores of half k (domain 20 + k). -/
def State.coresOfHalf (s : State) (k : Nat) : List Nat :=
  (upTo s.part.sc).filter (fun c => match s.mapBit uCore c with | some b => (b - 832) / 24 == k | none => false)

/-- The clusters of quadrant k (domain k). -/
def State.clustersOf (s : State) (k : Nat) : List Nat :=
  (upTo s.part.clusters).filter (fun n => s.part.physCl n / 52 == k)

/-- The ports of SerDes bank k (domain 26 + k). -/
def portsOfBank (k : Nat) : List Nat := (upTo 9).map (fun i => 9 * k + i)

/-- A domain that software may switch (R757). -/
def switchable (k : Nat) : Bool := k < 16 || (20 ≤ k && k < 24) || (26 ≤ k && k < 30)

/-- Whether switching domain k to a state is refused (R758); the units that are in use stand in the way of switching off. -/
def State.domainBusy (s : State) (k : Nat) (on : Bool) (v : Word) : Bool :=
  !switchable k ||
  (!on && (
    if k < 16 then (s.clustersOf k).any (fun n => (s.cl n).st == .running || (s.cl n).pendingLl)
    else if k < 24 then (s.coresOfHalf (k - 20)).contains s.bootCore
    else if k = 26 then !s.portUp 18 || !bit v 28
    else if k = 28 then !s.portUp 0 || !bit v 26
    else false))

/-- Domain k is switched off (R759). -/
def State.domainOff (s : State) (k : Nat) : State :=
  if k < 16 then (s.clustersOf k).foldl (fun s n => s.clearCluster n) s
  else if k < 24 then (s.coresOfHalf (k - 20)).foldl (fun s c => s.setSc c Core.reset) s.flushLines
  else
    (portsOfBank (k - 26)).foldl (fun s p =>
      let s := if s.portUp p then s.leaveUp p else s.setPortState p 0
      s.raise (s.rec0 (6 + p / 18) uPort p 0 7)) s

/-- A write of `PWR_DOMAIN` (R758 to R760): the code of its refusal, or 0. -/
def State.writeDomain (s : State) (v : Word) : State × BitVec 16 :=
  let old := s.reg pwrDomain
  let ch := (upTo 44).filter (fun k => bit old k != bit v k)
  if ch.any (fun k => s.domainBusy k (bit v k) v) then (s.pwrCode Code.PWR_DOMAIN_BUSY, Code.PWR_DOMAIN_BUSY)
  else
    let t := s.now 4 + 80000
    let s := (ch.filter (fun k => !bit v k)).foldl (fun s k => s.domainOff k) s
    let s := s.setReg pwrDomain (wd (fld v 0 44))
    let on := ch.filter (fun k => bit v k)
    ({ s with power := { s.power with
        turningOn := s.power.turningOn.filter (fun x => bit v x.1) ++ on.map (fun k => (k, t)) } }, 0)

/-- Domain k reaches full operation 20 µs after it was switched on (R760). -/
def State.domainReady (s : State) (k : Nat) : State :=
  match s.power.turningOn.find? (fun x => x.1 == k) with
  | none => s
  | some (_, t) =>
    if (s.now 4).toNat < t.toNat then s
    else
      let s : State := { s with power := { s.power with turningOn := s.power.turningOn.filter (fun x => x.1 != k) } }
      if k < 16 then s
      else if k < 24 then (s.coresOfHalf (k - 20)).foldl (fun s c => s.setSc c (s.freshCore true)) s
      else (portsOfBank (k - 26)).foldl (fun s p => if s.mayTrain p then s.setPortState p 1 else s) s

/-! ## Frequency levels (R761 to R766) -/

/-- `PWR_LEVEL.Lx` (R783). -/
def State.level (s : State) (d : Nat) : Nat := s.rfld (regAt .pwr 0 0x30) (4 * d) 4
/-- `PWR_FLOOR.Lx`. -/
def State.floorOf (s : State) (d : Nat) : Nat := s.rfld (regAt .pwr 0 0x18) (4 * d) 4
/-- `PWR_CEIL.Lx`. -/
def State.ceilOf (s : State) (d : Nat) : Nat := s.rfld (regAt .pwr 0 0x20) (4 * d) 4

/-- A list with a number in it or not. -/
def setIn (l : List Nat) (n : Nat) (yes : Bool) : List Nat :=
  if yes then if l.contains n then l else l ++ [n] else l.filter (· != n)

/-- A cause of R763 other than the ceiling holds die d down. -/
def State.heldDown (s : State) (d : Nat) : Bool :=
  s.power.hotTj.contains d
    || (d < 4 && (s.power.overP || s.power.overI.contains d
      || (upTo s.part.stPerAd).any (fun i => decide (2 ≤ s.rfld (regAt .mc (d * s.part.stPerAd + i) 0) 8 2))))

/-- One interval of the causes of R763 at die d: it steps down, or up once no cause holds (R763, R764); a die that a failed
regulator feeds stays at the lowest level (R755). -/
def State.freqStep (s : State) (d : Nat) : State :=
  let l := s.level d
  let c := s.heldDown d
  if s.power.stuckLow.contains d then s
  else if c || decide (l < s.ceilOf d) then
    if 12 ≤ l then s
    else
      let s := (s.setRfld (regAt .pwr 0 0x30) (4 * d) 4 (l + 1)).pwrCode Code.PWR_THROTTLE
      let s := s.raise (s.pwrRec d Code.PWR_THROTTLE 5)
      if c && decide (s.floorOf d < l + 1) && !decide (s.floorOf d < s.ceilOf d) && !s.power.excursion.contains d then
        let s : State := { s with power := { s.power with excursion := s.power.excursion ++ [d] } }
        (s.pwrCode Code.PWR_FLOOR_OVERRIDE).raise (s.pwrRec d Code.PWR_FLOOR_OVERRIDE 5)
      else s
  else if s.ceilOf d < l then
    let s := s.setRfld (regAt .pwr 0 0x30) (4 * d) 4 (l - 1)
    { s with power := { s.power with excursion := setIn s.power.excursion d (s.power.excursion.contains d && decide (s.floorOf d < l - 1)) } }
  else s

/-- A junction reading of die d (R763, R765): its cause rises above 100 °C and clears below 97 °C, and above 115 °C the
package shuts down. -/
def State.junction (s : State) (d tj : Nat) : State :=
  let hot := if 100 < tj then true else if tj < 97 then false else s.power.hotTj.contains d
  let s : State := { s with power := { s.power with tj := s.power.tj.set d tj, hotTj := setIn s.power.hotTj d hot } }
  if 115 < tj then
    ((s.pwrCode Code.PWR_THERMTRIP).raise (s.pwrRec d Code.PWR_THERMTRIP 5)).protectiveShutdown
  else s

/-- `PWR_ILIM.Ax` (R783). -/
def State.ilim (s : State) (d : Nat) : Nat := s.rfld (regAt .pwr 0 0x28) (16 * d) 16

/-- The die that a regulator feeds, by its PMBus address (R753). -/
def dieOfReg (a : Nat) : Option Nat := if 0x40 ≤ a ∧ a ≤ 0x45 then some (a - 0x40) else none

/-- A regulator is silent or faulted (R755): a record; the attempt fails, or after Ready the die goes to its lowest level
for good. -/
def State.badReg (s : State) (a : Nat) : State :=
  if s.power.phase ≠ 7 then if s.power.phase = 0 then s else s.failAttempt Code.PWR_PMBUS
  else
    let s := (s.pwrCode Code.PWR_PMBUS).raise (s.pwrRec ((dieOfReg a).getD 4) Code.PWR_PMBUS 0)
    match dieOfReg a with
    | some d =>
      let s := s.setRfld (regAt .pwr 0 0x30) (4 * d) 4 12
      { s with power := { s.power with stuckLow := setIn s.power.stuckLow d true } }
    | none => s

/-- One poll of the regulators (R755, R763): currents, the power averaged over the last four polls (1 ms), and regulators
that fail. -/
def State.pmbus (s : State) (r : PmbusReadings) : State :=
  let pins := (s.power.pins ++ [r.pin]).drop (s.power.pins.length + 1 - 4)
  let avg4 := pins.foldl (· + ·) 0
  let n := pins.length
  let e := s.part.envelope
  let overP := if n * e < avg4 then true else if avg4 * 100 < n * e * 97 then false else s.power.overP
  let overI := (upTo 4).foldl (fun l d =>
    let i := nth r.iout 0 d
    if s.ilim d < i then setIn l d true else if i * 100 < s.ilim d * 95 then setIn l d false else l) s.power.overI
  let s : State := { s with power := { s.power with pins := pins, overP := overP, overI := overI } }
  r.bad.foldl (fun s a => s.badReg a) s

end Sys2Proof.Machine
end

