-- ==== Sys2Proof/Machine/RegOps.lean ====
section
/-! DEFINITION. Reading and writing a register of the register region: what registers that show a unit's state read as, the
types of fields (R7), and the writes that act (R7 to R10, R24, R203, R420, R456, R522, R551, R562, R655, R747, R750, R758, R774,
R775, R783, R810). -/

namespace Sys2Proof.Machine

/-! ## What registers show -/

/-- The code of a cluster's state (R281). -/
def ClState.num : ClState → Nat
  | .empty => 0 | .loaded => 1 | .running => 2 | .faulted => 3

/-- The code of a bank's state (R159). -/
def bankNum : Option Chain → Nat
  | none => 0
  | some c => match c.state with | .open => 1 | .draining => 2 | .relighting => 3

/-- An EE instruction of a cluster, one of R168, is issued and not complete (R204, R211). -/
def Cluster.eeBusy (c : Cluster) : Bool := c.eeQ.any (fun i => opOf i.word < 0x58) || !c.eePend.isEmpty

/-- A statistic set holds no values (R206). -/
def Cluster.setEmpty (c : Cluster) (j : Nat) : Bool :=
  let x := c.sets.get StatSet.empty j
  x.n == 0 && x.nans == 0 && x.feeds.all (fun f => f.lanes.all (fun l => l.isNone))

/-- The registers of a cluster block that show its state (R159, R202 to R206, R281 to R284). A 64 × 16 chain shows in `BANK0` alone
(DESIGN CHOICE, log 107). -/
def State.clView (s : State) (n o : Nat) (w : Word) : Word :=
  let c := s.cl n
  if 0x1000 ≤ o && o < 0x1200 then
    let q := c.q ((o - 0x1000) / 16)
    if o % 16 = 0 then q.bind else wd (q.occ % 64 + q.retained.length % 64 * 256)
  else if 0x4000 ≤ o && o < 0x4800 then word64 (memRdN s.mem (wickKey n (o - 0x4000)) 8) 0
  else if 0x4800 ≤ o && o < 0x4B60 then
    let i := (o - 0x4800) / 4
    wd ((Config.tanhTable i).toNat + (Config.tanhTable (i + 1)).toNat * 2 ^ 32)
  else
    match o with
    | 0x0000 => wd (c.st.num + b2n c.bound * 8 + b2n c.pendingLl * 16 + c.pc % 4096 * 2 ^ 16 + c.codeWords % 8192 * 2 ^ 32)
    | 0x0008 => c.fault
    | 0x0010 => match c.latch with | some (code, eng, pc) => faultWord code eng pc 0 | none => 0
    | 0x0020 => wd c.exit.toNat
    | 0x0028 => wd (c.cyc / 16 % 2 ^ 48)
    | 0x2008 => setFld w 0 4 (bankNum c.bank0 + 4 * bankNum c.bank1)
    | 0x3000 => setFld w 0 1 (b2n c.eeBusy)
    | 0x3010 => wd ((c.k.get 0 0).toNat + (c.k.get 0 1).toNat * 2 ^ 32)
    | 0x3018 => wd ((c.k.get 0 2).toNat + (c.k.get 0 3).toNat * 2 ^ 32)
    | 0x5000 => setFld w 0 4 ((upTo 4).foldl (fun a j => a + b2n (c.setEmpty j) * 2 ^ j) 0)
    | 0x6000 => setFld w 0 1 (b2n (!c.dm.isEmpty))
    | _ => w

/-- The code of a phase of a least-squares engine (R410). -/
def Phase.code : Phase → Nat
  | .idle => 0 | .load => 1 | .wait => 2 | .test => 3 | .form => 4 | .factor => 5 | .solve => 6 | .publish => 7

/-- The registers of a least-squares engine (R419, R420). -/
def State.lseView (s : State) (n o : Nat) (w : Word) : Word :=
  let x := s.lse n
  match o with
  | 0x00 => setFld w 0 24 (x.phase.code + b2n x.resident * 16 + x.facts % 65536 * 256)
  | 0x08 => x.hash
  | 0x18 => wd ((x.e % 256).toNat + b2n x.lm * 256)
  | _ => w

/-- Copy-on-write is armed on the MC of stack k and its update unit runs (R444, R489). -/
def State.staging (s : State) (k : Nat) : Bool × Bool := (bit (s.reg (regAt .mc k 0x50)) 63, (s.uu k).busy)

/-- The registers of a memory controller (R494, R495). -/
def State.mcView (s : State) (k o : Nat) (w : Word) : Word :=
  if 0x4000 ≤ o then
    let b := (o - 0x4000) * 8
    wd ((s.mc k).cow.foldl (fun a g => if b ≤ g ∧ g < b + 64 then a + 2 ^ (g - b) else a) 0)
  else
    match o with
    | 0x50 => setFld w 0 19 (s.mc k).cow.length
    | 0x58 => wd (b2n (s.staging k).1 + 2 * b2n (s.staging k).2)
    | 0x60 => wd ((s.mc k).keys.length % 128)
    | _ => w

/-- `LL_NEXT.T` of die d (R592). -/
def State.llNext (s : State) (d : Nat) : Word :=
  ((s.lamp d).entries.filter (·.armed)).foldl (fun a e => if e.t.toNat < a.toNat then e.t else a) (wd (2 ^ 64 - 1))

/-- The registers of router f (R518, R554, R555). -/
def State.frView (s : State) (f o : Nat) (w : Word) : Word :=
  match o with
  | 0x08 => setFld w 32 32 (s.drain f)
  | 0x18 => (s.fr f).rt.get 0 (s.rfld (frReg f 0x10) 14 1 * 16384 + s.rfld (frReg f 0x10) 0 14)
  | 0x30 =>
    let srcs := ((s.fr f).haT.map (·.spkg)).eraseDups.length
    setFld (setFld w 0 16 (min (s.fr f).haQ.length 65535)) 32 13 srcs
  | _ => w

/-- The registers of a time unit (R593). -/
def State.tmView (s : State) (f o : Nat) (w : Word) : Word :=
  match o with
  | 0x08 => setFld w 0 2 (b2n (s.locked (6 + f)) + 2 * b2n (s.tm.holds.contains (6 + f)))
  | 0x10 => s.now (6 + f)
  | 0x18 => wd (s.rate (6 + f))
  | _ => w

/-- The registers of a collective unit (R594): the current group, or the last one, which has become FINAL. -/
def State.cuView (s : State) (f o : Nat) (w : Word) : Word :=
  let x := s.cu f
  match o with
  | 0x00 =>
    match x.group with
    | some g => setFld w 0 2 (if g.final.isSome then 2 else 1)
    | none => setFld w 0 2 (if x.closed.isEmpty then 0 else 2)
  | 0x20 =>
    match x.group with
    | some g => wd g.ident
    | none => nth x.closed 0 (x.closed.length - 1)
  | _ => w

/-- The core that `DBG_SCCTL` selects, and the number of the register (R751). -/
def State.dbgSel (s : State) : Nat × Nat := (s.rfld (regAt .dbg 0 0x200) 0 7, s.rfld (regAt .dbg 0 0x200) 16 8)

/-- A register of a solver core by its debug number (R751); reserved numbers read zero. -/
def Core.dbgReg (x : Core) (r : Nat) : Word :=
  if r = 0 then 0
  else if r < 32 then x.g.get 0 r
  else if r < 64 then (x.v.get 0 (r - 32)).setWidth 64
  else if r = 64 then x.pc else 0

/-- The registers of the DBG block (R748 to R752). -/
def State.dbgView (s : State) (o : Nat) (w : Word) : Word :=
  if 0x1000 ≤ o && o < 0x1080 then word64 (leBytes 128 s.part.dumap.toNat) (o - 0x1000)
  else if 0x1080 ≤ o && o < 0x1100 then word64 (leBytes 128 s.err.retired.toNat) (o - 0x1080)
  else if 0x1100 ≤ o && o < 0x1180 then word64 (leBytes 128 s.part.spare.toNat) (o - 0x1100)
  else
    match o with
    | 0x208 => wd (b2n (decide (s.dbgSel.1 < s.part.sc) && (s.sc s.dbgSel.1).halted))
    | 0x210 => if s.dbgSel.1 < s.part.sc then (s.sc s.dbgSel.1).dbgReg s.dbgSel.2 else 0
    | _ => w

/-- The registers of the SEC block (R678, R679). -/
def State.secView (s : State) (o : Nat) (w : Word) : Word :=
  if 0x40 ≤ o && o < 0x80 then word64 s.devid (o - 0x40)
  else if 0x80 ≤ o && o < 0xC0 then word64 (padTo 64 s.sec.nonce) (o - 0x80)
  else if 0x100 ≤ o && o < 0x200 then word64 (nth s.sec.mr [] ((o - 0x100) / 64)) (o % 64)
  else
    match o with
    | 0x00 => setFld w 8 8 s.sec.bind.length
    | 0x08 => wd (s.part.svn % 128)
    | _ => w

/-- The registers of the SYS block (R33 to R40). -/
def State.sysView (s : State) (o : Nat) (w : Word) : Word :=
  if 0x40 ≤ o && o < 0x80 then word64 s.dumapDigest (o - 0x40)
  else
    match o with
    | 0x00 => s.sysId
    | 0x10 => s.sysSize
    | 0x18 => wd (s.part.hbm - 1)
    | 0x20 => s.sysQcount 0
    | 0x28 => s.sysQcount 1
    | _ => w

/-- The registers of a solver core's debug block (R337). -/
def Core.debugView (x : Core) (o : Nat) : Word :=
  match o with
  | 0x00 => wd (x.pc.toNat / 4 * 4 + x.level % 4)
  | 0x08 => wd x.retired
  | 0x10 => x.last
  | _ => 0

/-- The unit of a register block instance is absent in the grade (R24). -/
def State.absent (s : State) (b : Blk) (i : Nat) : Bool :=
  match b with
  | .mc => decide (s.part.stacks ≤ i)
  | .uu => decide (s.part.stacks ≤ i)
  | .lse => decide (s.part.lse ≤ i)
  | .scd => decide (s.part.sc ≤ i)
  | _ => false

/-- What the register at offset `o` of instance `i` of a block reads as, before a read clears anything (R7, R8, R24). -/
def State.regView (s : State) (b : Blk) (i o : Nat) : Word :=
  let w := s.reg (regAt b i o)
  if s.absent b i then 0
  else
    match b with
    | .sys => s.sysView o w
    | .pwr => if o = 0x38 then setFld (setFld w 32 4 s.statusPins) 48 16 s.power.attempts else w
    | .clk => if o = 0 then setFld w 1 1 (b2n s.part.strapOut) else w
    | .sec => s.secView o w
    | .dbg => s.dbgView o w
    | .ll =>
      match o with
      | 0x00 => setFld w 0 7 (s.lamp i).entries.length
      | 0x08 => s.llNext i
      | _ => w
    | .mc => s.mcView i o w
    | .uu => if o = 0 then setFld w 0 19 (b2n (s.uu i).busy + 2 * b2n ((s.staging i).1 && (s.staging i).2) + (s.uu i).idx * 64) else w
    | .se =>
      if o = 0 then setFld w 0 8 (fld (s.reg (regAt .se 0 0)) 0 8)
      else if o = 0x1000 && i = 0 then setFld w 3 1 (b2n s.quiet) else w
    | .lse => s.lseView i o w
    | .dsp => if o = 0 then setFld w 0 4 (s.dsp i).lists.length else w
    | .fl => w
    | .fr => s.frView i o w
    | .cu => s.cuView i o w
    | .tm => s.tmView i o w
    | .he =>
      match o with
      | 0x00 => setFld w 16 5 (s.he i).sessions.length
      | 0x10 => if i = 0 then s.part.mac0.setWidth 64 else s.part.mac1.setWidth 64
      | 0x38 => 0
      | _ => w
    | .scd => (s.sc i).debugView o
    | .bootBuf => word64 (memRdN s.mem (bootKey o) 8) 0
    | .bootRom => word64 ((upTo 8).map (fun j => Config.bootRom (o + j))) 0
    | .cl => s.clView i o w

/-- A read of a register (R7): an RC field returns its value and clears to its reset value. -/
def State.regRead (s : State) (b : Blk) (i o : Nat) : State × Word :=
  let w := s.regView b i o
  let d := regDef b i o
  if d.rc = 0 || s.absent b i then (s, w)
  else
    let x := s.reg (regAt b i o)
    (s.setReg (regAt b i o) ((x &&& ~~~ (wd d.rc)) ||| (wd d.reset &&& wd d.rc)), w)

/-! ## Writes that act -/

/-- A write by the types of a register's fields (R7, R10). -/
def State.writeTyped (s : State) (b : Blk) (i o : Nat) (v : Word) : State :=
  let d := regDef b i o
  let m := wd (d.rw ||| (if s.launched then 0 else d.rwl))
  let x := s.reg (regAt b i o)
  s.setReg (regAt b i o) (((x &&& ~~~ m) ||| (v &&& m)) &&& ~~~ (v &&& wd d.w1c))

/-- A discarded write of a DBG register records a code (R747, R750, R810). -/
def State.dbgRefuse (s : State) (c : BitVec 16) : State × BitVec 16 := (s.setRfld (regAt .dbg 0 0) 32 16 c.toNat, c)

/-- A write of `DBG_RINGd_BASE` (R722, R750): enabling the ring writes the held records. -/
def State.writeRingBase (s : State) (d : Nat) (v : Word) : State × BitVec 16 :=
  let on := bit (s.reg (ringReg d 0)) 0
  let size := s.rfld (ringReg d 0x08) 0 5
  let a := fld v 6 44 * 64
  if bit v 0 && (on || a % (2 ^ size * 64) ≠ 0 || s.part.hbm < a + 2 ^ size * 64) then s.dbgRefuse Code.DBG_REG_VALUE
  else
    let s := s.setReg (ringReg d 0) (v &&& wd (mask 49 6 + 1))
    (if bit v 0 then s.ringEnabled d else s.runRing d, 0)

/-- A write of `DBG_RINGd_SIZE` (R750). -/
def State.writeRingSize (s : State) (d : Nat) (v : Word) : State × BitVec 16 :=
  if bit (s.reg (ringReg d 0)) 0 || fld v 0 5 < 6 || 16 < fld v 0 5 then s.dbgRefuse Code.DBG_REG_VALUE
  else (s.setReg (ringReg d 0x08) (wd (fld v 0 5)), 0)

/-- Solver-core halt is unlocked (R747). -/
def State.haltOk (s : State) : Bool := s.debug && bit (s.reg secStatus) 18

/-- A core is told to halt, resume or step (R747, R751). -/
def State.haltCore (s : State) (c : Nat) : State := s.modSc c (fun x => { x with halted := true, stepping := false })
/-- A core resumes. -/
def State.resumeCore (s : State) (c : Nat) : State := s.modSc c (fun x => { x with halted := false, stepping := false })
/-- A halted core executes one instruction and then halts. -/
def State.stepCore (s : State) (c : Nat) : State :=
  s.modSc c (fun x => if x.halted then { x with halted := false, stepping := true } else x)

/-- A write of `DBG_SCCTL` (R747, R751). -/
def State.writeScctl (s : State) (v : Word) : State × BitVec 16 :=
  if !s.haltOk then s.dbgRefuse Code.SEC_LOCKED
  else
    let s := s.setReg (regAt .dbg 0 0x200) (v &&& wd (mask 23 16 + mask 6 0))
    let c := fld v 0 7
    if s.part.sc ≤ c then (s, 0)
    else
      let s := if bit v 8 then s.haltCore c else s
      let s := if bit v 9 then s.resumeCore c else s
      (if bit v 10 then s.stepCore c else s, 0)

/-- A core with a register set by its debug number (R751). -/
def Core.setDbgReg (x : Core) (r : Nat) (v : Word) : Core :=
  if r = 0 then x
  else if r < 32 then { x with g := x.g.set r v }
  else if r < 64 then
    { x with v := x.v.set (r - 32) (BitVec.ofNat 2048 ((x.v.get 0 (r - 32)).toNat / 2 ^ 64 * 2 ^ 64 + v.toNat)) }
  else if r = 64 then { x with pc := wd (v.toNat / 4 * 4) } else x

/-- A write of `DBG_SCREG` (R747, R751). -/
def State.writeScreg (s : State) (v : Word) : State × BitVec 16 :=
  if !s.haltOk then s.dbgRefuse Code.SEC_LOCKED
  else
    let (c, r) := s.dbgSel
    if c < s.part.sc && (s.sc c).halted then (s.modSc c (fun x => x.setDbgReg r v), 0) else (s, 0)

/-- A discarded write of a PWR register records `PWR_REG_VALUE` (R783, R810). -/
def State.pwrRefuse (s : State) : State × BitVec 16 := (s.pwrCode Code.PWR_REG_VALUE, Code.PWR_REG_VALUE)

/-- Six fields of a level hold 12 or less (R783). -/
def levelsOk (v : Word) : Bool := (upTo 6).all (fun x => decide (fld v (4 * x) 4 ≤ 12))

/-- A write of `PWR_CTRL` (R773 to R775). -/
def State.writePwrCtrl (s : State) (v : Word) : State :=
  if bit v 0 then s.packageReset else if bit v 1 then s.releaseCores else s

/-- A write of a PWR register (R758, R774, R775, R783). -/
def State.writePwr (s : State) (o : Nat) (v : Word) : State × BitVec 16 :=
  match o with
  | 0x08 => (s.writePwrCtrl v, 0)
  | 0x10 => s.writeDomain v
  | 0x18 => if levelsOk v then (s.writeTyped .pwr 0 o v, 0) else s.pwrRefuse
  | 0x20 => if levelsOk v then (s.writeTyped .pwr 0 o v, 0) else s.pwrRefuse
  | 0x40 => if fld v 0 2 = 0 then (s.writeTyped .pwr 0 o v, 0) else s.pwrRefuse
  | _ => (s.writeTyped .pwr 0 o v, 0)

/-- Whether a write of `FR_EPOCH` writes the epoch of bank b: it differs, or it makes an invalid bank valid (log 51). -/
def State.bankWritten (s : State) (f b : Nat) (v : Word) : Bool :=
  let e := fld v (4 + 2 * b) 2
  e != s.bankEpoch f b || (!s.bankValid f b && e == (s.curEpoch f + 1) % 4)

/-- A write of `FR_EPOCH` (R521, R522, R554): each field that it changes; a write that a rule forbids is discarded whole. -/
def State.writeEpoch (s : State) (f : Nat) (v : Word) : State × BitVec 16 :=
  let step := fun (x : State × BitVec 16) (g : State → State × BitVec 16) => if x.2 = 0 then g x.1 else x
  let bank := fun (b : Nat) (s : State) => if s.bankWritten f b v then s.writeEpochBank f b (fld v (4 + 2 * b) 2) else (s, 0)
  let cur := fun (s : State) => if fld v 0 2 ≠ s.curEpoch f then s.writeEpochCur f (fld v 0 2) else (s, 0)
  let ret := fun (s : State) => if bit v 11 then (s.writeRetire f, (0 : BitVec 16)) else (s, 0)
  let r := step (step (step (step (s, 0) (bank 0)) (bank 1)) cur) ret
  if r.2 = 0 then r else s.frRefuse f

/-- A write of a router register (R522, R554). -/
def State.writeFr (s : State) (f o : Nat) (v : Word) : State × BitVec 16 :=
  match o with
  | 0x08 => s.writeEpoch f v
  | 0x18 => s.writeRtData f v
  | _ => (s.writeTyped .fr f o v, 0)

/-- A write of a memory controller register (R456, R462, R477). -/
def State.writeMc (s : State) (k o : Nat) (v : Word) : State × BitVec 16 :=
  if 0x100 ≤ o && o < 0x180 then (s.writeMcPart k ((o - 0x100) / 8) v, 0)
  else
    match o with
    | 0x08 => s.writeMcMap k v
    | 0x28 => s.writeMcRefresh k v
    | _ => (s.writeTyped .mc k o v, 0)

/-- A write of a DBG register (R747, R749 to R752). -/
def State.writeDbg (s : State) (o : Nat) (v : Word) : State × BitVec 16 :=
  if 0x100 ≤ o && o < 0x200 && o % 0x20 = 0 then s.writeRingBase ((o - 0x100) / 0x20) v
  else if 0x100 ≤ o && o < 0x200 && o % 0x20 = 8 then s.writeRingSize ((o - 0x100) / 0x20) v
  else
    match o with
    | 0x200 => s.writeScctl v
    | 0x210 => s.writeScreg v
    | _ => (s.writeTyped .dbg 0 o v, 0)

/-- A write of the wick memory of cluster n (R203). -/
def State.writeWick (s : State) (n o : Nat) (v : Word) : State × BitVec 16 :=
  if (s.cl n).eeBusy then (s.setRfld (clReg n 0x3000) 16 16 Code.CL_WICK_BUSY.toNat, Code.CL_WICK_BUSY)
  else ({ s with mem := memWrL s.mem (wickKey n o) (leBytes 8 v.toNat) }, 0)

/-- A write of a register (R7 to R10, R24, R810): the code of its discard, or 0. `fw` says that firmware writes, which alone
writes `HE_MKEY` (R715). -/
def State.regWrite (s : State) (fw : Bool) (b : Blk) (i o : Nat) (v : Word) : State × BitVec 16 :=
  if s.absent b i then (s, 0)
  else
    match b with
    | .pwr => s.writePwr o v
    | .sec => if o = 8 && bit v 8 then (s.svnAdvance, 0) else (s, 0)
    | .dbg => s.writeDbg o v
    | .mc => s.writeMc i o v
    | .uu => if o = 8 then (uuStepWriteStep i (BitVec.ofNat 32 (fld v 0 32)) s, 0) else (s, 0)
    | .lse =>
      if o = 0x20 then
        let s := if bit v 1 then lseDropStep i s else s
        (if bit v 0 then lseStopStep i s else s, 0)
      else (s.writeTyped .lse i o v, 0)
    | .fl =>
      if o % 0x1000 = 0 && o / 0x1000 < 18 then (s.writeFlEn (18 * i + o / 0x1000) v, 0) else (s.writeTyped .fl i o v, 0)
    | .fr => s.writeFr i o v
    | .tm => if o = 0 && i = 0 then (s.writeTmCtrl v, 0) else (s.writeTyped .tm i o v, 0)
    | .he => if o = 0x38 then (if fw then s.setReg (regAt .he i o) v else s, 0) else (s.writeTyped .he i o v, 0)
    | .cl => if 0x4000 ≤ o && o < 0x4800 then s.writeWick i (o - 0x4000) v else (s.writeTyped .cl i o v, 0)
    | .bootBuf => ({ s with mem := memWrL s.mem (bootKey o) (leBytes 8 v.toNat) }, 0)
    | _ => (s.writeTyped b i o v, 0)

end Sys2Proof.Machine
end

