-- ==== Sys2Proof/Machine/AccessOps.lean ====
section
/-! DEFINITION. The loads and stores of a control core (R215, R216): local memory, registers and other packages. -/

namespace Sys2Proof.Machine

/-- How cluster n reaches memory (R215, R459): class 1, activity USER, the tag of its job; its loads are priority reads. -/
def State.ccReq (s : State) (n : Nat) (prio : Bool) : Req := ⟨1, 0, s.workTag, prio, s.part.dieOfCl n⟩

/-- The instruction at `pc` has done its access, and the next one follows; where the access has reset the cluster, none
does. -/
def State.ccWent (s : State) (n pc : Nat) : State := if (s.cl n).st = .running then (s.modCl n (fun c => { c with wait := none })).ccNext n pc else s

/-- A memory refusal stops the program (R215). -/
def State.ccMemFault (s : State) (n pc : Nat) (code : BitVec 16) : State := s.stopProgram n Code.CL_MEM_FAULT 0 pc code

/-- The register blocks that a control core does not reach (R23, R25). -/
def ccHidden (b : Blk) : Bool := b == .sec || b == .dbg || b == .bootBuf || b == .bootRom

/-- What an earlier program of cluster n has still under way no longer reports to its control core. -/
def State.disown (s : State) (n : Nat) : State :=
  { s with
    reqs := s.reqs.map (fun r => if r.owner = .cc n then { r with owner := .none } else r)
    mcs := s.mcs.map (fun x => (x.1, { x.2 with
      held := x.2.held.map (fun h => if h.owner = .cc n then { h with owner := .none } else h) })) }

/-- The control core of cluster n waits for an access (R216). -/
def State.ccWait (s : State) (n : Nat) (w : CcWait) : State := s.modCl n (fun c => { c with wait := some w, wdog := 0 })

/-- Memory does not let an access of the control core start: it is tried again, and holds the watchdog back meanwhile (R252). -/
def State.ccRetry (s t : State) (n : Nat) : State := (s.keepAsk t).ccWait n .mem

/-- Load the word at a local address into scalar register `rd`. The unit that holds it is read (R215, R463). -/
def State.ccLoadLocal (s : State) (n pc rd a : Nat) : State :=
  let got := fun (s : State) (w : Word) => (s.modCl n (fun c => c.setSr rd w)).ccWent n pc
  match s.region a with
  | .hbm _ =>
    match s.hbmRead (s.ccReq n true) (a / 64 * 64) 64 with
    | (t, .done d) => got t (word64 d (a % 64))
    | (t, .refused c) => t.ccMemFault n pc c
    | (t, _) => s.ccRetry t n
  | .font _ _ | .imem _ _ =>
    match s.localRead (s.ccReq n false) a 8 with
    | (t, some (.done d)) => got t (word64 d 0)
    | (t, _) => s.ccRetry t n
  | .reg b i o =>
    if ccHidden b then s.stopProgram n Code.CL_UNMAPPED 0 pc 0
    else got (s.regRead b i o).1 (s.regRead b i o).2
  | .unmapped => s.stopProgram n Code.CL_UNMAPPED 0 pc 0

/-- Store a word at a local address. -/
def State.ccStoreLocal (s : State) (n pc a : Nat) (v : Word) : State :=
  match s.region a with
  | .hbm _ =>
    match (s.disown n).hbmWrite (s.ccReq n false) a (leBytes 8 v.toNat) (.cc n) with
    | (t, .done 0) => t.ccWent n pc
    | (t, .done _) => t.ccWait n .store
    | (t, .refused c) => t.ccMemFault n pc c
    | (t, .wait) => s.ccRetry t n
  | .font _ _ | .imem _ _ =>
    match s.localWrite (s.ccReq n false) a (leBytes 8 v.toNat) .none with
    | (t, some (.done _)) => t.ccWent n pc
    | (t, _) => s.ccRetry t n
  | .reg b i o =>
    if ccHidden b then s.stopProgram n Code.CL_UNMAPPED 0 pc 0
    else (s.regWrite false b i o v).1.ccWent n pc
  | .unmapped => s.stopProgram n Code.CL_UNMAPPED 0 pc 0

/-- `LD` at `pc` (R215): full addresses, of this package or of another. -/
def State.ccLoad (s : State) (n pc rd : Nat) (a : Word) : State :=
  if a.toNat % 8 ≠ 0 then s.stopProgram n Code.CL_ALIGN 0 pc 0
  else if s.isLocal a then s.ccLoadLocal n pc rd (addrLocal a)
  else
    ((s.disown n).ccWait n (.load rd)).sendReq (s.part.dieOfCl n)
      (s.userHdr opREAD a 8 s.workTag 0) [] (.cc n)

/-- `ST` at `pc` (R215). -/
def State.ccStore (s : State) (n pc : Nat) (a v : Word) : State :=
  if a.toNat % 8 ≠ 0 then s.stopProgram n Code.CL_ALIGN 0 pc 0
  else if s.isLocal a then s.ccStoreLocal n pc (addrLocal a) v
  else
    ((s.disown n).ccWait n .store).sendReq (s.part.dieOfCl n)
      (s.userHdr opWRITE a 8 s.workTag 0) (leBytes 8 v.toNat) (.cc n)

/-- The outcome of the access that the control core of cluster n waits for (R216). -/
def State.ccDone (s : State) (n : Nat) (code : BitVec 16) (data : List Byte) : State :=
  let c := s.cl n
  match c.wait with
  | none => s
  | some .mem => s
  | some w =>
    let s := s.modCl n (fun c => { c with wait := none })
    if code ≠ 0 then s.ccMemFault n c.pc code
    else
      match w with
      | .load rd => (s.modCl n (fun c => c.setSr rd (word64 data 0))).ccNext n c.pc
      | _ => s.ccNext n c.pc

end Sys2Proof.Machine
end

