-- ==== Sys2Proof/Machine/HostOps.lean ====
section
/-! DEFINITION. The receiving side of the host ports (R681 to R711): datagrams and their order, sessions and rights, what each
Buwen message does, requests relayed to other packages, and the management requests that other packages send. -/

namespace Sys2Proof.Machine

/-! ## Freeze (R743, R744) -/

/-- Snuff at its trigger (R744): controllers discard what is queued, and every clock stops. -/
def State.freeze (s : State) : State :=
  { s with
    mcs := s.mcs.map (fun x => (x.1, { x.2 with held := [] }))
    power := { s.power with frozen := true, frozenDebug := s.debug } }

/-! ## Datagrams (R685 to R689) -/

/-- A datagram is dropped and counted (R682, R687). -/
def State.bwBad (s : State) (f : Nat) : State := s.bump (regAt .he f 0x40) 0 16 1

/-- A list of numbers, rising, with one more. -/
def insertUp (n : Nat) : List Nat → List Nat
  | [] => [n]
  | x :: l => if n < x then n :: x :: l else x :: insertUp n l

/-- The window of the 4,096 highest counters accepted, with one more; none where the counter lies below it or has been
accepted (R687). -/
def nctrWindow (seen : List Nat) (n : Nat) : Option (List Nat) :=
  if seen.contains n then none
  else if 4096 ≤ seen.length then
    match seen with
    | x :: r => if n < x then none else some (insertUp n r)
    | [] => some [n]
  else some (insertUp n seen)

/-- The acknowledgement that a datagram carries (R689): what it covers is no longer kept. -/
def Session.takeAck (x : Session) (ack : Nat) : Session :=
  let left := x.unack.filter (fun u => decide (ack < u.1))
  { x with unack := left, resent := if left.length = x.unack.length then x.resent else 0 }

/-- The ticks of 20 µs (R689). -/
def ackTicks : Word := 80000

/-- Deliver what has come in order, and note when its acknowledgement is due (R689). -/
def Session.deliver (now : Word) : Nat → Session → Session
  | 0, x => x
  | fuel + 1, x =>
    if x.held.any (fun m => m.1 == x.rxSeq + 1) then
      Session.deliver now fuel { x with rxSeq := x.rxSeq + 1, ackDue := some (x.ackDue.getD (now + ackTicks)) }
    else x

/-- A numbered message joins those received: none where it lies more than 256 ahead (R689). -/
def Session.receive (x : Session) (now : Word) (seq : Nat) (m : BwMsg) : Session :=
  if x.rxSeq + 256 < seq then x else Session.deliver now 257 { x with held := x.held ++ [(seq, m)] }

/-- A message with this number has come already (R689). -/
def Session.duplicate (x : Session) (seq : Nat) : Bool := decide (seq ≤ x.rxSeq) || x.held.any (fun m => m.1 == seq)

/-! ## Modes and rights (R666, R699, R706) -/

/-- Network boot is under way (R706, R775). -/
def State.netBoot (s : State) : Bool := s.power.phase == 3 && s.power.netBy.isSome

/-- A session may write or read fonts and instruction memories (R699). -/
def State.mayUseFonts (s : State) : Role → Bool
  | .none => false
  | .operator => !s.tenantJob
  | .tenant t => s.launched && s.job.localTag == t

/-- A session may submit a list (R699). -/
def State.mayLaunch (s : State) : Role → Bool
  | .none => false
  | .operator => !s.tenantJob
  | .tenant t => (s.jobState == 1 || s.jobState == 2) && s.job.localTag == t

/-- The tag with which a session reaches memory (R699, R701). -/
def Role.tag : Role → BitVec 12
  | .tenant t => t
  | _ => 0

/-- What R666 refuses of an access of an operator path to a register during a tenant job. -/
def tenantBlocked (b : Blk) (o : Nat) (write : Bool) : Bool :=
  match b with
  | .cl => write || (0x4000 ≤ o && o < 0x4800) || o == 0x3010 || o == 0x3018
  | .lse | .uu | .dsp | .se => write
  | .sec => true
  | _ => false

/-! ## Registers over the operator paths (R666, R703, R709, R711) -/

/-- The register at a local address for an operator path: or the code of its refusal (R23, R25, R666, R703). -/
def State.opReg (s : State) (a : Nat) (write : Bool) : (Blk × Nat × Nat) ⊕ BitVec 16 :=
  if a % 8 ≠ 0 then .inr Code.HE_ADDR
  else
    match s.region a with
    | .reg b i o =>
      if s.tenantJob && tenantBlocked b o write then .inr Code.SEC_TENANT_STATE
      else if b = .sec || b = .bootBuf || b = .bootRom then .inr Code.HE_ADDR
      else .inl (b, i, o)
    | .font _ _ | .imem _ _ => .inr (if s.tenantJob then Code.SEC_TENANT_STATE else Code.HE_ADDR)
    | .hbm x => .inr (if s.tenantJob && s.tagOf x != 0 then Code.MC_TENANT else Code.HE_ADDR)
    | .unmapped => .inr Code.HE_ADDR

/-- The blocks keep the code of a refusal of local address `a` (R491, R679, R713). -/
def State.opRefuse (s : State) (f a : Nat) (c : BitVec 16) : State :=
  if c = Code.SEC_TENANT_STATE then s.tenantRefuse.1
  else if c = Code.MC_TENANT then s.mcRefuse (s.mapAddr a).1 c else s.heCode f c

/-- Read a register over an operator path: the status and the data of the answer. -/
def State.opRead (s : State) (f a : Nat) : State × BitVec 16 × List Byte :=
  match s.opReg a false with
  | .inr c => (s.opRefuse f a c, c, [])
  | .inl (b, i, o) =>
    let (s, w) := s.regRead b i o
    (s, 0, leBytes 8 w.toNat)

/-- Write a register over an operator path: the status of the answer (R810). -/
def State.opWrite (s : State) (f a : Nat) (v : Word) : State × BitVec 16 :=
  match s.opReg a true with
  | .inr c => (s.opRefuse f a c, c)
  | .inl (b, i, o) => s.regWrite false b i o v

/-! ## Relays (R710) -/

/-- Another package (R702): neither 0 nor this one. -/
def State.otherPkg (s : State) (p : Nat) : Bool := p != 0 && p != s.pkg

/-- `HE_MKEY` of port f (R715). -/
abbrev State.mkey (s : State) (f : Nat) : Word := s.reg (regAt .he f 0x38)

/-- A request of a session is relayed as a management request (R709, R710). -/
def State.relay (s : State) (f sess seq p : Nat) (op : Byte) (a len : Nat) (data : List Byte) : State :=
  (s.modSess f sess (fun x => { x with relays := x.relays + 1 })).sendReq (6 + f)
    { hdr0 with
      dpkg := BitVec.ofNat 14 p, daddr := BitVec.ofNat 50 a, op := op, len := BitVec.ofNat 10 len, tc := 7, act := 5
      arg := s.mkey f } data (.host f sess seq)

/-! ## Reads and writes of memory (R701, R707) -/

/-- The local range that a `WRITE` or `READ` names: none where R701 does not allow it. -/
def State.bwRange (s : State) (f : Nat) (addr : Word) (len : Nat) : Option Nat :=
  let a := addrLocal addr
  if (addrPkg addr = 0 ∨ addrPkg addr = s.pkg) ∧ 0 < len ∧ len ≤ s.bwMax f ∧ a / 4096 = (a + len - 1) / 4096 then some a
  else none

/-- How a session reaches memory (R701; log 53). -/
def hostReq (f : Nat) (r : Role) : Req := ⟨10, 0, r.tag, false, 6 + f⟩

/-- What a message asks for has not been refused and has to wait, or is done. -/
inductive BwRes where
  | wait
  | answer (code : BitVec 16) (data : List Byte)
  | later
  deriving DecidableEq, Repr

/-- A refusal with a code of the host port. -/
def State.heRefuse (s : State) (f : Nat) (c : BitVec 16) : State × BwRes := (s.heCode f c, .answer c [])

/-- A `WRITE` under way goes on (R701): its pieces are written as memory lets them, and it is answered once none is left and none is
held. -/
def State.bwWriteRun (s : State) (f : Nat) (r : Role) (id : Nat) (w : HostWrite) : State × BwRes :=
  match s.put (hostReq f r) (fun _ _ => .host f id w.seq) w.put 0 0 with
  | (s, p) =>
    let w := { w with
      put := if p.code.isSome then [] else p.rest
      heldW := w.heldW + p.held
      code := if w.code = 0 then p.code.getD 0 else w.code }
    let s := s.modSess f id (fun y => { y with writes := y.writes.filter (fun v => v.seq != w.seq) })
    if w.put.isEmpty && w.heldW == 0 then (s, .answer w.code [])
    else
      (s.modSess f id (fun y => { y with writes := y.writes ++ [w] }), if w.put.isEmpty then .later else .wait)

/-- The `WRITE` numbered `seq` of a session to a local range, begun or going on. -/
def State.bwWriteAt (s : State) (f : Nat) (x : Session) (seq a : Nat) (data : List Byte) : State × BwRes :=
  s.bwWriteRun f x.role x.id ((x.writes.find? (fun w => w.seq == seq)).getD ⟨seq, putPieces [(wd a, data)], 0, 0⟩)

/-- A `WRITE` (R701, R707). -/
def State.bwWrite (s : State) (f : Nat) (x : Session) (seq : Nat) (addr : Word) (data : List Byte) : State × BwRes :=
  if s.netBoot then
    if data.length = 0 ∨ s.bwMax f < data.length ∨ 2 ^ 24 < addr.toNat + data.length then s.heRefuse f Code.HE_ADDR
    else ({ s with mem := memWrL s.mem (bootKey addr.toNat) data }, .answer 0 [])
  else if x.role = .none then s.heRefuse f Code.HE_RIGHTS
  else
    match s.bwRange f addr data.length with
    | none => s.heRefuse f Code.HE_ADDR
    | some a =>
      match s.rangeIn a data.length with
      | .hbm _ => s.bwWriteAt f x seq a data
      | .font _ _ => if !s.mayUseFonts x.role then s.heRefuse f Code.HE_RIGHTS else s.bwWriteAt f x seq a data
      | .imem n _ =>
        if !s.mayUseFonts x.role then s.heRefuse f Code.HE_RIGHTS
        else if (s.cl n).st = .running ∨ (s.cl n).pendingLl then (s, .answer Code.CL_DM_RANGE [])
        else s.bwWriteAt f x seq a data
      | _ => s.heRefuse f Code.HE_ADDR

/-- A `READ` of a local range goes on: what has come stays with the session until all has. -/
def State.bwReadAt (s : State) (f : Nat) (x : Session) (a len : Nat) : State × BwRes :=
  match s.fetch (hostReq f x.role) x.got a len with
  | (s, _, .done d) => (s.modSess f x.id (fun y => { y with got := [] }), .answer 0 d)
  | (s, _, .refused c) => (s.modSess f x.id (fun y => { y with got := [] }), .answer c [])
  | (s, got, _) => (s.modSess f x.id (fun y => { y with got := got }), .wait)

/-- A `READ` (R701). -/
def State.bwRead (s : State) (f : Nat) (x : Session) (addr : Word) (len : Nat) : State × BwRes :=
  if x.role = .none then s.heRefuse f Code.HE_RIGHTS
  else
    match s.bwRange f addr len with
    | none => s.heRefuse f Code.HE_ADDR
    | some a =>
      match s.rangeIn a len with
      | .hbm _ => s.bwReadAt f x a len
      | .font _ _ | .imem _ _ => if !s.mayUseFonts x.role then s.heRefuse f Code.HE_RIGHTS else s.bwReadAt f x a len
      | _ => s.heRefuse f Code.HE_ADDR

/-! ## The other messages (R700, R702, R703, R706, R708) -/

/-- `REG_READ` (R699, R703). -/
def State.bwRegRead (s : State) (f : Nat) (x : Session) (seq : Nat) (addr : Word) : State × BwRes :=
  if x.role = .none then s.heRefuse f Code.HE_RIGHTS
  else if addr.toNat % 8 ≠ 0 then s.heRefuse f Code.HE_ADDR
  else if s.otherPkg (addrPkg addr) then (s.relay f x.id seq (addrPkg addr) 0x70 (addrLocal addr) 8 [], .later)
  else
    let (t, c, d) := s.opRead f (addrLocal addr)
    (t, .answer c d)

/-- `REG_WRITE` (R699, R703). -/
def State.bwRegWrite (s : State) (f : Nat) (x : Session) (seq : Nat) (addr v : Word) : State × BwRes :=
  if x.role ≠ .operator then s.heRefuse f Code.HE_RIGHTS
  else if addr.toNat % 8 ≠ 0 then s.heRefuse f Code.HE_ADDR
  else if s.otherPkg (addrPkg addr) then
    (s.relay f x.id seq (addrPkg addr) 0x71 (addrLocal addr) 8 (leBytes 8 v.toNat), .later)
  else
    let (t, c) := s.opWrite f (addrLocal addr) v
    (t, .answer c [])

/-- `LAUNCH` `LIST` (R278, R702, R817). -/
def State.bwList (s : State) (f : Nat) (x : Session) (pd : Nat) (list start record tag : Word) : State × BwRes :=
  if 2 ≤ pd then s.heRefuse f Code.HE_PROTO
  else if !s.mayLaunch x.role then s.heRefuse f Code.HE_RIGHTS
  else
    let (t, c, _) := s.submit pd list start record tag (.host f x.id)
    (t, .answer c [])

/-- `LAUNCH` `JOB_START` (R619). -/
def State.bwJobStart (s : State) (f : Nat) (x : Session) (b : List Byte) : State × BwRes :=
  if b.length ≠ 128 then s.heRefuse f Code.HE_PROTO
  else if x.role ≠ .operator then s.heRefuse f Code.HE_RIGHTS
  else
    match s.jobRoot b (some (f, x.id)) with
    | (t, some c) => (t, .answer c [])
    | (t, none) => (t, .wait)

/-- `LAUNCH` `TEARDOWN` (R625, R702). -/
def State.bwTeardown (s : State) (f : Nat) (x : Session) (seq : Nat) (job : BitVec 32) (p : BitVec 14) : State × BwRes :=
  if x.role ≠ .operator then s.heRefuse f Code.HE_RIGHTS
  else if s.otherPkg p.toNat then (s.relay f x.id seq p.toNat 0x73 0 4 (leBytes 4 job.toNat), .later)
  else
    let (t, c) := s.teardown job (some (f, x.id))
    (t, .answer c [])

/-- An answer can leave at once, before a reset or a freeze (R702). -/
def State.canAnswer (s : State) (f : Nat) (x : Session) : Bool := decide (x.unack.length < 256) && !s.hostPaused f

/-- `LAUNCH` `RESET` and `SNUFF` (R702): of another package relayed under an opcode; of this one answered, and then done. -/
def State.bwStop (s : State) (f : Nat) (x : Session) (seq : Nat) (op : Byte) (p : BitVec 14) (g : State → State) :
    State × BwRes :=
  if x.role ≠ .operator then s.heRefuse f Code.HE_RIGHTS
  else if s.otherPkg p.toNat then (s.relay f x.id seq p.toNat op 0 0 [], .later)
  else if s.canAnswer f x then (g (s.bwResp f x.id seq 0 []), .later)
  else (s, .wait)

/-- `LAUNCH` `BOOT` (R708): an accepted image is answered, the session closes, and the start goes on. -/
def State.bwBoot (s : State) (f : Nat) (x : Session) (seq len : Nat) : State × BwRes :=
  if !s.netBoot then s.heRefuse f Code.HE_NOT_BOOT
  else
    let img := memRdN s.mem (bootKey 0) (min len (2 ^ 24))
    let c := if 2 ^ 24 < len then Code.SEC_IMAGE_SIG else s.imageCode img
    if c ≠ 0 then (s.imageFails c, .answer c [])
    else if !s.canAnswer f x then (s, .wait)
    else
      let s := (s.bwResp f x.id seq 0 []).closeSess f x.id
      let (config, s) := s.openBytes 64
      (s.imageIn img config 2, .later)

/-- What a delivered message does (R692, R700 to R708): its answer, or that it has to wait, or is answered later. -/
def State.bwAct (s : State) (f : Nat) (x : Session) (seq : Nat) (m : BwMsg) : State × BwRes :=
  match m with
  | .write a d => s.bwWrite f x seq a d
  | .boot n => s.bwBoot f x seq n
  | .badPd true => s.heRefuse f Code.HE_PROTO
  | _ =>
    if s.netBoot then s.heRefuse f Code.HE_NOT_BOOT
    else
      match m with
      | .ack => (s, .later)
      | .badPd _ => s.heRefuse f Code.HE_PROTO
      | .report n =>
        if n.length ≠ 64 then s.heRefuse f Code.HE_PROTO
        else
          let (t, d) := s.attestReport n
          (t, .answer 0 d)
      | .keypkg p =>
        if p.length ≠ 536 then s.heRefuse f Code.HE_PROTO
        else
          let (t, c) := s.keypkg p
          (t, .answer c [])
      | .nonce => (s, .answer 0 (padTo 64 s.sec.nonce))
      | .token t =>
        if t.length ≠ 272 then s.heRefuse f Code.HE_PROTO
        else if x.role ≠ .operator then s.heRefuse f Code.HE_RIGHTS
        else
          let (t, c) := s.token t
          (t, .answer c [])
      | .list pd l st r t => s.bwList f x pd l st r t
      | .jobStart b => s.bwJobStart f x b
      | .teardown j p => s.bwTeardown f x seq j p
      | .reset p => s.bwStop f x seq 0x72 p State.packageReset
      | .snuff p => s.bwStop f x seq 0x7E p State.freeze
      | .write a d => s.bwWrite f x seq a d
      | .boot n => s.bwBoot f x seq n
      | .read a n => s.bwRead f x a n
      | .regWrite a v => s.bwRegWrite f x seq a v
      | .regRead a => s.bwRegRead f x seq a

/-! ## Starting messages in their order (R690, R691) -/

/-- A `WRITE` or a `READ`. -/
def BwMsg.overlaps : BwMsg → Bool
  | .write _ _ | .read _ _ => true
  | _ => false

/-- The delivered message with the lowest number, if its turn has come (R691). -/
def Session.nextUp (x : Session) : Option (Nat × BwMsg) :=
  let c := (x.held.filter (fun m => decide (m.1 ≤ x.rxSeq))).foldl (fun (best : Option (Nat × BwMsg)) m =>
    match best with
    | none => some m
    | some b => if m.1 < b.1 then some m else some b) none
  match c with
  | some m => if x.relays = 0 ∧ x.resps = [] ∧ (m.2.overlaps ∨ x.writes = []) then some m else none
  | none => none

/-- Run the delivered messages of a session whose turn has come, at most `fuel` of them. -/
def State.runN (f id : Nat) : Nat → State → State
  | 0, s => s
  | fuel + 1, s =>
    match s.session f id with
    | none => s
    | some x =>
      match x.nextUp with
      | none => s
      | some (seq, m) =>
        let t := s.modSess f id (fun y => { y with held := y.held.filter (fun h => h.1 != seq) })
        match t.bwAct f x seq m with
        | (u, .wait) => u.modSess f id (fun y => { y with held := (seq, m) :: y.held })
        | (u, .answer c d) => State.runN f id fuel (u.bwResp f id seq c d)
        | (u, .later) => if u.power.frozen then u else State.runN f id fuel u

/-- Run what may run in a session: it never holds more than 512 messages. -/
def State.runSession (s : State) (f id : Nat) : State := State.runN f id 512 s

/-- The outcome of a relayed request, or of a write that memory has held (R691, R710). -/
def State.hostDone (s : State) (f id seq : Nat) (code : BitVec 16) (data : List Byte) : State :=
  match s.session f id with
  | none => s
  | some x =>
    match x.writes.find? (fun w => w.seq == seq) with
    | some w =>
      let w := { w with heldW := w.heldW - 1, code := if w.code = 0 then code else w.code }
      if w.put.isEmpty && w.heldW == 0 then
        ((s.modSess f id (fun x => { x with writes := x.writes.filter (fun v => v.seq != seq) })).bwResp f id seq w.code []).runSession
          f id
      else s.modSess f id (fun x => { x with writes := x.writes.map (fun v => if v.seq = seq then w else v) })
    | none =>
      if x.relays = 0 then s
      else ((s.modSess f id (fun x => { x with relays := x.relays - 1 })).bwResp f id seq code data).runSession f id

/-! ## Arrival (R687, R689) -/

/-- A datagram of a session that has passed R687: its acknowledgement, then its message. -/
def State.bwAccept (s : State) (h : BHdr) (m : BwMsg) : State :=
  let f := h.port
  match s.session f h.session with
  | none => s.bwBad f
  | some x =>
    match nctrWindow x.seen h.nctr with
    | none => s.bwBad f
    | some seen =>
      let now := s.now (6 + f)
      let x := ({ x with seen := seen, heard := now } : Session).takeAck h.ack
      if m = .ack then (((s.modSess f x.id (fun _ => x)).pump f x.id)).runSession f x.id
      else if x.duplicate h.seq then
        let s := (s.modSess f x.id (fun _ => x)).pump f x.id
        s.bwEmit f x.id 0 (.ack x.id x.rxSeq)
      else ((s.modSess f x.id (fun _ => x.receive now h.seq m)).pump f x.id).runSession f x.id

/-- A Buwen datagram with a session arrives (R682 to R689): one that breaks R682, R685 or R686 is dropped and counted. -/
def State.bwArrive (h : BHdr) (m : BwMsg) (s : State) : State :=
  let f := h.port
  if !s.hostUp f then s
  else if !h.fits || h.session = 0 || !h.tagOk || h.nctr = 0 || decide (2 ^ 32 ≤ h.nctr) || (h.seq == 0) != (m == .ack)
      || decide (2 ^ 32 ≤ h.seq) then s.bwBad f
  else s.bwAccept h m

/-! ## Opening a session (R695 to R698) -/

/-- The fields of a `HELLO` that say what the package is (R695). -/
def State.helloHead (s : State) (f role tenant : Nat) : List Byte :=
  leBytes 1 role ++ leBytes 1 s.statusPins ++ leBytes 2 tenant ++ leBytes 4 s.power.attempts ++ leBytes 8 s.sysId.toNat
    ++ leBytes 8 (s.reg 0x30).toNat ++ leBytes 8 (s.now (6 + f)).toNat

/-- A `HELLO` from a host has the layout of R695. -/
def helloForm (b : List Byte) : Bool :=
  b.length == 480 && decide (bytesAt b 0 1 ≤ 2) && decide (bytesAt b 2 2 < 4096) && bytesAt b 1 1 == 0
    && (b.drop 4).take 28 == zeros 28 && b.drop 0x1D4 == zeros 12 && Config.pointOk ((b.drop 0x40).take 133)

/-- The role that a host's `HELLO` earns (R696, R706). -/
def State.helloRole (s : State) (b : List Byte) : Option Role :=
  let ident := (b.drop 0xC8).take 133
  let signed := Config.ecdsaOk ident (b.take 0x150) ((b.drop 0x150).take 132)
  let t := BitVec.ofNat 12 (bytesAt b 2 2)
  if !helloForm b then none
  else if bytesAt b 0 1 = 0 then some .none
  else if s.netBoot then none
  else if bytesAt b 0 1 = 1 then if s.part.opDigests.contains (sha512 ident) && signed then some .operator else none
  else if s.sec.bind.contains (t, sha512 ident) && signed then some (.tenant t)
  else none

/-- A `HELLO` that opens nothing (R696, R698): its key and signature fields are open (log 54). -/
def State.helloNo (s : State) (f role : Nat) (c : BitVec 16) : State :=
  let (n, s) := s.openBytes 32
  let (k, s) := s.openBytes 136
  let (g, s) := s.openBytes 132
  (s.heCode f c).hostSend f (.hello 0 role (s.helloHead f role 0 ++ n ++ k ++ zeros 136 ++ g ++ zeros 12))

/-- The code of a role in `HELLO`, and its tag (R695). -/
def Role.num : Role → Nat × Nat
  | .none => (0, 0)
  | .operator => (1, 0)
  | .tenant t => (2, t.toNat)

/-- A session that has just been opened. -/
def Session.fresh (id : Nat) (role : Role) (keys : List Byte) (now : Word) : Session where
  id := id
  role := role
  seen := []
  rxSeq := 0
  held := []
  txSeq := 0
  unack := []
  resent := 0
  txCtr := 0
  events := []
  lost := 0
  relays := 0
  writes := []
  got := []
  keys := keys
  resps := []
  heard := now
  ackDue := none

/-- A host's `HELLO` with `SESSION` = 0 (R696 to R698, R706). -/
def State.helloArrive (h : BHdr) (b : List Byte) (s : State) : State :=
  let f := h.port
  if !s.hostUp f || (decide (s.power.phase ≤ 3) && !s.netBoot) then s
  else if !h.fits || h.session ≠ 0 || h.seq ≠ 0 || h.nctr ≠ 0 then s.bwBad f
  else if (if s.netBoot then 1 else 16) ≤ (s.he f).sessions.length then s.helloNo f 0xFE Code.HE_SESSIONS_FULL
  else
    match s.helloRole b with
    | none => (s.bump (regAt .he f 0x40) 24 8 1).helloNo f 0xFF Code.HE_AUTH
    | some r =>
      let id := (s.he f).nextSess
      let (n, s) := s.drawBytes 32
      let (k, s) := s.drawKey
      let eph := padTo 133 (Config.pubKey k)
      let sig := padTo 132 (Config.sign deviceKey (infoLink ++ eph))
      let keys := hkdf ((b.drop 0x20).take 32 ++ n) (Config.ecdh k ((b.drop 0x40).take 133)) infoBuwen
      let hp := s.he f
      let s := s.setHe f { hp with
        sessions := hp.sessions ++ [Session.fresh id r keys (s.now (6 + f))]
        nextSess := (id % (2 ^ 32 - 1)) + 1 }
      s.hostSend f (.hello id r.num.1
        (s.helloHead f r.num.1 r.num.2 ++ n ++ padTo 136 eph ++ zeros 136 ++ sig ++ zeros 12))

/-! ## Timers (R689, R694, R698) -/

/-- The oldest unacknowledged message has waited `RTO` (R689). -/
def State.bwRto (f id : Nat) (s : State) : State :=
  match s.session f id with
  | none => s
  | some x =>
    match x.unack with
    | [] => s
    | (seq, t, m) :: r =>
      let now := s.now (6 + f)
      if now.toNat < t.toNat + max 1 (s.rfld (regAt .he f 0x08) 32 16) * 4000 then s
      else if 8 ≤ x.resent then s.loseSess f id
      else
        ((s.modSess f id (fun x => { x with unack := (seq, now, m) :: r, resent := x.resent + 1 })).bump
          (regAt .he f 0x40) 32 32 1).bwEmit f id seq m

/-- An `ACK` that is due is sent (R689). -/
def State.bwAckTimer (f id : Nat) (s : State) : State :=
  match s.session f id with
  | none => s
  | some x => if x.ackDue.isSome then s.bwEmit f id 0 (.ack id x.rxSeq) else s

/-- A session without a valid datagram for 10 s closes (R698). -/
def State.bwIdle (f id : Nat) (s : State) : State :=
  match s.session f id with
  | none => s
  | some x => if x.heard.toNat + 10 * second ≤ (s.now (6 + f)).toNat then s.closeSess f id else s

/-- A session of the operator is open (R694). -/
def State.operatorHere (s : State) : Bool := [0, 1].any (fun f => (s.he f).sessions.any (fun x => x.role == .operator))

/-- An announcement (R694, R706): every second, or every 10 s once an operator session exists. -/
def State.bwAnnounce (f : Nat) (s : State) : State :=
  let now := s.now (6 + f)
  let wait := if s.operatorHere then 10 * second else second
  let early := match (s.he f).lastAnn with
    | some t => decide (now.toNat < t.toNat + wait)
    | none => false
  if !s.hostUp f || early || decide (s.power.phase < 2) then s
  else
    let (n, s) := s.drawBytes 32
    let body := s.helloHead f 0 0 ++ n ++ zeros 136 ++ zeros 136 ++ zeros 132 ++ zeros 12
    let s := s.setHe f { s.he f with lastAnn := some now }
    let s := s.hostSend f (.announce false body)
    if s.rfld (regAt .he f 0x18) 0 32 ≠ 0 && decide (4 ≤ s.power.phase) then s.hostSend f (.announce true body) else s

/-! ## Link, pause and control frames (R682, R684, R713, R716) -/

/-- A priority of a port is paused or released by the peer; what a pause has held is sent when it ends (R684). -/
def State.pfc (f prio : Nat) (on : Bool) (s : State) : State :=
  let h := s.he f
  let s := s.setHe f { h with paused := setIn h.paused prio on }
  if s.hostPaused f then s
  else (s.he f).stalled.foldl (fun s m => s.hostSend f m) (s.setHe f { s.he f with stalled := [] })

/-- The IPv6 link-local address of a port by EUI-64 (R682; log 55). -/
def State.linkLocal (s : State) (f : Nat) : Nat :=
  let m := (if f = 0 then s.part.mac0 else s.part.mac1).toNat
  0xFE80 * 2 ^ 112 + ((m / 2 ^ 24) ^^^ 0x020000) * 2 ^ 40 + 0xFFFE * 2 ^ 24 + m % 2 ^ 24

/-- An IPv6 address of a port; the boot ROM uses the link-local one only (R682, R706, R714). -/
def State.ownV6 (s : State) (f : Nat) (t : BitVec 128) : Bool :=
  let g := (s.reg (regAt .he f 0x20)).toNat * 2 ^ 64 + (s.reg (regAt .he f 0x28)).toNat
  t.toNat == s.linkLocal f || (decide (4 ≤ s.power.phase) && g != 0 && t.toNat == g)

/-- The IPv4 address of a port (R682, R714). -/
def State.ownV4 (s : State) (f : Nat) (t : BitVec 32) : Bool :=
  let a := s.rfld (regAt .he f 0x18) 0 32
  decide (4 ≤ s.power.phase) && a != 0 && t.toNat == a

/-- A control frame for one of the port's addresses is answered (R682). -/
def State.ctlFrame (f : Nat) (x : CtlFrame) (s : State) : State :=
  let mine := match x with
    | .arp t => s.ownV4 f t
    | .neighbour t => s.ownV6 f t
    | .echo4 t _ => s.ownV4 f t
    | .echo6 t _ => s.ownV6 f t
  if s.hostUp f && mine then s.hostSend f (.control x) else s

/-- A host port leaves the up state (R713, R716). -/
def State.hostLeave (f : Nat) (s : State) : State :=
  if s.hostUp f then
    ((s.setRfld (regAt .he f 0) 0 2 0).heCode f Code.HE_LINK_DOWN).raise0 (6 + f) uHost f Code.HE_LINK_DOWN 6
  else s

/-! ## Management requests that arrive (R709 to R711, R743) -/

/-- A request carries the key of port f and comes from one of its managers (R710). -/
def State.keyed (s : State) (f : Nat) (h : JHdr) : Bool :=
  let w := s.reg (regAt .he f 0x30)
  s.mkey f != 0 && h.arg == s.mkey f
    && (upTo 4).any (fun j => bit w (16 * j + 15) && fld w (16 * j) 14 == h.spkg.toNat)

/-- A management request with an opcode, an address of its own or 0, and a `LEN`: refused by its form or its key, or done by
`g`, which sends its answer. -/
def State.onMgmt (s : State) (f : Nat) (op : Byte) (anyAddr : Bool) (len : Nat)
    (g : State → JHdr → List Byte → State) : State :=
  s.onFrame f (· == op) (fun s x d =>
    let h := x.frame.hdr
    if h.res ≠ 0 || h.act == 7 || h.tc != 7 || h.len.toNat != len || (!anyAddr && h.daddr != 0) then
      (s.answerReq f h opRESP Code.FAB_FORMAT [], false)
    else if !s.keyed f h then
      (((s.bump (regAt .he f 0x40) 16 8 1).heCode f Code.HE_MGMT_KEY).answerReq f h opRESP Code.HE_MGMT_KEY [], false)
    else (g s h d, false))

/-- After the answer to a request has left its router, the package resets or freezes (R709, R743). -/
def State.afterAnswer (s : State) (f : Nat) (h : JHdr) (freeze : Bool) : State :=
  let s := s.answerReq f h opRESP 0 []
  { s with power := { s.power with after := some (freeze, mkFrame (respHdr h s.pkg opRESP 0 0) []) } }

/-- The answer that a reset or freeze waits for still stands in a router. -/
def State.answerWaits (s : State) (x : JFrame) : Bool :=
  [0, 1].any (fun f => (s.fr f).buf.any (fun b =>
    b.frame.hdr.dpkg == x.hdr.dpkg && b.frame.hdr.seq == x.hdr.seq && b.frame.hdr.op == x.hdr.op))

/-- The reset or freeze that waits for its answer, once that has left (R709, R743). -/
def State.runAfter (s : State) : State :=
  match s.power.after with
  | none => s
  | some (fz, x) =>
    if s.answerWaits x then s
    else
      let s : State := { s with power := { s.power with after := none } }
      if fz then s.freeze else s.packageReset

end Sys2Proof.Machine
end

