-- ==== Sys2Proof/Machine/FpOps.lean ====
section
/-! DEFINITION. The floating-point operations of the solver cores in FP64 and FP32 (R296 to R302, R350, R352): results by code,
with the exception flags that they raise. -/

namespace Sys2Proof.Machine

/-- A result: its code and its flags. -/
abbrev FpRes := Nat × FpFlags

/-- A code is a signalling NaN: its highest fraction bit is clear (IEEE 754). -/
def FFmt.isSnan (t : FFmt) (c : Nat) : Bool := (t.decode c).isNan && c / 2 ^ (t.frac - 1) % 2 == 0

/-- The canonical NaN, with the invalid flag if one of the operands is a signalling NaN (R299). -/
def FFmt.nanRes (t : FFmt) (cs : List Nat) : FpRes :=
  (t.nanC, if cs.any t.isSnan then FpFlags.invalid else FpFlags.none)

/-- An exact result rounded; a NaN that no operand was is an invalid operation. -/
def FFmt.resOf (t : FFmt) (mode : Rnd) (v : Val) : FpRes := if v.isNan then (t.nanC, FpFlags.invalid) else t.roundF mode v

/-- a + b (R298). -/
def FFmt.fadd (t : FFmt) (mode : Rnd) (a b : Nat) : FpRes :=
  let x := t.decode a
  let y := t.decode b
  if x.isNan || y.isNan then t.nanRes [a, b] else t.resOf mode (Val.addZ (mode == .down) x y)

/-- a − b (R298). -/
def FFmt.fsub (t : FFmt) (mode : Rnd) (a b : Nat) : FpRes :=
  let x := t.decode a
  let y := t.decode b
  if x.isNan || y.isNan then t.nanRes [a, b] else t.resOf mode (Val.addZ (mode == .down) x y.neg)

/-- a × b (R298). -/
def FFmt.fmul (t : FFmt) (mode : Rnd) (a b : Nat) : FpRes :=
  let x := t.decode a
  let y := t.decode b
  if x.isNan || y.isNan then t.nanRes [a, b] else t.resOf mode (x.mul y)

/-- a ÷ b (R298). -/
def FFmt.fdiv (t : FFmt) (mode : Rnd) (a b : Nat) : FpRes :=
  let x := t.decode a
  let y := t.decode b
  if x.isNan || y.isNan then t.nanRes [a, b] else t.divF mode x y

/-- √a (R298). -/
def FFmt.fsqrt (t : FFmt) (mode : Rnd) (a : Nat) : FpRes :=
  let x := t.decode a
  if x.isNan then t.nanRes [a] else t.sqrtF mode x

/-- ±(a × b) ± c with one rounding (R292, R350). -/
def FFmt.ffma (t : FFmt) (mode : Rnd) (negP negC : Bool) (a b c : Nat) : FpRes :=
  let x := t.decode a
  let y := t.decode b
  let z := t.decode c
  if x.isNan || y.isNan || z.isNan then t.nanRes [a, b, c]
  else
    let p := x.mul y
    t.resOf mode (Val.addZ (mode == .down) (if negP then p.neg else p) (if negC then z.neg else z))

/-- Whether the invalid flag of a fused operation is open: infinity times zero with a quiet NaN to be added, where IEEE 754
leaves it to the implementation (log 33). -/
def FFmt.fmaOpen (t : FFmt) (a b c : Nat) : Bool :=
  let x := t.decode a
  let y := t.decode b
  ((x.isInf && y.isZero) || (x.isZero && y.isInf)) && (t.decode c).isNan && !t.isSnan c

/-- The minimum (R300). -/
def FFmt.fmin (t : FFmt) (a b : Nat) : FpRes :=
  let x := t.decode a
  let y := t.decode b
  if x.isNan || y.isNan then t.nanRes [a, b] else t.roundF .nearestEven (vmin x y)

/-- The maximum (R300). -/
def FFmt.fmax (t : FFmt) (a b : Nat) : FpRes :=
  let x := t.decode a
  let y := t.decode b
  if x.isNan || y.isNan then t.nanRes [a, b] else t.roundF .nearestEven (vmax x y)

/-- A comparison (R301): `quiet` raises the invalid flag for a signalling NaN only. -/
def FFmt.fcmp (t : FFmt) (quiet : Bool) (p : Val → Val → Bool) (a b : Nat) : Bool × FpFlags :=
  let x := t.decode a
  let y := t.decode b
  if x.isNan || y.isNan then
    (false, if quiet && !(t.isSnan a || t.isSnan b) then FpFlags.none else FpFlags.invalid)
  else (p x y, FpFlags.none)

/-- Conversion to an integer between bounds (R302): out of range saturates, a NaN gives 0, both invalid. -/
def FFmt.toInt (t : FFmt) (mode : Rnd) (lo hi : Int) (a : Nat) : Int × FpFlags :=
  match t.decode a with
  | .nan => (0, FpFlags.invalid)
  | .inf s => (if s then lo else hi, FpFlags.invalid)
  | .fin s m e =>
    let u := roundTo mode s m e 0 false
    let i : Int := if s then - (u.1 : Int) else u.1
    if i < lo then (lo, FpFlags.invalid)
    else if hi < i then (hi, FpFlags.invalid)
    else (i, { FpFlags.none with inx := u.2 })

/-- Conversion from an integer (R296). -/
def FFmt.ofInt (t : FFmt) (mode : Rnd) (i : Int) : FpRes := t.roundF mode (Val.ofInt i)

/-- Rounding to an integral value (R296); the second component says that the value was not integral. -/
def FFmt.rint (t : FFmt) (mode : Rnd) (a : Nat) : FpRes × Bool :=
  match t.decode a with
  | .nan => (t.nanRes [a], false)
  | .inf s => ((t.infC s, FpFlags.none), false)
  | .fin s m e =>
    let u := roundTo mode s m e 0 false
    (((t.roundF .nearestEven (.fin s u.1 0)).1, FpFlags.none), u.2)

/-- The class of a code, one bit of ten (R302). -/
def FFmt.fclass (t : FFmt) (a : Nat) : Nat :=
  match t.decode a with
  | .nan => if t.isSnan a then 2 else 1
  | .inf s => if s then 8 else 4
  | .fin s m e =>
    if m = 0 then if s then 2 ^ 9 else 2 ^ 8
    else if m < 2 ^ t.frac ∧ e = t.qmin then if s then 2 ^ 7 else 2 ^ 6
    else if s then 2 ^ 5 else 2 ^ 4

end Sys2Proof.Machine
end

