-- ==== Sys2Proof/Machine/Operands.lean ====
section
/-! DEFINITION. The instruction formats of HC64 (R289, R346 to R348): fields of a word, immediates, which words are legal (R291,
R349, R359), and the row of the opcode table that a legal word belongs to. -/

namespace Sys2Proof.Machine

/-! ## Fields (R289, R290) -/

abbrev hOP (w : Word) : Nat := fld w 26 6
abbrev hD (w : Word) : Nat := fld w 21 5
abbrev hA (w : Word) : Nat := fld w 16 5
abbrev hB (w : Word) : Nat := fld w 11 5
abbrev hC (w : Word) : Nat := fld w 6 5
abbrev hFN (w : Word) : Nat := fld w 0 6
/-- IMM16, zero-extended. -/
abbrev hImmU (w : Word) : Nat := fld w 0 16
/-- IMM16, sign-extended. -/
abbrev hImm (w : Word) : Word := wdInt (sfld w 0 16)
/-- OFF16 in bytes: the format B has A in [25:21] and B in [20:16]. -/
abbrev hOff16 (w : Word) : Word := wdInt (sfld w 0 16 * 4)
/-- OFF21 in bytes. -/
abbrev hOff21 (w : Word) : Word := wdInt (sfld w 0 21 * 4)

/-! ## Vector fields (R346, R347) -/

/-- `M` of formats V and VM. -/
abbrev vM (w : Word) : Nat := fld w 8 3
/-- `MU`: masked. -/
abbrev vMU (w : Word) : Bool := bit w 7
/-- `S` of format V: the scalar form. -/
abbrev vS (w : Word) : Bool := bit w 6
/-- `MODE` of format VM. -/
abbrev vMode (w : Word) : Nat := fld w 5 2
/-- `ST` of format VM. -/
abbrev vST (w : Word) : Bool := bit w 4

/-! ## Rounding modes (R297) -/

/-- A rounding-mode code other than 0 as a direction. -/
def rndOf (code : Nat) : Rnd :=
  match code with
  | 2 => .nearestAway
  | 3 => .towardZero
  | 4 => .down
  | 5 => .up
  | _ => .nearestEven

/-- The direction of a rounding-mode field under `SC_FCSR` (R297). -/
def rndMode (code : Nat) (fcsr : Word) : Rnd := rndOf (if code = 0 then fld fcsr 8 3 else code)

/-! ## Legal words (R291, R349) -/

/-- The FP64 operations that round (R296). -/
def fpRounds : List Nat := [0x00, 0x01, 0x02, 0x03, 0x04, 0x18, 0x19, 0x1A, 0x1B, 0x1F]
/-- The FP64 operations with one source (R296). -/
def fpUnary : List Nat := [0x04, 0x08, 0x09, 0x18, 0x19, 0x1A, 0x1B, 0x1C, 0x1D, 0x1E, 0x1F]
/-- The FP64 operations of OP 0x28 (R296). -/
def fpOps : List Nat :=
  [0x00, 0x01, 0x02, 0x03, 0x04, 0x05, 0x06, 0x07, 0x08, 0x09, 0x10, 0x11, 0x12, 0x18, 0x19, 0x1A, 0x1B, 0x1C, 0x1D, 0x1E, 0x1F]

/-- An OP 0x28 word is legal. -/
def fpLegal (w : Word) : Bool :=
  let n := hFN w
  fpOps.contains n && (if fpRounds.contains n then decide (hC w ≤ 5) else hC w == 0) && (!fpUnary.contains n || hB w == 0)

/-- The vector arithmetic operations (R350) without a scalar form, and those that write a mask. -/
def vNoScalar : List Nat := [0x04, 0x0A, 0x0B, 0x10, 0x11, 0x12, 0x13, 0x2D]
def vMaskOut : List Nat := [0x0C, 0x0D, 0x0E, 0x2B, 0x2C]

/-- Masking fields: an unmasked instruction has `M` = 0 (R349). -/
def maskOk (w : Word) : Bool := vMU w || vM w == 0

/-- An OP 0x34 word is legal (R350). -/
def arithLegal (w : Word) (ew32 : Bool) : Bool :=
  let n := hFN w
  (decide (n ≤ 0x13) || decide (0x20 ≤ n ∧ n ≤ 0x2D)) && maskOk w
    && (!vNoScalar.contains n || (!vS w && hB w == 0))
    && (!vMaskOut.contains n || decide (hD w < 8))
    && (n != 0x0F || vMU w)
    && (!(n == 0x12 || n == 0x13) || !ew32)
    && (n != 0x2D || hA w == 0)

/-- An OP 0x35 word is legal (R347, R349, R359). -/
def vmemLegal (w : Word) (ew32 : Bool) : Bool :=
  let m := vMode w
  m != 3 && fld w 0 4 == 0 && maskOk w && (m != 0 || hB w == 0)
    && (m != 2 || ((!ew32 || hB w % 2 == 0)
      && (vST w || (hD w != hB w && (!ew32 || hD w != hB w + 1)))))

/-- An OP 0x36 word is legal (R354). -/
def vctlLegal (w : Word) : Bool :=
  match hFN w with
  | 0x00 => hB w == 0 && decide (hC w ≤ 1)
  | 0x01 => hC w == 0
  | 0x02 => hC w == 0
  | 0x03 => hB w == 0 && hC w == 0
  | 0x04 => hB w == 0 && hC w == 0
  | 0x08 => decide (hD w < 8 ∧ hA w < 8 ∧ hB w < 8) && hC w == 0
  | 0x09 => decide (hD w < 8 ∧ hA w < 8 ∧ hB w < 8) && hC w == 0
  | 0x0A => decide (hD w < 8 ∧ hA w < 8 ∧ hB w < 8) && hC w == 0
  | 0x0B => decide (hD w < 8 ∧ hA w < 8) && hB w == 0 && hC w == 0
  | 0x0C => decide (hA w < 8) && hB w == 0 && hC w == 0
  | 0x0D => decide (hA w < 8) && hB w == 0 && hC w == 0
  | 0x0E => decide (hA w < 8) && hB w == 0 && hC w == 0
  | 0x0F => decide (hD w < 8) && hB w == 0 && hC w == 0
  | _ => false

/-- An OP 0x37 word is legal (R356, R359). -/
def vpermLegal (w : Word) : Bool :=
  maskOk w && (match hFN w with
  | 0x00 => !vS w && hD w != hA w && hD w != hB w
  | 0x01 => vS w && hD w != hA w
  | 0x02 => vS w
  | 0x03 => !vS w && vMU w && hB w == 0 && hD w != hA w
  | n => vS w && decide (0x08 ≤ n ∧ n ≤ 0x0C))

/-- Whether a word is a legal instruction for a core with an element width and a `VSTART` (R291, R292, R349). -/
def hcLegal (w : Word) (ew32 : Bool) (vstart : Nat) : Bool :=
  match hOP w with
  | 0x01 => decide (hFN w ≤ 0x14) && hC w == 0 && (!(hFN w == 0x11 || hFN w == 0x12) || hB w == 0)
  | 0x02 => true
  | 0x03 => true
  | 0x04 => true
  | 0x05 => true
  | 0x06 => fld w 8 8 == 0 && fld w 6 2 != 3
  | 0x07 => true
  | 0x08 => hA w == 0
  | 0x09 => hA w == 0
  | 0x28 => fpLegal w
  | 0x29 => decide (hFN w ≤ 5)
  | 0x2A => decide (hFN w ≤ 5)
  | 0x2B => decide (hFN w ≤ 5)
  | 0x2C => decide (hFN w ≤ 5)
  | 0x30 => decide (hFN w ≤ 5) && (hFN w == 5 || hC w == 0)
  | 0x31 => decide (hFN w ≤ 1) && fld w 6 20 == 0
  | 0x34 => arithLegal w ew32 && vstart == 0
  | 0x35 => vmemLegal w ew32
  | 0x36 => vctlLegal w && vstart == 0
  | 0x37 => vpermLegal w && vstart == 0
  | 0x38 => decide (hFN w ≤ 3) && fld w 6 20 == 0 || (hFN w == 4 && hD w == 0 && hB w == 0 && hC w == 0)
  | 0x39 => hA w == 0
  | 0x3A => hD w == 0
  | 0x3C => fld w 2 14 == 0
  | n => decide (0x10 ≤ n ∧ n ≤ 0x1C) || decide (0x20 ≤ n ∧ n ≤ 0x27)

/-- The row of a legal word: its major opcode × 64, with `FN` or for OP 0x35 `MODE` + 4 × `ST` where several rows share the
opcode. -/
def hcRow (w : Word) : Nat :=
  let o := hOP w
  if o = 0x35 then o * 64 + vMode w + (if vST w then 4 else 0)
  else if [0x01, 0x28, 0x30, 0x31, 0x34, 0x36, 0x37, 0x38].contains o then o * 64 + hFN w
  else o * 64

end Sys2Proof.Machine
end

