-- ==== Sys2Proof/Machine/ScOps.lean ====
section
/-! DEFINITION. The solver cores (R287 to R337): registers, traps and interrupts, fetching and the frame of an instruction,
protection and memory types, and loads, stores and atomics to every kind of memory. -/

namespace Sys2Proof.Machine

/-! ## Registers (R287, R338, R340) -/

/-- Register gi; g0 reads zero (R287). -/
def Core.gr (x : Core) (i : Nat) : Word := if i = 0 then 0 else x.g.get 0 i
/-- The core with gi written; a write to g0 is discarded (R287). -/
def Core.setG (x : Core) (i : Nat) (v : Word) : Core := if i = 0 then x else { x with g := x.g.set i v }
/-- Vector register vi. -/
def Core.vr (x : Core) (i : Nat) : BitVec 2048 := x.v.get 0 i
/-- The core with vi written. -/
def Core.setV (x : Core) (i : Nat) (v : BitVec 2048) : Core := { x with v := x.v.set i v }
/-- Register fi: bits [63:0] of vi (R339). -/
def Core.fr (x : Core) (i : Nat) : Word := (x.vr i).setWidth 64
/-- The core with fi written, which clears the rest of vi (R340). -/
def Core.setF (x : Core) (i : Nat) (v : Word) : Core := x.setV i (v.setWidth 2048)
/-- Mask register mi. -/
def Core.mr (x : Core) (i : Nat) : Word := x.m.get 0 i
/-- The core with mi written. -/
def Core.setM (x : Core) (i : Nat) (v : Word) : Core := { x with m := x.m.set i v }
/-- The core with exception flags added to `SC_FCSR` (R298, R333). -/
def Core.addFlags (x : Core) (f : FpFlags) : Core := { x with fcsr := x.fcsr ||| wd f.bits }

/-- The core may execute: it runs, is not stopped or halted, and waits for nothing. -/
def Core.canRun (x : Core) : Bool := x.run && !x.stopped && !x.halted && !x.wfe && x.wait.isNone

/-! ## Status (R304, R308, R333) -/

/-- The fields of a status word. -/
abbrev stPprev (w : Word) : Nat := fld w 6 2
abbrev stExl (w : Word) : Bool := bit w 5
abbrev stPie (w : Word) : Bool := bit w 4
abbrev stIe (w : Word) : Bool := bit w 3

/-- A status word as a trap from `level` leaves it (R304). -/
def stEnter (w : Word) (level : Nat) : Word :=
  setFld (setFld (setFld (setFld w 6 2 level) 4 1 (b2n (stIe w))) 5 1 1) 3 1 0

/-- A status word as a return leaves it (R308). -/
def stLeave (w : Word) : Word := setFld (setFld w 3 1 (b2n (stPie w))) 5 1 0

/-- A cause word (R333). -/
def causeWord (int : Bool) (cause : Nat) (code : BitVec 16) : Word := wd (b2n int * 2 ^ 63 + code.toNat * 2 ^ 16 + cause % 256)

/-- The core enters a trap at supervisor (1) or firmware (2) level (R304). -/
def Core.enter (x : Core) (target : Nat) (epc cw tval : Word) (offset : Word) : Core :=
  let y : Core := { x with wfe := false, fetched := none, last := wd (fld cw 16 16 * 2 ^ 16 + fld cw 0 8), level := target }
  if target = 1 then
    { y with epc := epc, cause := cw, tval := tval, status := stEnter x.status x.level, pc := x.tvec + offset }
  else
    { y with fwEpc := epc, fwCause := cw, fwTval := tval, fwStatus := stEnter x.fwStatus x.level, pc := x.fwTvec + offset }

/-- A core under single step halts once its instruction has ended (R747). -/
def Core.stepped (x : Core) : Core := if x.stepping then { x with stepping := false, halted := true } else x

/-- A core stops for good (R306): its die writes an error record; during a start the package resets (R773), later firmware counts
as stopped (R781). -/
def State.stopCore (s : State) (c : Nat) (cw : Word) : State :=
  let s := s.modSc c (fun x => { x with stopped := true, wait := none })
  let d := s.part.dieOfSc c
  let s := s.writeRec { s.rec0 d uCore c 0 0 with info := cw }
  if s.power.phase < 7 then s.packageReset else { s with power := { s.power with fwStopped := true } }

/-- An exception of core c (R304 to R306): at the address `epc`, with cause, code and value. -/
def State.scTrap (s : State) (c : Nat) (epc : Word) (cause : Nat) (code : BitVec 16) (tval : Word) : State :=
  let x := { s.sc c with wait := none }
  let cw := causeWord false cause code
  if x.level = 2 then
    if stExl x.fwStatus then s.stopCore c cw else s.setSc c (x.enter 2 epc cw tval 0).stepped
  else if x.level = 1 ∧ stExl x.status then
    s.setSc c (x.enter 2 epc (causeWord false 0x0C 0) (wd (fld x.cause 0 8)) 0).stepped
  else if cause = 0x08 ∨ (cause = 0x09 ∧ x.level = 1) then s.setSc c (x.enter 2 epc cw tval 0).stepped
  else s.setSc c (x.enter 1 epc cw tval 0).stepped

/-! ## The end of an instruction -/

/-- An instruction of core c completes and `pc` follows. -/
def State.scGo (s : State) (c : Nat) (pc : Word) : State :=
  s.modSc c (fun x => ({ x with pc := pc, retired := x.retired + 1, wait := none, fetched := none } : Core).stepped)

/-- The instruction completes and the next one follows. A core that the instruction itself has reset stays as it is. -/
def State.scNext (s : State) (c : Nat) : State := if (s.sc c).run then s.scGo c ((s.sc c).pc + 4) else s

/-- A branch or jump is taken (R295): a target that is no multiple of 4 is an exception there, with the branch completed. -/
def State.scJump (s : State) (c : Nat) (target : Word) : State :=
  let s := s.scGo c target
  if target.toNat % 4 = 0 then s else s.scTrap c target 0x03 0 target

/-! ## Protection and memory types (R303, R312 to R315) -/

/-- The memory types (R313). -/
inductive MemType where
  | cacheable | device | uncached
  deriving DecidableEq, Repr

/-- What an access does. -/
inductive Access where
  | read | write | exec
  deriving DecidableEq, Repr

/-- A local address of HBM in any package (R21). -/
def hbmSide (a : Word) : Bool := decide (addrLocal a < 0x0001000000000000)

/-- An address of this package, of the twin, or of another package. -/
def State.ownPkg (s : State) (a : Word) : Bool := addrPkg a == s.pkg
/-- An address of the twin. -/
def State.twinPkg (s : State) (a : Word) : Bool := addrPkg a == s.twin && addrPkg a != s.pkg

/-- The default type of an address (R313). -/
def State.defaultType (s : State) (a : Word) : MemType :=
  if s.ownPkg a || s.twinPkg a then if hbmSide a then .cacheable else .device else .uncached

/-- The first enabled region of a core that matches an address (R312). -/
def Core.regionOf (x : Core) (a : Word) : Option Word :=
  (upTo 16).findSome? (fun n =>
    let l := x.prl.get 0 n
    if fld l 6 2 ≠ 0 ∧ fld (x.prb.get 0 n) 16 48 ≤ fld a 16 48 ∧ fld a 16 48 ≤ fld l 16 48 then some l else none)

/-- A region permits an access (R312, R336). -/
def permits (l : Word) (user : Bool) (acc : Access) : Bool :=
  (!user || bit l 5) && (match acc with | .read => bit l 2 | .write => bit l 3 | .exec => bit l 4)

/-- The type that a region gives an address (R314, R336). -/
def State.regionType (s : State) (l a : Word) : MemType :=
  if !(s.ownPkg a || s.twinPkg a) then .uncached
  else
    match fld l 6 2 with
    | 1 => if hbmSide a then .cacheable else .device
    | 2 => .device
    | _ => .uncached

/-- The memory type of an access of core c: none is an access fault (R312). -/
def State.scType (s : State) (c : Nat) (a : Word) (acc : Access) : Option MemType :=
  let x := s.sc c
  if x.level = 2 then some (s.defaultType a)
  else
    match x.regionOf a with
    | some l => if permits l (x.level == 0) acc then some (s.regionType l a) else none
    | none => if x.level = 1 then some (s.defaultType a) else none

/-! ## Memory (R294, R313 to R323) -/

/-- What an access answers: it has to wait and be tried again, is an exception, has been sent to another package, is held by
memory, or is done. -/
inductive ScRes where
  | wait
  | trap (cause : Nat) (code : BitVec 16)
  | sent
  | held
  | done (data : List Byte)
  deriving DecidableEq, Repr

/-- How core c reaches memory (R459): class 2, activity USER, the tag of its job. -/
def State.scReq (s : State) (c : Nat) : Req := ⟨2, 0, s.workTag, false, s.part.dieOfSc c⟩

/-- The exception of a memory refusal (R311). -/
def refusalTrap (code : BitVec 16) : ScRes := if code = Code.MC_UNCORRECTABLE then .trap 0x08 0 else .trap 0x07 code

/-- A register block that a core below firmware level does not reach as such: an access fault (R303), or unmapped (R25). -/
def hiddenBelow (b : Blk) : Option ScRes :=
  match b with
  | .sec => some (.trap 0x05 0)
  | .dbg => some (.trap 0x05 0)
  | .bootBuf => some (.trap 0x06 0)
  | .bootRom => some (.trap 0x06 0)
  | _ => none

/-- An access of a core to a register: only 8-byte `LDD` and `STD` (R25, R315), `word` says that it is one. -/
def State.regAccess (s : State) (c : Nat) (b : Blk) (word : Bool) (f : State → State × ScRes) : State × ScRes :=
  match (if (s.sc c).level < 2 then hiddenBelow b else none) with
  | some r => (s, r)
  | none => if word then f s else (s, .trap 0x05 0)

/-- Read local memory for core c. -/
def State.scReadLocal (s : State) (c a len : Nat) (word fetch : Bool) : State × ScRes :=
  match s.region a with
  | .hbm _ =>
    match s.hbmRead (s.scReq c) a len with
    | (t, .done d) => (t, .done d)
    | (t, .refused code) => (t, refusalTrap code)
    | (t, _) => (t, .wait)
  | .font _ _ | .imem _ _ =>
    match s.localRead (s.scReq c) a len with
    | (t, some (.done d)) => (t, .done d)
    | (t, _) => (t, .wait)
  | .reg b i o =>
    if fetch && (b == .bootBuf || b == .bootRom) then
      s.regAccess c b true (fun s => (s, .done (((leBytes 8 (s.regView b i (o / 8 * 8)).toNat).drop (o % 8)).take len)))
    else s.regAccess c b word (fun s => ((s.regRead b i o).1, .done (leBytes 8 (s.regRead b i o).2.toNat)))
  | .unmapped => (s, .trap 0x06 0)

/-- Write local memory for core c; firmware alone writes some registers (R715). -/
def State.scWriteLocal (s : State) (c a : Nat) (data : List Byte) (word : Bool) : State × ScRes :=
  match s.region a with
  | .hbm _ =>
    match s.hbmWrite (s.scReq c) a data (.sc c) with
    | (t, .done 0) => (t, .done [])
    | (t, .done _) => (t, .held)
    | (t, .refused code) => (t, refusalTrap code)
    | (t, .wait) => (t, .wait)
  | .font _ _ =>
    match s.localWrite (s.scReq c) a data .none with
    | (t, some (.done _)) => (t, .done [])
    | (t, _) => (t, .wait)
  | .imem n _ =>
    if (s.cl n).st = .running ∨ (s.cl n).pendingLl then (s, .trap 0x07 Code.CL_DM_RANGE)
    else
      match s.localWrite (s.scReq c) a data .none with
      | (t, some (.done _)) => (t, .done [])
      | (t, _) => (t, .wait)
  | .reg b i o =>
    if b = .bootRom ∧ (s.sc c).level = 2 then (s, .trap 0x05 0)
    else s.regAccess c b word (fun s => ((s.regWrite ((s.sc c).level == 2) b i o (word64 data 0)).1, .done []))
  | .unmapped => (s, .trap 0x06 0)

/-- What an access of core c to a register of the twin raises before it leaves the package (R303, R313, R315). -/
def State.twinRegBad (s : State) (c : Nat) (a : Word) (word : Bool) : Option ScRes :=
  if s.twinPkg a && decide (0x0002000000000000 ≤ addrLocal a) then
    match locate (addrLocal a - 0x0002000000000000) with
    | some (b, _, _) =>
      match (if (s.sc c).level < 2 then hiddenBelow b else none) with
      | some r => some r
      | none => if word then none else some (.trap 0x05 0)
    | none => none
  else none

/-- Ask the twin for a line, unless it is asked for (R536). -/
def State.askLine (s : State) (c : Nat) (op : Byte) (a : Nat) (excl : Bool) : State :=
  if s.reqs.any (fun r => match r.owner with | .line x _ => x.toNat == a | _ => false) then s
  else s.sendReq (s.part.dieOfSc c) (s.lineHdr op a 0 0) [] (.line (wd a) excl)

/-- The line of the twin's HBM that holds an address. -/
abbrev lineOf (a : Word) : Nat := addrLocal a / 128 * 128

/-- Write bytes at an address into a line that is held exclusive (R536). -/
def State.putLine (s : State) (a : Word) (l : TwinLine) (data : List Byte) : State :=
  { s with lines := s.lines.set (lineOf a) ⟨l.excl, true, patch l.data (addrLocal a % 128) data⟩ }

/-- Core c waits for a line of the twin. -/
def State.waitLine (s : State) (c : Nat) (a : Word) (op : Byte) (excl : Bool) : State :=
  (s.modSc c (fun x => { x with wait := some (.line a) })).askLine c op (lineOf a) excl

/-- Send a request of core c to another package, whose answer it stalls on. -/
def State.scSend (s : State) (c : Nat) (op : Byte) (a : Word) (len : Nat) (arg : Word) (data : List Byte) (w : ScWait) : State :=
  (s.modSc c (fun x => { x with wait := some w })).sendReq (s.part.dieOfSc c) (s.userHdr op a len s.workTag arg) data (.sc c)

/-- Read for core c, once it may (R320 to R322): `w` is what it waits for if the bytes come from another package. -/
def State.scReadT (s : State) (c : Nat) (t : MemType) (a : Word) (len : Nat) (word fetch : Bool) (w : ScWait) : State × ScRes :=
  if s.ownPkg a then s.scReadLocal c (addrLocal a) len word fetch
  else if s.twinPkg a && t == .cacheable && !s.valleyLost then
    match s.lines.find (lineOf a) with
    | some l => (s, .done ((l.data.drop (addrLocal a % 128)).take len))
    | none => (s.waitLine c a opCRD false, .sent)
  else
    match s.twinRegBad c a word with
    | some r => (s, r)
    | none => (s.scSend c opREAD a len 0 [] w, .sent)

/-- Write for core c, once it may: a store to another package is posted (R322), one of device type is answered first
(R321). -/
def State.scWriteT (s : State) (c : Nat) (t : MemType) (a : Word) (data : List Byte) (word : Bool) : State × ScRes :=
  if s.ownPkg a then s.scWriteLocal c (addrLocal a) data word
  else if s.twinPkg a && t == .cacheable && !s.valleyLost then
    match s.lines.find (lineOf a) with
    | some l =>
      if l.excl then (s.putLine a l data, .done [])
      else (s.waitLine c a opCUPG true, .sent)
    | none => (s.waitLine c a opCRDX true, .sent)
  else if let some r := s.twinRegBad c a word then (s, r)
  else if t = .device then (s.scSend c opWRITE a data.length 0 data (.store a), .sent)
  else
    ((s.modSc c (fun x => { x with posted := x.posted + 1 })).sendReq (s.part.dieOfSc c)
      (s.userHdr opWRITE a data.length s.workTag 0) data (.post c a), .done [])

/-- A load of core c: alignment (R294), protection, then the read. -/
def State.scRead (s : State) (c : Nat) (a : Word) (len : Nat) (word : Bool) (w : ScWait) : State × ScRes :=
  if a.toNat % len ≠ 0 then (s, .trap 0x04 0)
  else
    match s.scType c a .read with
    | none => (s, .trap 0x05 0)
    | some t => s.scReadT c t a len word false w

/-- A store of core c. -/
def State.scWrite (s : State) (c : Nat) (a : Word) (data : List Byte) (word : Bool) : State × ScRes :=
  if a.toNat % data.length ≠ 0 then (s, .trap 0x04 0)
  else
    match s.scType c a .write with
    | none => (s, .trap 0x05 0)
    | some t => s.scWriteT c t a data word

/-! ## Fetch and the frame of an instruction -/

/-- What a fetch answers. -/
inductive Fetch where
  | wait
  | trap (cause : Nat) (code : BitVec 16)
  | word (w : Word)
  deriving DecidableEq, Repr

/-- The instruction word of core c at its PC (R25, R289, R312). -/
def State.scFetch (s : State) (c : Nat) : State × Fetch :=
  let x := s.sc c
  let a := x.pc
  if a.toNat % 4 ≠ 0 then (s, .trap 0x03 0)
  else if x.fetched.any (fun f => f.1 == a) then (s, .word ((x.fetched.map (·.2)).getD 0))
  else
    match s.scType c a .exec with
    | none => (s, .trap 0x05 0)
    | some t =>
      match s.scReadT c t a 4 false true (.fetch a) with
      | (u, .done d) => (u, .word (wd (leNat d)))
      | (u, .trap cause code) => (u, .trap cause code)
      | (u, .sent) => (u, .wait)
      | (u, _) => (s.keepAsk u, .wait)

/-- A row of the solver cores: core c fetches; a word that is no legal instruction is an exception; where the word belongs to
the row, `f` executes it; otherwise the row's event does not occur. -/
def State.scRow (s : State) (c row : Nat) (f : State → Word → State) : State :=
  let x := s.sc c
  if !x.canRun then s
  else
    match s.scFetch c with
    | (t, .wait) => t
    | (t, .trap cause code) => t.scTrap c x.pc cause code x.pc
    | (t, .word w) =>
      if !hcLegal w x.ew32 x.vstart then t.scTrap c x.pc 0x01 0 w
      else if hcRow w = row then f t w
      else s

/-- An instruction that changes the core and completes. -/
def State.scAlu (s : State) (c row : Nat) (f : Core → Word → Core) : State :=
  s.scRow c row (fun s w => (s.modSc c (fun x => f x w)).scNext c)

/-- Core c tries the instruction `w` again later, without fetching it again. -/
def State.keepWord (s : State) (c : Nat) (w : Word) : State := s.modSc c (fun x => { x with fetched := some (x.pc, w) })

/-- What follows an access of core c by the instruction `w` at an address: the exception, the wait, or `k`. -/
def State.scAfter (s : State) (c : Nat) (w a : Word) (r : State × ScRes) (k : State → List Byte → State) : State :=
  match r with
  | (t, .done d) => k t d
  | (t, .trap cause code) => t.scTrap c (s.sc c).pc cause code a
  | (t, .sent) => t
  | (t, .held) => t.modSc c (fun x => { x with wait := some (.store a) })
  | (t, .wait) => (s.keepAsk t).keepWord c w

/-- The register that a load writes from the bytes that it brings: OP 0x10 to 0x17 (R292). -/
def Core.loaded (x : Core) (op d : Nat) (data : List Byte) : Core :=
  let v := leNat data
  match op with
  | 0x10 => x.setG d (wdInt (sext v 8))
  | 0x12 => x.setG d (wdInt (sext v 16))
  | 0x14 => x.setG d (wdInt (sext v 32))
  | 0x17 => x.setF d (wd v)
  | _ => x.setG d (wd v)

/-- The bytes of a load or store by its opcode (R292). -/
def accessLen (op : Nat) : Nat :=
  match op with
  | 0x10 => 1 | 0x11 => 1 | 0x12 => 2 | 0x13 => 2 | 0x14 => 4 | 0x15 => 4
  | 0x18 => 1 | 0x19 => 2 | 0x1A => 4
  | _ => 8

/-- A load of the row with opcode `op` (R292, R294). -/
def State.scLoad (s : State) (c op : Nat) : State :=
  s.scRow c (op * 64) (fun s w =>
    let a := (s.sc c).gr (hA w) + hImm w
    s.scAfter c w a (s.scRead c a (accessLen op) (op == 0x16) (.load op (hD w) a)) (fun s d =>
      (s.modSc c (fun x => x.loaded op (hD w) d)).scNext c))

/-- A store of the row with opcode `op` (R292, R294). -/
def State.scStore (s : State) (c op : Nat) : State :=
  s.scRow c (op * 64) (fun s w =>
    let x := s.sc c
    let a := x.gr (hA w) + hImm w
    let v := if op = 0x1C then x.fr (hD w) else x.gr (hD w)
    s.scAfter c w a (s.scWrite c a (leBytes (accessLen op) v.toNat) (op == 0x1B)) (fun s _ => s.scNext c))

/-- A conditional branch (R290, R292): `p` compares gA and gB. -/
def State.scBranch (s : State) (c op : Nat) (p : Word → Word → Bool) : State :=
  s.scRow c (op * 64) (fun s w =>
    let x := s.sc c
    if p (x.gr (hD w)) (x.gr (hA w)) then s.scJump c (x.pc + hOff16 w) else s.scNext c)

/-! ## Atomics (R324) -/

/-- The opcode of Jonath for an atomic of OP 0x30 (R324, R528). -/
def jonathOp (fn : Nat) : Byte := BitVec.ofNat 8 (0x10 + fn)

/-- The atomic at an address of core c with operands gB and gC (R324): it acts as a `FENCE` before and after itself. -/
def State.scAtomicAt (s : State) (c fn d : Nat) (a b e : Word) : State × ScRes :=
  if a.toNat % 8 ≠ 0 then (s, .trap 0x04 0)
  else
    match s.scType c a .read, s.scType c a .write with
    | some t, some _ =>
      if s.ownPkg a then
        match s.region (addrLocal a) with
        | .hbm _ =>
          match s.hbmAtomic (s.scReq c) (addrLocal a) (jonathOp fn) b e (.sc c) with
          | (u, .done o) => (u, .done o)
          | (u, .refused code) => (u, refusalTrap code)
          | (u, .held) => (u.modSc c (fun x => { x with wait := some (.atomic d a) }), .sent)
          | (u, .wait) => (u, .wait)
        | .font n _ =>
          match s.localRead (s.scReq c) (addrLocal a) 8 with
          | (u, some (.done o)) =>
            match atomicNew (jonathOp fn) (word64 o 0) b e with
            | some v => ({ u with mem := memWrL u.mem (fontKey n (addrLocal a % 0x100000)) (leBytes 8 v.toNat) }, .done o)
            | none => (u, .done o)
          | (u, _) => (u, .wait)
        | .imem n _ =>
          if (s.cl n).st = .running ∨ (s.cl n).pendingLl then (s, .trap 0x07 Code.CL_DM_RANGE)
          else
            match s.localRead (s.scReq c) (addrLocal a) 8 with
            | (u, some (.done o)) =>
              match atomicNew (jonathOp fn) (word64 o 0) b e with
              | some v => ({ u with mem := memWrL u.mem (localKey (addrLocal a)) (leBytes 8 v.toNat) }, .done o)
              | none => (u, .done o)
            | (u, _) => (u, .wait)
        | .reg bl _ _ => s.regAccess c bl false (fun s => (s, .trap 0x05 0))
        | .unmapped => (s, .trap 0x06 0)
      else if s.twinPkg a && t == .cacheable && !s.valleyLost then
        match s.lines.find (lineOf a) with
        | some l =>
          if l.excl then
            let o := (l.data.drop (addrLocal a % 128)).take 8
            match atomicNew (jonathOp fn) (word64 o 0) b e with
            | some v => (s.putLine a l (leBytes 8 v.toNat), .done o)
            | none => (s, .done o)
          else (s.waitLine c a opCUPG true, .sent)
        | none => (s.waitLine c a opCRDX true, .sent)
      else
        match s.twinRegBad c a false with
        | some r => (s, r)
        | none => (s.scSend c (jonathOp fn) a 8 e (leBytes 8 b.toNat) (.atomic d a), .sent)
    | _, _ => (s, .trap 0x05 0)

/-- An atomic of the row FN `fn` (R324). -/
def State.scAtomic (s : State) (c fn : Nat) : State :=
  s.scRow c (0x30 * 64 + fn) (fun t w =>
    let x := t.sc c
    let a := x.gr (hA w)
    if x.posted ≠ 0 then s
    else
      t.scAfter c w a (t.scAtomicAt c fn (hD w) a (x.gr (hB w)) (x.gr (hC w))) (fun t o =>
        (t.modSc c (fun x => x.setG (hD w) (word64 o 0))).scNext c))

/-! ## Interrupts (R307, R309, R333 to R335) -/

/-- `SC_IPEND` of core c: `TIME` is pending while node time has reached `SC_TCMP` (R334). -/
def State.scPending (s : State) (c : Nat) : Word :=
  let x := s.sc c
  setFld x.ipend 0 1 (b2n (decide (x.tcmp.toNat ≤ (s.now (s.part.dieOfSc c)).toNat)))

/-- An enabled interrupt is pending (R309, R335). -/
def State.scWakes (s : State) (c : Nat) : Bool :=
  let x := s.sc c
  (s.scPending c &&& x.ien) != 0 || (x.fwIpend &&& x.fwIen) != 0

/-- Core c leaves its `WFE` (R309). -/
def State.scWake (s : State) (c : Nat) : State := if s.scWakes c then s.modSc c (fun x => { x with wfe := false }) else s

/-- The interrupts that core c may take, as cause, code and value, lowest first (R307, R311). -/
def State.scTakeable (s : State) (c : Nat) : List (Nat × BitVec 16 × Word) :=
  let x := s.sc c
  let p := s.scPending c &&& x.ien
  let sup := x.level = 0 || (x.level = 1 && stIe x.status)
  let fw := x.level < 2 || stIe x.fwStatus
  (if sup && bit p 0 then [(0x20, 0, 0)] else []) ++ (if sup && bit p 1 then [(0x21, 0, x.sigFrom)] else [])
    ++ (if sup && bit p 2 then [(0x22, 0, x.postRec)] else [])
    ++ (if sup && bit p 3 then [(0x23, x.storeBad.2, x.storeBad.1)] else [])
    ++ (if fw && bit (x.fwIpend &&& x.fwIen) 8 then [(0x28, 0, 0)] else [])

/-- Core c takes the pending interrupt with the lowest cause (R304, R307). A halted core takes none (R747). -/
def State.scInterrupt (s : State) (c : Nat) : State :=
  let x := s.sc c
  if !x.run || x.stopped || x.halted || x.wait.isSome then s
  else
    match s.scTakeable c with
    | [] => s
    | (cause, code, tval) :: _ =>
      s.setSc c (x.enter (if cause = 0x28 then 2 else 1) x.pc (causeWord true cause code) tval 0x80)

/-! ## System registers (R331 to R336, R369, R370) -/

/-- The lowest level that reaches a system register (R331). -/
abbrev srLevel (n : Nat) : Nat := n / 0x4000

/-- `SC_COREID` (R336). -/
def State.scCoreId (s : State) (c : Nat) : Word := wd (s.pkg * 2 ^ 50 + (s.part.dieOfSc c - 4) * 2 ^ 8 + c % 128)

/-- The value of a listed system register (R331, R369); none of an unlisted number. Number 0x4020 names `SC_PRB8` and `SC_VSTART`,
whose fields do not meet, and shows both; 0x4021 names `SC_PRL8` and `SC_VXCAUSE`, and shows the second (log 56). -/
def State.srRead (s : State) (c n : Nat) : Option Word :=
  let x := s.sc c
  if 0x4010 ≤ n ∧ n < 0x4030 ∧ (n < 0x4020 ∨ n > 0x4021) then
    some (if n % 2 = 0 then x.prb.get 0 ((n - 0x4010) / 2) else x.prl.get 0 ((n - 0x4010) / 2))
  else
    match n with
    | 0x0000 => some x.fcsr
    | 0x0010 => some (wd (x.cyc / 16))
    | 0x0011 => some (s.now (s.part.dieOfSc c))
    | 0x0012 => some (s.scCoreId c)
    | 0x0020 => some (wd (b2n x.ew32 * 2 ^ 8 + x.vl % 128))
    | 0x4000 => some (setFld x.status 8 2 x.level)
    | 0x4001 => some x.tvec
    | 0x4002 => some x.epc
    | 0x4003 => some x.cause
    | 0x4004 => some x.tval
    | 0x4005 => some x.scratch
    | 0x4008 => some x.ien
    | 0x4009 => some (s.scPending c)
    | 0x400A => some x.tcmp
    | 0x4020 => some (x.prb.get 0 8 ||| wd x.vstart)
    | 0x4021 => some x.vxcause
    | 0x8000 => some (setFld x.fwStatus 8 2 x.level)
    | 0x8001 => some x.fwTvec
    | 0x8002 => some x.fwEpc
    | 0x8003 => some x.fwCause
    | 0x8004 => some x.fwTval
    | 0x8005 => some x.fwScratch
    | 0x8008 => some x.fwIen
    | 0x8009 => some x.fwIpend
    | _ => none

/-- The bits of a status word that an `SRW` writes (R333). -/
def stMask : Word := 0x8F8
/-- The bits of a cause word that an `SRW` writes (R333). -/
def causeMask : Word := 0x80000000FFFF00FF

/-- The core with a system register written; none where the write is illegal (R331, R333). A write of 0x4020 writes `SC_PRB8` and
`SC_VSTART`, one of 0x4021 `SC_PRL8` (log 56). -/
def Core.srWrite (x : Core) (n : Nat) (v : Word) : Option Core :=
  match n with
  | 0x0000 => if fld v 8 3 = 0 ∨ 5 < fld v 8 3 then none else some { x with fcsr := v &&& 0x71F }
  | 0x4000 => some { x with status := v &&& stMask }
  | 0x4001 => some { x with tvec := wd (v.toNat / 256 * 256) }
  | 0x4002 => some { x with epc := v }
  | 0x4003 => some { x with cause := v &&& causeMask }
  | 0x4004 => some { x with tval := v }
  | 0x4005 => some { x with scratch := v }
  | 0x4008 => some { x with ien := v &&& 0xF }
  | 0x4009 => some { x with ipend := x.ipend &&& ~~~ (v &&& 0xE) }
  | 0x400A => some { x with tcmp := v }
  | 0x4020 => some { x with vstart := fld v 0 7, prb := x.prb.set 8 (wd (v.toNat / 65536 * 65536)) }
  | 0x8000 => some { x with fwStatus := v &&& stMask }
  | 0x8001 => some { x with fwTvec := wd (v.toNat / 256 * 256) }
  | 0x8002 => some { x with fwEpc := v }
  | 0x8003 => some { x with fwCause := v &&& causeMask }
  | 0x8004 => some { x with fwTval := v }
  | 0x8005 => some { x with fwScratch := v }
  | 0x8008 => some { x with fwIen := v &&& 0x100 }
  | 0x8009 => some { x with fwIpend := x.fwIpend &&& ~~~ (v &&& 0x100) }
  | _ =>
    if 0x4010 ≤ n ∧ n < 0x4030 then
      if n % 2 = 0 then some { x with prb := x.prb.set ((n - 0x4010) / 2) (wd (v.toNat / 65536 * 65536)) }
      else some { x with prl := x.prl.set ((n - 0x4010) / 2) (wd (v.toNat / 65536 * 65536) ||| (v &&& 0xFC)) }
    else none

/-! ## POST (R327 to R330, R817) -/

/-- `POST` with its block: the checks of R328, and the answer of the dispatcher (R329). -/
def State.postBlock (s : State) (c : Nat) (w : Word) (b : List Byte) : State :=
  let list := word64 b 0
  let record := word64 b 16
  let pc := (s.sc c).pc
  if list.toNat % 64 ≠ 0 then s.scTrap c pc 0x04 0 list
  else if record.toNat % 32 ≠ 0 then s.scTrap c pc 0x04 0 record
  else if !s.inHbm list 64 then s.scTrap c pc 0x05 0 list
  else if !s.inHbm record 32 then s.scTrap c pc 0x05 0 record
  else
    let (t, code, _) := s.submit (hImmU w % 2) list (word64 b 8) record (word64 b 24) (.core c (bit w 1))
    (t.modSc c (fun x => x.setG (hD w) (wd code.toNat))).scNext c

end Sys2Proof.Machine
end

