-- ==== Sys2Proof/Machine/VecOps.lean ====
section
/-! DEFINITION. The long-vector extension (R338 to R371): elements, masks, element-wise operations, reductions, and vector loads
and stores. -/

namespace Sys2Proof.Machine

/-! ## Elements (R339, R341, R344) -/

/-- Bits of an element. -/
def ewBits (ew32 : Bool) : Nat := if ew32 then 32 else 64
/-- The FP format of an element width (R350). -/
def ewFmt (ew32 : Bool) : FFmt := if ew32 then f32 else f64
/-- `VLMAX` (R341). -/
def vlmax (ew32 : Bool) : Nat := if ew32 then 64 else 32

/-- Element i of `n` bits of a vector register (R339). -/
def elemOf (n : Nat) (v : BitVec 2048) (i : Nat) : Nat := (v.toNat >>> (i * n)) % 2 ^ n
/-- The register with element i of `n` bits replaced. -/
def putElem (n : Nat) (v : BitVec 2048) (i e : Nat) : BitVec 2048 :=
  BitVec.ofNat 2048 (v.toNat - elemOf n v i * 2 ^ (i * n) + e % 2 ^ n * 2 ^ (i * n))

/-- Element i of vector register r of a core. -/
def Core.el (x : Core) (r i : Nat) : Nat := elemOf (ewBits x.ew32) (x.vr r) i
/-- Element i of an instruction is active (R344). -/
def Core.active (x : Core) (w : Word) (i : Nat) : Bool :=
  decide (x.vstart ≤ i ∧ i < x.vl) && (!vMU w || bit (x.mr (vM w)) i)
/-- The second operand of element i: of vB, or the scalar (R350, R351). -/
def Core.opB (x : Core) (w : Word) (fp : Bool) (i : Nat) : Nat :=
  if vS w then ((if fp then x.fr (hB w) else x.gr (hB w)).toNat) % 2 ^ ewBits x.ew32 else x.el (hB w) i

/-! ## Element-wise operations (R350 to R353, R359) -/

/-- Every active element of vD becomes `f a b d`, with its flags (R350, R352). -/
def Core.vMap (x : Core) (w : Word) (fp : Bool) (f : Nat → Nat → Nat → FpRes) : Core :=
  let n := ewBits x.ew32
  let r := (upTo x.vl).foldl (fun (acc : BitVec 2048 × FpFlags) i =>
    if x.active w i then
      let e := f (x.el (hA w) i) (x.opB w fp i) (x.el (hD w) i)
      (putElem n acc.1 i e.1, acc.2.or e.2)
    else acc) (x.vr (hD w), FpFlags.none)
  (x.setV (hD w) r.1).addFlags r.2

/-- Every active bit of mD becomes `p a b`, with its flags (R350, R353). -/
def Core.vTest (x : Core) (w : Word) (fp : Bool) (p : Nat → Nat → Bool × FpFlags) : Core :=
  let r := (upTo x.vl).foldl (fun (acc : Word × FpFlags) i =>
    if x.active w i then
      let e := p (x.el (hA w) i) (x.opB w fp i)
      (setFld acc.1 i 1 (b2n e.1), acc.2.or e.2)
    else acc) (x.mr (hD w), FpFlags.none)
  (x.setM (hD w) r.1).addFlags r.2

/-- The dynamic rounding direction of a core (R352). -/
def Core.rm (x : Core) : Rnd := rndMode 0 x.fcsr

/-- An FP operation of OP 0x34. -/
def State.vFp (s : State) (c fn : Nat) (f : FFmt → Rnd → Nat → Nat → Nat → FpRes) : State :=
  s.scAlu c (0x34 * 64 + fn) (fun x w => x.vMap w true (f (ewFmt x.ew32) x.rm))

/-- An integer operation of OP 0x34 on two's-complement values of `n` bits. -/
def State.vInt (s : State) (c fn : Nat) (f : Nat → Nat → Nat → Nat) : State :=
  s.scAlu c (0x34 * 64 + fn) (fun x w => x.vMap w false (fun a b _ => (f (ewBits x.ew32) a b, FpFlags.none)))

/-- An FP comparison of OP 0x34 (R301, R350). -/
def State.vFcmp (s : State) (c fn : Nat) (quiet : Bool) (p : Val → Val → Bool) : State :=
  s.scAlu c (0x34 * 64 + fn) (fun x w => x.vTest w true ((ewFmt x.ew32).fcmp quiet p))

/-- An integer comparison of OP 0x34. -/
def State.vIcmp (s : State) (c fn : Nat) (p : Nat → Nat → Nat → Bool) : State :=
  s.scAlu c (0x34 * 64 + fn) (fun x w => x.vTest w false (fun a b => (p (ewBits x.ew32) a b, FpFlags.none)))

/-- A fused operation of OP 0x34 (R350): an invalid flag that IEEE 754 leaves open is a free value of the operands
(log 33). -/
def State.vFma (s : State) (c fn : Nat) (negP negC : Bool) : State :=
  s.scRow c (0x34 * 64 + fn) (fun s w =>
    let x := s.sc c
    let t := ewFmt x.ew32
    let s := s.modSc c (fun x => x.vMap w true (fun a b d => t.ffma x.rm negP negC a b d))
    let s := if (upTo x.vl).any (fun i =>
          let a := x.el (hA w) i
          let b := x.opB w true i
          let d := x.el (hD w) i
          x.active w i && t.fmaOpen a b d && Config.fmaInvalid a b d) then
        s.modSc c (fun x => x.addFlags FpFlags.invalid)
      else s
    s.scNext c)

/-! ## Reductions (R356 to R358) -/

/-- One level of the pairwise tree: a node with one absent child takes the other (R357). -/
def treeLevel (f : Nat → Nat → FpRes) : List (Option Nat) → List (Option Nat) × FpFlags
  | some a :: some b :: r =>
    let e := f a b
    let t := treeLevel f r
    (some e.1 :: t.1, e.2.or t.2)
  | some a :: none :: r => let t := treeLevel f r; (some a :: t.1, t.2)
  | none :: b :: r => let t := treeLevel f r; (b :: t.1, t.2)
  | [a] => ([a], FpFlags.none)
  | [] => ([], FpFlags.none)

/-- The pairwise tree over the positions of a register, in at most `fuel` levels (R357). -/
def treeOf (f : Nat → Nat → FpRes) : Nat → List (Option Nat) → Option Nat × FpFlags
  | 0, l => (nth l none 0, FpFlags.none)
  | fuel + 1, l =>
    match l with
    | _ :: _ :: _ =>
      let t := treeLevel f l
      let u := treeOf f fuel t.1
      (u.1, t.2.or u.2)
    | _ => (nth l none 0, FpFlags.none)

/-- The active elements of vA by position, up to `VLMAX`. -/
def Core.leaves (x : Core) (w : Word) : List (Option Nat) :=
  (upTo (vlmax x.ew32)).map (fun i => if x.active w i then some (x.el (hA w) i) else none)

/-- The start value of an FP reduction. -/
def Core.startF (x : Core) (w : Word) : Nat := (x.fr (hB w)).toNat % 2 ^ ewBits x.ew32

/-- A tree reduction of OP 0x37 into fD (R357). -/
def State.vTree (s : State) (c fn : Nat) (f : FFmt → Rnd → Nat → Nat → FpRes) : State :=
  s.scAlu c (0x37 * 64 + fn) (fun x w =>
    let g := f (ewFmt x.ew32) x.rm
    let t := treeOf g 6 (x.leaves w)
    match t.1 with
    | none => x.setF (hD w) (wd (x.startF w))
    | some r =>
      let e := g (x.startF w) r
      (x.setF (hD w) (wd e.1)).addFlags (t.2.or e.2))

/-- The sequential sum (R358). -/
def Core.seqSum (x : Core) (w : Word) : Core :=
  let t := ewFmt x.ew32
  let r := (upTo x.vl).foldl (fun (acc : Nat × FpFlags) i =>
    if x.active w i then
      let e := t.fadd x.rm acc.1 (x.el (hA w) i)
      (e.1, acc.2.or e.2)
    else acc) (x.startF w, FpFlags.none)
  (x.setF (hD w) (wd r.1)).addFlags r.2

/-! ## Vector loads and stores (R360 to R367) -/

/-- The address of element i (R360). -/
def Core.vAddr (x : Core) (w : Word) (i : Nat) : Word :=
  let n := ewBits x.ew32 / 8
  let base := x.gr (hA w)
  match vMode w with
  | 0 => base + wd (i * n)
  | 1 => base + wd i * x.gr (hB w)
  | _ =>
    let idx := if x.ew32 && decide (32 ≤ i) then elemOf 64 (x.vr (hB w + 1)) (i - 32) else elemOf 64 (x.vr (hB w)) i
    base + wd idx * wd n

/-- A vector element trap (R365, R366). -/
def State.vecTrap (s : State) (c i cause : Nat) (code : BitVec 16) (a : Word) : State :=
  let s := s.modSc c (fun x => { x with vstart := i, vxcause := wd (code.toNat * 2 ^ 16 + cause) })
  s.scTrap c (s.sc c).pc (if cause = 0x08 then 0x08 else 0x0B) 0 a

/-- A core that now waits for a line of the twin does so for element i of its vector access (R365). -/
def Core.elemLine (x : Core) (i : Nat) : Core :=
  match x.wait with
  | some (.line a) => { x with wait := some (.vline i a) }
  | _ => x

/-- The elements from i on, at most `fuel` of them, in ascending order (R361, R366, R367). -/
def State.vmemN (c : Nat) (w : Word) : Nat → Nat → State → State
  | 0, _, s => (s.modSc c (fun x => { x with vstart := 0 })).scNext c
  | fuel + 1, i, s =>
    let x := s.sc c
    if x.vl ≤ i then (s.modSc c (fun x => { x with vstart := 0 })).scNext c
    else if !x.active w i then State.vmemN c w fuel (i + 1) s
    else
      let n := ewBits x.ew32 / 8
      let a := x.vAddr w i
      let s := s.modSc c (fun x => { x with vstart := i })
      let r := if vST w then s.scWrite c a (leBytes n (x.el (hD w) i)) false else s.scRead c a n false (.vload w i a)
      match r with
      | (t, .done d) =>
        let t := if vST w then t
          else t.modSc c (fun x => x.setV (hD w) (putElem (ewBits x.ew32) (x.vr (hD w)) i (leNat d)))
        State.vmemN c w fuel (i + 1) t
      | (t, .trap cause code) => t.vecTrap c i cause code a
      | (t, .sent) => t.modSc c (fun x => x.elemLine i)
      | (t, .held) => t.modSc c (fun x => { x with wait := some (.vstore w i a) })
      | (t, .wait) => (s.keepAsk t).keepWord c w

/-- An element's address is of device type; an unmapped local address is none (R313, R363, R365). -/
def State.elemDevice (s : State) (c : Nat) (a : Word) (acc : Access) : Bool :=
  s.scType c a acc == some .device && !(s.ownPkg a && s.region (addrLocal a) == .unmapped)

/-- The lowest active element of a vector access that has an element of device type (R363); from a `VSTART` at or above `vl` none is
accessed (R367). -/
def State.vecDevice (s : State) (c : Nat) (w : Word) : Option Nat :=
  let x := s.sc c
  let act := (upTo x.vl).filter (fun i => x.active w i)
  if decide (x.vstart < x.vl) && act.any (fun i => s.elemDevice c (x.vAddr w i) (if vST w then .write else .read)) then act.head? else none

/-- A vector load or store from its `VSTART` on (R363, R367). -/
def State.vmem (s : State) (c : Nat) (w : Word) : State :=
  let x := s.sc c
  match s.vecDevice c w with
  | some i => s.vecTrap c i 0x05 0 (x.vAddr w i)
  | none => State.vmemN c w ((s.sc c).vl + 1) x.vstart s

/-- A row of OP 0x35. -/
def State.vmemRow (s : State) (c row : Nat) : State := s.scRow c (0x35 * 64 + row) (fun s w => s.vmem c w)

/-! ## What a core has waited for (R322, R329, R364) -/

/-- The outcome of a request of core c, or of a store that memory has held. -/
def State.scDone (s : State) (c : Nat) (code : BitVec 16) (data : List Byte) : State :=
  let x := s.sc c
  let fail := fun (a : Word) =>
    match refusalTrap code with
    | .trap cause k => s.scTrap c x.pc cause k a
    | _ => s
  let vfail := fun (i : Nat) (a : Word) =>
    match refusalTrap code with
    | .trap cause k => (s.modSc c (fun x => { x with wait := none })).vecTrap c i cause k a
    | _ => s
  match x.wait with
  | none => s
  | some (.line _) => s
  | some (.vline _ _) => s
  | some (.load op d a) => if code ≠ 0 then fail a else (s.modSc c (fun x => x.loaded op d data)).scNext c
  | some (.atomic d a) => if code ≠ 0 then fail a else (s.modSc c (fun x => x.setG d (word64 data 0))).scNext c
  | some (.fetch a) =>
    if code ≠ 0 then fail a
    else s.modSc c (fun x => { x with wait := none, fetched := some (a, wd (leNat (data.take 4))) })
  | some (.store a) => if code ≠ 0 then fail a else s.scNext c
  | some (.post w a) => if code ≠ 0 then fail a else (s.modSc c (fun x => { x with wait := none })).postBlock c w data
  | some (.vload w i a) =>
    if code ≠ 0 then vfail i a
    else
      State.vmemN c w ((s.sc c).vl + 1) (i + 1) (s.modSc c (fun x =>
        ({ x with wait := none } : Core).setV (hD w) (putElem (ewBits x.ew32) (x.vr (hD w)) i (leNat data))))
  | some (.vstore w i a) =>
    if code ≠ 0 then vfail i a else State.vmemN c w ((s.sc c).vl + 1) (i + 1) (s.modSc c (fun x => { x with wait := none }))

/-- A posted store of core c is answered; a failure is interrupt 0x23 (R322). -/
def State.postedDone (s : State) (c : Nat) (addr : Word) (code : BitVec 16) : State :=
  s.modSc c (fun x =>
    let x : Core := { x with posted := x.posted - 1 }
    if code = 0 then x else { x with ipend := x.ipend ||| 8, storeBad := (addr, code) })

/-- The cores that wait for a line of the twin may try again, or fail with the code of its refusal (R536). -/
def State.lineWake (s : State) (a : Nat) (code : BitVec 16) : State :=
  s.cores.foldl (fun s e =>
    match e.2.wait with
    | some (.line b) =>
      if lineOf b = a then
        if code = 0 then s.modSc e.1 (fun x => { x with wait := none })
        else
          match refusalTrap code with
          | .trap cause k => s.scTrap e.1 e.2.pc cause k b
          | _ => s
      else s
    | some (.vline i b) =>
      if lineOf b = a then
        let s := s.modSc e.1 (fun x => { x with wait := none })
        if code = 0 then s
        else
          match refusalTrap code with
          | .trap cause k => s.vecTrap e.1 i cause k b
          | _ => s
      else s
    | _ => s) s

end Sys2Proof.Machine
end

