-- ==== Sys2Proof/Machine/Complete.lean ====
section
/-! DEFINITION. What a command leaves to be done once it has ended: the error records that it has raised, the outcomes of accesses
that reach their units, and the messages that take lines of the twin back. -/

namespace Sys2Proof.Machine

/-! ## Error records (R720, R736) -/

/-- Place a record before the first that follows it in the order of R736: by die, `UNIT`, then `INDEX`. -/
def insertRec (r : Rec) : List Rec → List Rec
  | [] => [r]
  | x :: l =>
    if r.die < x.die || (r.die = x.die && (r.unit < x.unit || (r.unit = x.unit && r.index < x.index))) then r :: x :: l
    else x :: insertRec r l

/-- The records of one command in the order in which they are written (R736). -/
def sortRecs (l : List Rec) : List Rec := l.foldl (fun acc r => insertRec r acc) []

/-! ## Outcomes of accesses -/

/-- A segment that memory had held is stored, or refused: it is received, and its frame is answered (R484, R527). -/
def State.cuSegDone (s : State) (g id : Nat) (x : JFrame) (at_ : Word) (code : BitVec 16) : State :=
  let f := (nth x.payload 0 0).toNat
  let s := match s.openGroup g with
    | some grp =>
      if grp.id = id ∧ code = 0 then
        match grp.rankOf x.hdr.spkg.toNat with
        | some r => s.cuSegIn g r x.hdr at_
        | none => s
      else s
    | none => s
  s.answerReq f x.hdr opRESP code []

/-- The outcome of an access reaches the unit that made it. -/
def State.deliver (s : State) (d : Done) : State :=
  match d.owner with
  | .none => s
  | .cc n => s.ccDone n d.code d.data
  | .sc c => s.scDone c d.code d.data
  | .post c a => s.postedDone c a d.code
  | .dm n id a len => s.moverDone n id a len d.code d.data
  | .load n id a => s.loadDone n id a d.code d.data
  | .disp pd l a => s.dspDone pd l a d.code d.data
  | .fabric f x => s.fabricDone f x d.code d.data
  | .host f sess seq => s.hostDone f sess seq d.code d.data
  | .cu f id => s.cuSent f id d.code
  | .cuWrite f id => s.cuWrote f id d.code
  | .cuSeg f id x at_ => s.cuSegDone f id x at_ d.code
  | .uu k n => s.uuDone k n d.code
  | .lse n => s.lseDone n d.code
  | .digest pd l => s.dspPutDone pd l d.code
  | .ring x => s.ringDone x d.code
  | .snap => s.snapAnswer d.code d.data
  | .restore a len => s.restoreAnswer a.toNat len d.code
  | .job pkg => s.jobCancelDone pkg.toNat d.code
  | .jman job attempt a => s.jobManifest job attempt a d.code d.data
  | .jcopy => s.jobCopied d.code
  | .line a excl => (s.lineDone a.toNat excl d.code d.data).lineWake a.toNat d.code
  | .recall a excl => s.recallDone a.toNat excl d.code d.data

/-! ## Settling -/

/-- Nothing is left to be done. -/
def State.settled (s : State) : Bool := s.err.fresh.isEmpty && s.done.isEmpty && s.recalls.isEmpty

/-- One round: the records if there are any, else the outcomes, else the recalls. -/
def State.settleOnce (s : State) : State :=
  match s.err.fresh with
  | _ :: _ =>
    (sortRecs s.err.fresh).foldl (fun s r => s.writeRec r) { s with err := { s.err with fresh := [] } }
  | [] =>
    match s.done with
    | _ :: _ => s.done.foldl (fun s d => s.deliver d) { s with done := [] }
    | [] => s.sendRecalls

/-- At most `fuel` rounds. -/
def settleN : Nat → State → State
  | 0, s => s
  | fuel + 1, s => if s.settled then s else settleN fuel s.settleOnce

/-- Do what the command has left to be done; what is still left after 64 rounds stays for the next command. -/
def State.settle (s : State) : State := settleN 64 s

theorem State.settle_of_settled (s : State) (h : s.settled = true) : s.settle = s := by
  simp [State.settle, settleN, h]

end Sys2Proof.Machine
end

