-- ==== Sys2Proof/Machine/Ops.lean ====
section
/-! DEFINITION. The named operations that every command goes through: whether the package can act, and the frame of a meaning:
`onUnit` and its forms. -/

namespace Sys2Proof.Machine

/-- The outcome type of a meaning. -/
abbrev Out := Host.Outcome State Fault Refusal

/-! ## The frame of a meaning -/

/-- The package can act: it is powered, reset is not held, and it is not frozen (R744, R753, R773). -/
def State.alive (s : State) : Bool := s.power.powered && !s.power.pinReset && !s.power.frozen && !s.power.shutdown

/-- What stands after a command that began in state s and has led to t: the queue of waiting commands is left alone, and memory is
listed in its canonical form. -/
def State.leave (s t : State) : State := { t with pending := s.pending, mem := memNorm t.mem }

/-- A command that acts whatever state the package is in. -/
def always (s : State) (f : State → State) : Out := .next (s.leave (f s))

/-- A command on a unit: without effect where the part has no such unit (R24: the registers of an absent unit read as zero and
discard writes, and nothing else of it acts) and while nothing can act; else `f`, and then what it left to be done. -/
def onUnit (present : Bool) (s : State) (f : State → State) : Out :=
  if present && s.alive then .next (s.leave (f s).settle) else .next s

/-- A command on the package as a whole. -/
abbrev onPackage (s : State) (f : State → State) : Out := onUnit true s f
/-- A command on cluster n. -/
abbrev onCluster (n : Nat) (s : State) (f : State → State) : Out := onUnit (decide (n < s.part.clusters)) s f
/-- A command on solver core c. -/
abbrev onCore (c : Nat) (s : State) (f : State → State) : Out := onUnit (decide (c < s.part.sc)) s f
/-- A command on dispatcher pd. -/
abbrev onDisp (pd : Nat) (s : State) (f : State → State) : Out := onUnit (decide (pd < 2)) s f
/-- A command on die d. -/
abbrev onDie (d : Nat) (s : State) (f : State → State) : Out := onUnit (decide (d < 8)) s f
/-- A command on least-squares engine n. -/
abbrev onLse (n : Nat) (s : State) (f : State → State) : Out := onUnit (decide (n < s.part.lse)) s f
/-- A command on logical stack, memory controller or update unit k. -/
abbrev onStack (k : Nat) (s : State) (f : State → State) : Out := onUnit (decide (k < s.part.stacks)) s f
/-- A command on fabric port p. -/
abbrev onPort (p : Nat) (s : State) (f : State → State) : Out := onUnit (decide (p < 36)) s f
/-- A command on fabric die f. -/
abbrev onFd (f : Nat) (s : State) (g : State → State) : Out := onUnit (decide (f < 2)) s g

end Sys2Proof.Machine
end

