-- ==== Sys2Proof/Machine/Access.lean ====
section
/-! DEFINITION. `LD` and `ST` of the control core (R215, R216). -/

namespace Sys2Proof.Machine

/-- `CC_LD`. -/
def ccLdStep (n : Nat) (s : State) : State :=
  s.ccRow n 0x12 (fun pc w => s.ccLoad n pc (ccRD w) ((s.cl n).sr (ccRA w) + ccImm w))

/-- `CC_LD`. -/
def execCcLd (n : Nat) (s : State) : Out := onCluster n s (ccLdStep n)

/-- `CC_ST`. -/
def ccStStep (n : Nat) (s : State) : State :=
  s.ccRow n 0x13 (fun pc w => s.ccStore n pc ((s.cl n).sr (ccRA w) + ccImm w) ((s.cl n).sr (ccRB w)))

/-- `CC_ST`. -/
def execCcSt (n : Nat) (s : State) : Out := onCluster n s (ccStStep n)

end Sys2Proof.Machine
end

