-- ==== Sys2Proof/Machine/Collective.lean ====
section
/-! DEFINITION. The frames of collectives and their timeout (R581 to R589). -/

namespace Sys2Proof.Machine

/-- Check 3 of R516 for a collective frame: its class, and the length that R581 and R582 give its payload. -/
def cuFormatOk (h : JHdr) (data : List Byte) : Bool :=
  let n := data.length
  h.res == 0 && h.act != 7 && h.tc == 1
    && (if h.op = 0x53 then n == 0 else if h.op = 0x54 then n == 8 else n % 8 == 0 && decide (24 ≤ n ∧ n ≤ 480))

/-- The checks of R516 for a collective frame before its tenant check. -/
def State.cuCheck (s : State) (h : JHdr) (data : List Byte) : Option (BitVec 16) :=
  let a := h.daddr.toNat
  if !cuFormatOk h data then some Code.FAB_FORMAT
  else
    match s.rangeIn a (data.length - 16) with
    | .hbm _ => if s.homeKey a = 0 ∨ s.homeKey a ≠ h.key then some Code.FAB_KEY_MISMATCH else none
    | _ => some Code.FAB_UNREACHABLE

/-- A frame of the group that CU g holds, from the member of rank r (R581 to R586): a duplicate segment is discarded, one that fails
its residue check fails the group, any other is written to memory, and `RESP` follows its effect (R527). The second component says
that it has to wait. -/
def State.cuTake (s : State) (f g : Nat) (grp : Group) (r : Nat) (x : InFrame) (d : List Byte) : State × Bool :=
  let h := x.frame.hdr
  let ok := fun (s : State) => (s.answerReq f h opRESP 0 [], false)
  if h.op = 0x53 ∨ h.op = 0x54 then ok (s.cuNotice g r h x.at_)
  else if grp.got_ r h then ok s
  else if decide (d.length < 16) || trailer (d.take (d.length - 16)) != d.drop (d.length - 16) then ok (s.cuTorn g)
  else
    let o : Owner := .cuSeg g grp.id { x.frame with payload := [BitVec.ofNat 8 f] } x.at_
    if s.mcs.any (fun m => m.2.held.any (fun w => match w.owner with
        | .cuSeg g' id y _ => g' == g && id == grp.id && grp.segKey r y.hdr == grp.segKey r h && y.hdr.op == h.op
        | _ => false)) then (s, false)
    else
      match s.localWrite (grp.req g) h.daddr.toNat ((d.take (d.length - 16)).take (grp.segKey r h).2) o with
      | (s, some (.done 0)) => ok (s.cuSegIn g r h x.at_)
      | (s, some (.done _)) => (s, false)
      | (s, some (.refused c)) => (s.answerReq f h opRESP c [], false)
      | (s, some .wait) => (s, true)
      | (s, none) => (s.answerReq f h opRESP Code.FAB_UNREACHABLE [], false)

/-- A collective frame arrives at FD f (R584): `NAK` when no CU of the package holds its group, `RESP` when the group is
one of the last closed or the frame has done its work. A frame of a package that is no member does nothing (log 42). -/
def State.cuArrive (s : State) (f : Nat) (op : Byte) : State :=
  s.onFrame f (· == op) (fun s x d =>
    let h := x.frame.hdr
    match s.cuCheck h d with
    | some c => (s.answerReq f h opRESP c [], false)
    | none =>
      let (k, _) := s.mapAddr h.daddr.toNat
      match s.tagCheck 9 h.tenant h.daddr.toNat k with
      | some c => ((s.mcRefuse k c).answerReq f h opRESP c [], false)
      | none =>
        let ident := fld h.arg 32 32
        match s.cuOf ident with
        | none => (s.answerReq f h (if s.cuClosed ident then opRESP else opNAK) (if s.cuClosed ident then 0 else Code.FAB_BUSY) [], false)
        | some g =>
          match s.openGroup g with
          | none => (s, false)
          | some grp =>
            match grp.rankOf h.spkg.toNat with
            | some r => s.cuTake f g grp r x d
            | none => (s.answerReq f h opRESP 0 [], false))

/-- `CPART` (R581): a contribution, reduced in its turn (R578 to R580). -/
def execCpart (f : Nat) (s : State) : Out := onFd f s (fun s => s.cuArrive f 0x50)
/-- `CGATH` (R581): a reduced or gathered segment, into `DST`. -/
def execCgath (f : Nat) (s : State) : Out := onFd f s (fun s => s.cuArrive f 0x51)
/-- `CRING` (R581): a ring segment, into `SCRATCH`. -/
def execCring (f : Nat) (s : State) : Out := onFd f s (fun s => s.cuArrive f 0x52)
/-- `CDONE` (R585). -/
def execCdone (f : Nat) (s : State) : Out := onFd f s (fun s => s.cuArrive f 0x53)
/-- `CABORT` (R586). -/
def execCabort (f : Nat) (s : State) : Out := onFd f s (fun s => s.cuArrive f 0x54)

/-- `CU_TIMEOUT`: `LIMIT` has passed since the later of acceptance and `START` (R586). -/
def cuTimeoutStep (f : Nat) (s : State) : State :=
  match s.openGroup f with
  | none => s
  | some g =>
    if max g.openAt.toNat g.start.toNat + s.rfld (cuReg f 0x08) 0 40 ≤ (s.now (fdDie f)).toNat then
      s.cuFail f Code.CU_TIMEOUT 0
    else s

/-- `CU_TIMEOUT`. -/
def execCuTimeout (f : Nat) (s : State) : Out := onFd f s (cuTimeoutStep f)

end Sys2Proof.Machine
end

