-- ==== Sys2Proof/Machine/Matrix.lean ====
section
/-! DEFINITION. The matrix engine's commands: `MMA`, `MSAVE`, `MREST`, `MDROP`, the relight decision and the commit of
an output tile (R105 to R156). Each instruction stands at the head of the engine's issue queue; a command for another
instruction than the one at the head, or one that has to wait, changes nothing (log 4). -/

namespace Sys2Proof.Machine

/-- Whether the matrix engine of a running cluster has an instruction with an opcode at its head, and which. -/
def State.headOf (s : State) (n eng op : Nat) : Option Issued :=
  if s.running n then
    match (s.cl n).queueOf eng with
    | [] => none
    | i :: _ => if opOf i.word = op then some i else none
  else none

/-- `ME_CTRL.RELIGHT_OFF` (R158). -/
def State.relightOff (s : State) (n : Nat) : Bool := bit (s.reg (clReg n 0x2000)) 0

/-- The cluster with the operand tiles of an `MMA` popped, kept for the chain of its bank under retention (R148) and else released
(R142). -/
def Cluster.popOperands (c : Cluster) (w : Word) (keep : Bool) : Cluster :=
  ([mQA w, mQB w] ++ (if mAcc w = 1 then [mQP w] else [])).foldl
    (fun c i => c.setQ i (if keep then (c.q i).popKeep (mBank w) else (c.q i).pop)) c

/-- The chain that an `MMA` works on: the one it opens, or the one it continues, which takes its fields from its first
`MMA` (R124, R136, R144). -/
def State.mmaChain (s : State) (n : Nat) (w : Word) (p : Option Word) : Chain :=
  let c := s.cl n
  let eff := c.mmaEff w (s.relightOff n)
  match mAcc w with
  | 2 =>
    match c.bank (mBank w) with
    | some ch => if ch.fields.isNone then { ch with fields := some w, eff := eff } else ch
    | none => newChain w eff none
  | 1 => newChain w eff (p.map (fun d => (mQP w, d, s.tile n d)))
  | _ => newChain w eff none

/-- The chain after an `MMA` has taken in and accumulated its operand tiles; with `LAST` it is draining and merged. -/
def State.mmaResult (s : State) (n : Nat) (i : Issued) (a b : Word) (p : Option Word) : Chain :=
  let w := i.word
  let k := mClassOf w
  let ea := enterTile (dFmt a) (mFA w) (s.tile n a)
  let eb := enterTile (dFmt b) (mFB w) (s.tile n b)
  let ch := (s.mmaChain n w p).accumulate (mIeee w) k.d (mPasses w) ea eb
  let ch := { ch with
    clipIn := ch.clipIn + ea.clips + eb.clips
    narrowed := ch.narrowed || dFmt a != mFA w || dFmt b != mFB w
    pairs := if 2 ≤ ch.eff then ch.pairs ++ [⟨mQA w, a, mQB w, b⟩] else ch.pairs }
  if mLast w then { ch.merge (mIeee w) with state := .draining, last := some i } else ch

/-- `MMA` (R105 to R129, R813): the waits of R125, checks 1 to 8, the wait for its tiles, check 9, and then the pop and
the accumulation. -/
def mmaStep (n : Nat) (s : State) : State :=
  match s.headOf n 1 0x40 with
  | none => s
  | some i =>
    let c := s.cl n
    let w := i.word
    if mAcc w < 2 && c.openWaits (mShape w) (mBank w) then s
    else
      match c.mmaCheck w (s.relightOff n) with
      | some code => s.refuseHead n 1 i code
      | none =>
        if !c.mmaReady w then s
        else
          let a := (c.q (mQA w)).head
          let b := (c.q (mQB w)).head
          let p := if mAcc w = 1 then some (c.q (mQP w)).head else none
          match mmaTileCheck w a b p with
          | some code => s.refuseHead n 1 i code
          | none =>
            let ch := s.mmaResult n i a b p
            s.modCl n (fun c =>
              { ((c.dequeue 1).popOperands w (decide (2 ≤ ch.eff))).setBank (mBank w) (some ch) with wdog := 0 })

/-- `MMA` (R124). -/
def execMma (n : Nat) (s : State) : Out := onCluster n s (mmaStep n)

/-- Checks of an `MSAVE` (R134, R137, R138, R241), in the order of R813. A 64 × 16 chain is the chain of bank 0; that bank 1 then
holds no open chain, for `MSAVE` and for `MDROP`, is a DESIGN CHOICE (log 107). -/
def Cluster.msaveCheck (c : Cluster) (w : Word) : Option (BitVec 16) :=
  let ch := c.bank (mBank w)
  firstCode
    [(w.toNat &&& (mask 55 41 + mask 35 19 + mask 17 0) != 0, Code.CL_ME_OPERAND),
     (!bankOpen ch, Code.CL_ME_CHAIN),
     ((match ch with | some x => 2 ≤ x.eff | none => false), Code.CL_ME_SAVE),
     ((c.q (mQO w)).slot < 8192, Code.CL_SLOT)]

/-- Two places of a list exchanged. -/
def swapAt (l : List Word) (p : Nat × Nat) : List Word :=
  if p.1 < l.length ∧ p.2 < l.length then (l.set p.1 (nth l 0 p.2)).set p.2 (nth l 0 p.1) else l

/-- The accumulators of a chain in the order of the raw tile's words: row by row for 32 × 32, the shape of the tile (DEDUCED), and in
an order that the spec leaves open for the others (R68, R135; log 5). -/
def rawPlace (shape : Nat) (l : List Word) : List Word := if shape = 0 then l else (Config.rawSwaps shape).foldl swapAt l

/-- The accumulators of a chain from the words of a raw tile. -/
def rawUnplace (shape : Nat) (l : List Word) : List Word :=
  if shape = 0 then l else (Config.rawSwaps shape).reverse.foldl swapAt l

/-- The raw tile of the accumulators of a chain (R68, R135). -/
def rawTile (shape : Nat) (l : List Word) : List Byte := wordsBytes (rawPlace shape l)

/-- The NAN flag of a raw tile: a NaN was replaced, or the tile holds one (R83, R135; DESIGN CHOICE, log 107). -/
def rawNan (ch : Chain) (l : List Word) : Bool := ch.nan || (!ch.isInt && l.any (fun a => codeNan 0xE a.toNat))

/-- `MSAVE` (R135): it pushes the even partials, and in 64 × 16 the odd partials after them. Each tile waits for a
slot; a first tile already pushed is kept as the only operand of the instruction at the head. -/
def msaveStep (n : Nat) (s : State) : State :=
  match s.headOf n 1 0x41 with
  | none => s
  | some i =>
    let c := s.cl n
    match c.msaveCheck i.word, c.bank (mBank i.word) with
    | some code, _ => s.refuseHead n 1 i code
    | none, none => s
    | none, some ch =>
      let qo := mQO i.word
      if !(c.q qo).room 1 then s
      else
        let second := !i.ops.isEmpty
        let vals := if second then ch.odd else ch.even
        let s := s.pushTile n qo (rawTile ch.shape vals) (fun a =>
          mkDesc (if ch.isInt then 0xF else 0xE) 32 32 a (ch.sat || ch.preSat) (ch.clip || ch.preClip) (rawNan ch vals) false)
        let more := ch.shape == 2 && !second
        s.modCl n (fun c =>
          if more then { c with meQ := modAt c.meQ 0 (fun i => { i with ops := [1] }), wdog := 0 }
          else { c.dequeue 1 with wdog := 0 })

/-- `MSAVE` (R135). -/
def execMsave (n : Nat) (s : State) : Out := onCluster n s (msaveStep n)

/-- Checks of an `MREST` before its tiles (R134, R136, R137). -/
def Cluster.mrestCheck (c : Cluster) (w : Word) : Option (BitVec 16) :=
  firstCode
    [(w.toNat &&& (mask 50 24 + mask 21 20 + mask 17 0) != 0 || (mLast w && mShape w != 2), Code.CL_ME_OPERAND),
     (mShape w == 3 || (mShape w == 2 && mBank w == 1), Code.CL_ME_SHAPE),
     (c.openRefused (mShape w) (mBank w), Code.CL_ME_CHAIN)]

/-- Checks of an `MREST` on the tiles at the head of its queue (R136, R813). Two tiles of different formats set no one class; the
refusal with `CL_ME_FORMAT` is a DESIGN CHOICE (log 107). -/
def mrestTileCheck (ds : List Word) : Option (BitVec 16) :=
  firstCode
    [(ds.any (fun d => dRows d != 32 || dCols d != 32), Code.CL_ME_SHAPE),
     (ds.any (fun d => dFmt d < 14) || ds.any (fun d => dFmt d != dFmt (nth ds 0 0)), Code.CL_ME_FORMAT)]

/-- The chain that an `MREST` opens, with `RELIGHT_OFF` as it then is (R69, R136, R144). -/
def restoredChain (w : Word) (off : Bool) (ds : List Word) (tiles : List (List Word)) : Chain :=
  { newChain w 0 none with
    offAt := off
    isInt := dFmt (nth ds 0 0) == 0xF
    fields := none
    restored := true
    even := nth tiles [] 0
    odd := nth tiles [] 1
    nextOdd := mLast w
    preSat := ds.any dSat
    preClip := ds.any dClip }

/-- An accumulator as `MREST` takes it from its word (R69). A NaN keeps its payload, since R69 restores the identical accumulator and
R68 saves it as it is; R90 asks for the canonical NaN only of what an engine computes (DESIGN CHOICE, log 107). -/
def restoreWord (isInt : Bool) (x : Nat) : Word := if isInt then wdInt (sext x 48) else wd (x % 2 ^ 40)

/-- `MREST` (R136): bit 19 is `ODD`. -/
def mrestStep (n : Nat) (s : State) : State :=
  match s.headOf n 1 0x42 with
  | none => s
  | some i =>
    let c := s.cl n
    let w := i.word
    if c.openWaits (mShape w) (mBank w) then s
    else
      match c.mrestCheck w with
      | some code => s.refuseHead n 1 i code
      | none =>
        let k := if mShape w = 2 then 2 else 1
        let ds := (c.q (mQA w)).entries.take k
        if ds.length < k then s
        else
          match mrestTileCheck ds with
          | some code => s.refuseHead n 1 i code
          | none =>
            let tiles := ds.map (fun d => rawUnplace (mShape w) ((s.tile n d).flatten.map (restoreWord (dFmt d == 0xF))))
            s.modCl n (fun c =>
              let c := (upTo k).foldl (fun c _ => c.setQ (mQA w) (c.q (mQA w)).pop) (c.dequeue 1)
              { c.setBank (mBank w) (some (restoredChain w (s.relightOff n) ds tiles)) with wdog := 0 })

/-- `MREST` (R136). -/
def execMrest (n : Nat) (s : State) : Out := onCluster n s (mrestStep n)

/-- `MDROP` (R140): the chain ends without output, its retained entries are released and its counts are added. -/
def mdropStep (n : Nat) (s : State) : State :=
  match s.headOf n 1 0x43 with
  | none => s
  | some i =>
    let c := s.cl n
    let w := i.word
    match c.bank (mBank w) with
    | some ch =>
      match firstCode [(w.toNat &&& (mask 55 19 + mask 17 0) != 0, Code.CL_ME_OPERAND),
        (ch.state != .open, Code.CL_ME_CHAIN)] with
      | some code => s.refuseHead n 1 i code
      | none =>
        (s.modCl n (fun c =>
          { ((c.dequeue 1).setBank (mBank w) none).releaseBank (mBank w) with wdog := 0 })).addCounts n i.seq ch.counts
    | none =>
      s.refuseHead n 1 i (if w.toNat &&& (mask 55 19 + mask 17 0) != 0 then Code.CL_ME_OPERAND else Code.CL_ME_CHAIN)

/-- `MDROP` (R140). -/
def execMdrop (n : Nat) (s : State) : Out := onCluster n s (mdropStep n)

/-- A chain recomputed from its retained tiles under its relight policy (R150 to R153). -/
def State.relightChain (s : State) (n : Nat) (ch : Chain) : Chain :=
  let w := ch.fields.getD 0
  let pre := ch.preload.map (fun x => (x.1, x.2, s.tile n x.2))
  let start := { newChain w ch.eff pre with counts := Counts.none }
  let d := if ch.eff = 2 then 4 else 2
  let one := fun (x : Chain) (p : Pair) =>
    let ea := enterTile (dFmt p.a) (relightFmt ch.eff (dFmt p.a)) (s.tile n p.a)
    let eb := enterTile (dFmt p.b) (relightFmt ch.eff (dFmt p.b)) (s.tile n p.b)
    x.accumulate (mIeee w) d 0 ea eb
  let x := (ch.pairs.foldl one start).merge (mIeee w)
  { x with
    state := .relighting, pairs := ch.pairs, clipIn := ch.clipIn, narrowed := ch.narrowed, last := ch.last
    counts := (ch.counts.add x.counts).add ⟨0, 0, 0, 1, 1⟩, decided := true, relit := true }

/-- The relight decision of a chain (R145 to R151). -/
def State.meDecide (s : State) (n : Nat) (ch : Chain) : Chain :=
  if ch.triggered then
    if 2 ≤ ch.eff && ch.narrowed then s.relightChain n ch
    else { ch with decided := true, counts := ch.counts.add ⟨0, 0, 0, 1, 0⟩ }
  else { ch with decided := true }

/-- `ME_DECISION`: the decision of a draining chain, once, unless its policy is OFF (R145, R146). -/
def decisionStep (n b : Nat) (s : State) : State :=
  if s.running n then
    match (s.cl n).bank b with
    | none => s
    | some ch =>
      if ch.state == .draining && !ch.decided && ch.eff != 0 then
        s.modCl n (fun c => c.setBank b (some (s.meDecide n ch)))
      else s
  else s

/-- `ME_DECISION` (R145). -/
def execMeDecision (n b : Nat) (s : State) : Out :=
  onUnit (decide (n < s.part.clusters && b < 2)) s (decisionStep n b)

/-- The rows of an output tile in the output format, from its accumulators (R80, R130). -/
def drainTile (ch : Chain) (fo : Nat) : List (List Conv) :=
  chunks (shapeN ch.shape) (ch.even.map (fun a => convert (if ch.isInt then 0xF else 0xE) fo (accVal ch.isInt a)))

/-- `ME_COMMIT`: the drain of a chain into the next slot of `QO`, the push of the output tile with its flags (R132) and
the chain's counts (R133). It waits while that slot is occupied (R239). -/
def commitStep (n b : Nat) (s : State) : State :=
  if s.running n then
    match (s.cl n).bank b with
    | none => s
    | some ch =>
      match ch.last with
      | none => s
      | some i =>
        let qo := mQO i.word
        let fo := mFO i.word
        if ch.state == .open || !(ch.decided || ch.eff == 0) || !((s.cl n).q qo).room 1 then s
        else
          let rows := drainTile ch fo
          let all := rows.flatten
          let clips := (all.filter (·.clip)).length
          let nans := (all.filter (·.nan)).length
          let flagNan := ch.nan || decide (0 < nans) || all.any (fun x => codeNan fo x.code)
          let s := s.pushTile n qo (packTile fo (rows.map (fun r => r.map (·.code)))) (fun a =>
            mkDesc fo (shapeM ch.shape) (shapeN ch.shape) a (ch.sat || ch.preSat)
              (ch.clip || ch.preClip || decide (0 < clips)) flagNan ch.relit)
          let s := s.modCl n (fun c => { (c.setBank b none).releaseBank b with wdog := 0 })
          (s.bump (clReg n 0x2010) 0 48 1).addCounts n i.seq (ch.counts.add ⟨clips, nans, 0, 0, 0⟩)
  else s

/-- `ME_COMMIT` (R130). -/
def execMeCommit (n b : Nat) (s : State) : Out :=
  onUnit (decide (n < s.part.clusters && b < 2)) s (commitStep n b)

end Sys2Proof.Machine
end

