-- ==== Sys2Proof/Machine/Control.lean ====
section
/-! DEFINITION. The commands of the control core but for `LD` and `ST`: scalar instructions, loops, marks and tokens,
summaries, issue to the engines, and the watchdog (R213 to R252). -/

namespace Sys2Proof.Machine

/-! ## Scalar instructions (R213) -/

/-- `NOP`. -/
def execCcNop (n : Nat) (s : State) : Out := onCluster n s (fun s => s.ccRow n 0x00 (fun pc _ => s.ccNext n pc))

/-- `ADD`: modulo 2^64. -/
def execCcAdd (n : Nat) (s : State) : Out :=
  onCluster n s (fun s => s.ccAlu n 0x01 (fun c w => c.sr (ccRA w) + c.sr (ccRB w)))

/-- `SUB`: modulo 2^64. -/
def execCcSub (n : Nat) (s : State) : Out :=
  onCluster n s (fun s => s.ccAlu n 0x02 (fun c w => c.sr (ccRA w) - c.sr (ccRB w)))

/-- `AND`. -/
def execCcAnd (n : Nat) (s : State) : Out :=
  onCluster n s (fun s => s.ccAlu n 0x03 (fun c w => c.sr (ccRA w) &&& c.sr (ccRB w)))

/-- `OR`. -/
def execCcOr (n : Nat) (s : State) : Out :=
  onCluster n s (fun s => s.ccAlu n 0x04 (fun c w => c.sr (ccRA w) ||| c.sr (ccRB w)))

/-- `XOR`. -/
def execCcXor (n : Nat) (s : State) : Out :=
  onCluster n s (fun s => s.ccAlu n 0x05 (fun c w => c.sr (ccRA w) ^^^ c.sr (ccRB w)))

/-- `SHL`: by sRB mod 64. -/
def execCcShl (n : Nat) (s : State) : Out :=
  onCluster n s (fun s => s.ccAlu n 0x06 (fun c w => c.sr (ccRA w) <<< ((c.sr (ccRB w)).toNat % 64)))

/-- `SHR`: logical, by sRB mod 64. -/
def execCcShr (n : Nat) (s : State) : Out :=
  onCluster n s (fun s => s.ccAlu n 0x07 (fun c w => c.sr (ccRA w) >>> ((c.sr (ccRB w)).toNat % 64)))

/-- `SRA`: arithmetic, by sRB mod 64. -/
def execCcSra (n : Nat) (s : State) : Out :=
  onCluster n s (fun s => s.ccAlu n 0x08 (fun c w => (c.sr (ccRA w)).sshiftRight ((c.sr (ccRB w)).toNat % 64)))

/-- `MUL`: the low 64 bits. -/
def execCcMul (n : Nat) (s : State) : Out :=
  onCluster n s (fun s => s.ccAlu n 0x09 (fun c w => c.sr (ccRA w) * c.sr (ccRB w)))

/-- `ADDI`. -/
def execCcAddi (n : Nat) (s : State) : Out :=
  onCluster n s (fun s => s.ccAlu n 0x0A (fun c w => c.sr (ccRA w) + ccImm w))

/-- `LI`. -/
def execCcLi (n : Nat) (s : State) : Out := onCluster n s (fun s => s.ccAlu n 0x0B (fun _ w => ccImm w))

/-- `MOVHI`: the immediate above the low half of sRA. -/
def execCcMovhi (n : Nat) (s : State) : Out :=
  onCluster n s (fun s => s.ccAlu n 0x0C (fun c w => wd (ccImmU w * 2 ^ 32 + fld (c.sr (ccRA w)) 0 32)))

/-- The comparisons of `FCMP` by `COND` (R86, R87, R213): an unordered pair makes only NE hold. -/
def fcmpHolds (cond : Nat) (a b : Word) : Bool :=
  let x := f64v a
  let y := f64v b
  match cond with
  | 0 => x.eqv y
  | 1 => !x.eqv y
  | 2 => x.lt y
  | 3 => x.le y
  | 4 => y.lt x
  | _ => y.le x

/-- `FCMP`. -/
def execCcFcmp (n : Nat) (s : State) : Out :=
  onCluster n s (fun s => s.ccAlu n 0x0D (fun c w => wd (b2n (fcmpHolds (ccCond w) (c.sr (ccRA w)) (c.sr (ccRB w))))))

/-- `MOVU` (R250): stops the program on a register that is not valid. -/
def movuStep (n : Nat) (s : State) : State :=
  s.ccRow n 0x0E (fun pc w =>
    if (s.cl n).uValid.contains (ccRA w) then
      (s.modCl n (fun c => c.setSr (ccRD w) (c.u.get 0 (ccRA w)))).ccNext n pc
    else s.stopProgram n Code.CL_SUM_INVALID 0 pc 0)

/-- MOVU. -/
def execMovu (n : Nat) (s : State) : Out := onCluster n s (movuStep n)

/-- `MOVLC` (R223): the remaining iterations. -/
def execMovlc (n : Nat) (s : State) : Out :=
  onCluster n s (fun s => s.ccAlu n 0x0F (fun c w => wd (c.lc.get 0 (ccRA w))))

/-- `WRLC`: stops the program on an active counter. -/
def wrlcStep (n : Nat) (s : State) : State :=
  s.ccRow n 0x10 (fun pc w =>
    if (s.cl n).loops.any (fun l => l.1 == ccRD w) then s.stopProgram n Code.CL_LOOP_WRITE 0 pc 0
    else (s.modCl n (fun c => { c with lc := c.lc.set (ccRD w) (fld (c.sr (ccRA w)) 0 32) })).ccNext n pc)

/-- WRLC. -/
def execWrlc (n : Nat) (s : State) : Out := onCluster n s (wrlcStep n)

/-- `RDTIME`: the node time of the cluster's die. -/
def execRdtime (n : Nat) (s : State) : Out :=
  onCluster n s (fun s => s.ccAlu n 0x11 (fun _ _ => s.now (s.part.dieOfCl n)))

/-- The comparisons of `BR` by `COND` (R213). -/
def brHolds (cond : Nat) (a b : Word) : Bool :=
  match cond with
  | 0 => true
  | 1 => a == b
  | 2 => a != b
  | 3 => a.slt b
  | 4 => !a.slt b
  | 5 => a.ult b
  | _ => !a.ult b

/-- `BR` (R213, R214). -/
def ccBrStep (n : Nat) (s : State) : State :=
  s.ccRow n 0x14 (fun pc w =>
    let c := s.cl n
    if brHolds (ccCond w) (c.sr (ccRA w)) (c.sr (ccRB w)) then s.ccBranch n pc (sfld w 0 32) else s.ccNext n pc)

/-- BR. -/
def execCcBr (n : Nat) (s : State) : Out := onCluster n s (ccBrStep n)

/-- `JAL`: links PC + 1. -/
def execCcJal (n : Nat) (s : State) : Out :=
  onCluster n s (fun s => s.ccRow n 0x15 (fun pc w =>
    (s.modCl n (fun c => c.setSr (ccRD w) (wd (pc + 1)))).ccBranch n pc (sfld w 0 32)))

/-- `JR`. -/
def execJr (n : Nat) (s : State) : Out :=
  onCluster n s (fun s => s.ccRow n 0x16 (fun pc w => s.setPc n pc ((s.cl n).sr (ccRA w)).toNat))

/-! ## Loops (R218 to R222) -/

/-- `LOOP` (R218 to R222). A loop whose form breaks R221 stops the program also where its count is 0 and R219 would skip it: no rule
gives an order (DESIGN CHOICE, log 109). -/
def loopStep (n : Nat) (s : State) : State :=
  s.ccRow n 0x17 (fun pc w =>
    if s.loopBad n pc w then s.stopProgram n Code.CL_LOOP_FORM 0 pc 0
    else
      let count := fld ((s.cl n).sr (ccRA w)) 0 32
      if count = 0 then s.setPc n pc (pc + ccImmU w + 1)
      else
        (s.modCl n (fun c =>
          { c with lc := c.lc.set (ccRD w) count, loops := (ccRD w, pc + 1, pc + ccImmU w) :: c.loops })).setPc n pc (pc + 1))

/-- LOOP. -/
def execLoop (n : Nat) (s : State) : Out := onCluster n s (loopStep n)

/-- `LEXIT`: the innermost active loop ends. -/
def lexitStep (n : Nat) (s : State) : State :=
  s.ccRow n 0x18 (fun pc _ =>
    match (s.cl n).loops with
    | [] => s.stopProgram n Code.CL_LOOP_FORM 0 pc 0
    | _ :: rest => (s.modCl n (fun c => { c with loops := rest })).setPc n pc (pc + 1))

/-- LEXIT. -/
def execLexit (n : Nat) (s : State) : Out := onCluster n s (lexitStep n)

/-- `HALT` (R230, R232): once every issued instruction has completed, the cluster is LOADED and reports its status. -/
def haltStep (n : Nat) (s : State) : State :=
  s.ccRow n 0x19 (fun _ w =>
    let c := s.cl n
    if !c.drained then s
    else
      let status := if c.latch.isSome then Code.CL_REFUSED else code16 (fld w 0 16)
      (s.modCl n (fun c => { c with st := .loaded, exit := status, wdog := 0 })).reportEnd n status)

/-- HALT. -/
def execHalt (n : Nat) (s : State) : Out := onCluster n s (haltStep n)

/-! ## Marks, tokens, summaries (R246 to R250, R229, R242) -/

/-- Token i of a cluster. -/
def Cluster.token (c : Cluster) (i : Nat) : Nat := c.tok.get 0 i
/-- The cluster with a token set. -/
def Cluster.setToken (c : Cluster) (i v : Nat) : Cluster := { c with tok := c.tok.set i v, wdog := 0 }

/-- `MARK` (R247), by the control core or at the head of an engine's issue queue: it waits at 255. -/
def markStep (n e : Nat) (s : State) : State :=
  if e = 0 then
    s.ccRow n 0x70 (fun pc w =>
      let t := ccTok w
      if ccEng w = 0 ∧ (s.cl n).token t < 255 then
        (s.modCl n (fun c => c.setToken t (c.token t + 1))).ccNext n pc
      else s)
  else
    match s.headOf n e 0x70 with
    | none => s
    | some i =>
      let t := ccTok i.word
      if (s.cl n).engBusy e ∨ 255 ≤ (s.cl n).token t then s
      else s.modCl n (fun c => (c.dequeue e).setToken t (c.token t + 1))

/-- MARK. -/
def execMark (n e : Nat) (s : State) : Out := onUnit (decide (n < s.part.clusters ∧ e < 5)) s (markStep n e)

/-- `WAIT` (R248): it takes the token once it is above zero. -/
def waitStep (n e : Nat) (s : State) : State :=
  if e = 0 then
    s.ccRow n 0x71 (fun pc w =>
      let t := ccTok w
      if ccEng w = 0 ∧ 0 < (s.cl n).token t then
        (s.modCl n (fun c => c.setToken t (c.token t - 1))).ccNext n pc
      else s)
  else
    match s.headOf n e 0x71 with
    | none => s
    | some i =>
      let t := ccTok i.word
      if (s.cl n).token t = 0 then s
      else s.modCl n (fun c => (c.dequeue e).setToken t (c.token t - 1))

/-- WAIT. -/
def execWait (n e : Nat) (s : State) : Out := onUnit (decide (n < s.part.clusters ∧ e < 5)) s (waitStep n e)

/-- `WAITSUM` (R249). -/
def waitsumStep (n : Nat) (s : State) : State :=
  s.ccRow n 0x72 (fun pc w =>
    if (upTo 16).all (fun i => !bit w i || (s.cl n).uValid.contains i) then s.ccNext n pc else s)

/-- WAITSUM. -/
def execWaitsum (n : Nat) (s : State) : Out := onCluster n s (waitsumStep n)

/-- `ECHK` (R229). -/
def echkStep (n : Nat) (s : State) : State :=
  s.ccRow n 0x73 (fun pc w =>
    let c := s.cl n
    if !c.drained then s
    else
      let v : Word := match c.latch with | some (code, _, _) => wd code.toNat | none => 0
      (s.modCl n (fun c => { c.setSr (ccRD w) v with latch := none })).ccNext n pc)

/-- ECHK. -/
def execEchk (n : Nat) (s : State) : Out := onCluster n s (echkStep n)

/-- `QPUSH` (R242). A wrong queue end comes before a bad descriptor: no rule gives an order (DESIGN CHOICE, log 109). -/
def qpushStep (n : Nat) (s : State) : State :=
  s.ccRow n 0x74 (fun pc w =>
    let c := s.cl n
    let q := fld w 36 5
    let d := c.sr (ccRA w)
    if !c.owns 0 true q then s.stopProgram n Code.CL_QUEUE_END 0 pc 0
    else if c.descBad d then s.stopProgram n Code.CL_QUEUE_DESC 0 pc 0
    else if !(c.q q).room 1 then s
    else (s.modCl n (fun c => c.setQ q ((c.q q).push d))).ccNext n pc)

/-- QPUSH. -/
def execQpush (n : Nat) (s : State) : Out := onCluster n s (qpushStep n)

/-- The control core issues an engine instruction, or a `MARK` or `WAIT` for an engine (R225, R237, R247, R248): it checks
the queue ends, waits for room in the issue queue, reads the scalar operands, and marks the summary register of an
`SREAD` not valid (R198). -/
def engineIssueStep (n : Nat) (s : State) : State :=
  match s.ccFetch n with
  | none => s
  | some (pc, w) =>
    match ccIllegal w with
    | some code => s.stopProgram n code 0 pc 0
    | none =>
      let op := opOf w
      let eng := engOf w
      let c := s.cl n
      if !(engineOps.contains op || ((op == 0x70 || op == 0x71) && decide (0 < eng))) then s
      else if !c.endsOk w then s.stopProgram n Code.CL_QUEUE_END 0 pc 0
      else if 32 ≤ (c.queueOf eng).length then s
      else
        let i : Issued := ⟨pc, w, c.issueOps w, c.seq + 1⟩
        (s.modCl n (fun c =>
          { c.setQueueOf eng (c.queueOf eng ++ [i]) with
            seq := c.seq + 1
            uValid := if op = 0x59 then c.uValid.filter (· != fld w 52 4) else c.uValid })).ccNext n pc

/-- ENGINE_ISSUE. -/
def execEngineIssue (n : Nat) (s : State) : Out := onCluster n s (engineIssueStep n)

/-- The watchdog (R252): the count, in sixteenths of an ACLK cycle, reaches `CC_WDOG.LIMIT`. -/
def ccWatchdogStep (n : Nat) (s : State) : State :=
  let limit := s.rfld (clReg n 0x18) 0 32
  let c := s.cl n
  if s.running n && decide (0 < limit) && !c.outstanding && decide (limit * 16 ≤ c.wdog) then
    let (eng, pc, q) := s.oldest n
    s.stopProgram n Code.CL_DEADLOCK eng pc (code16 q)
  else s

/-- CC_WATCHDOG. -/
def execCcWatchdog (n : Nat) (s : State) : Out := onCluster n s (ccWatchdogStep n)

end Sys2Proof.Machine
end

