-- ==== Sys2Proof/Machine/Element.lean ====
section
/-! DEFINITION. The commands of the element engine and the side reduction unit (R162 to R201). Execution and the write
of an output are two steps of an EE instruction: `WICK` and `ESTORE` leave an output that `EE_COMMIT` writes, pushes and
counts, in their order; an instruction without an output commits when it has executed (R192). -/

namespace Sys2Proof.Machine

/-- The shape code of a tile (R164, R110), none for a shape the EE does not accept. -/
def eeShape (d : Word) : Option Nat :=
  if dRows d = 32 && dCols d = 32 then some 0
  else if dRows d = 16 && dCols d = 64 then some 1
  else if dRows d = 64 && dCols d = 16 then some 2
  else none

/-! ## Fields of the EE instructions (R168) -/

abbrev eQI (w : Word) (i : Nat) : Nat := fld w (51 - 5 * i) 5
abbrev eQO (w : Word) : Nat := fld w 36 5
abbrev eFO (w : Word) : Nat := fld w 32 4
abbrev eProg (w : Word) : Nat := fld w 29 3
abbrev eNin (w : Word) : Nat := fld w 27 2
abbrev eOut (w : Word) : Bool := bit w 26
abbrev eShp (w : Word) : Nat := fld w 24 2

/-- The queues that a `WICK` pops. -/
def eIns (w : Word) : List Nat := (upTo (eNin w)).map (eQI w)

/-- The 32 operations of a slot of the wick memory of cluster n (R176). -/
def State.wickSlot (s : State) (n p : Nat) : List Word :=
  (upTo 32).map (fun j => word64 (memRdN s.mem (wickKey n (p * 256 + j * 8)) 8) 0)

/-- The program that a `WICK` runs (R176). -/
def State.wickProg (s : State) (n : Nat) (w : Word) : Option (List Word) := wickProgram (s.wickSlot n (eProg w))

/-- Checks 1 to 7 of R814 for a `WICK`. -/
def State.wickCheck (s : State) (n : Nat) (w : Word) : Option (BitVec 16) :=
  let p := s.wickProg n w
  let nin := eNin w
  let c := s.cl n
  firstCode
    [(w.toNat &&& mask 23 0 != 0 || [0, 1, 2].any (fun i => nin ≤ i && eQI w i != 0)
        || (!eOut w && (eQO w != 0 || eFO w != 0)) || (nin != 0 && eShp w != 0)
        || !noRepeat (eIns w) || (eOut w && (eIns w).contains (eQO w)), Code.CL_EE_OPERAND),
     (14 ≤ eFO w, Code.CL_EE_FORMAT),
     (nin == 0 && eShp w == 3, Code.CL_EE_SHAPE),
     (wickBad nin (eOut w) p, Code.CL_WICK_PROGRAM),
     (wickCvtBad p, Code.CL_EE_FORMAT),
     (nin == 0 && eShp w == 1 && wickRows p, Code.CL_EE_SHAPE),
     (nin == 0 && eOut w && (c.q (eQO w)).slot < tileBytes (eFO w) (shapeM (eShp w)) (shapeN (eShp w)), Code.CL_SLOT)]

/-- Checks 8 to 10 of R814 for a `WICK`, on the tiles at the heads of its queues. -/
def State.wickTileCheck (s : State) (n : Nat) (w : Word) (ds : List Word) : Option (BitVec 16) :=
  let d0 := nth ds 0 0
  firstCode
    [(ds.any (fun d => 14 ≤ dFmt d), Code.CL_EE_FORMAT),
     (ds.any (fun d => (eeShape d).isNone || eeShape d != eeShape d0)
        || (!ds.isEmpty && eeShape d0 == some 1 && wickRows (s.wickProg n w)), Code.CL_EE_SHAPE),
     (!ds.isEmpty && eOut w && ((s.cl n).q (eQO w)).slot < tileBytes (eFO w) (dRows d0) (dCols d0), Code.CL_SLOT)]

/-- An element widened to FP32 on entry (R167, R70, R81), with clip, replaced NaN and bad code. -/
def enterEE (f c : Nat) : BitVec 32 × Bool × Bool × Bool :=
  let (v, bad) := elemVal f c
  let k := convert f 1 v
  (BitVec.ofNat 32 k.code, k.clip, k.nan, bad)

/-- The counts of entering tiles. -/
def enterCounts (es : List (BitVec 32 × Bool × Bool × Bool)) : Counts :=
  ⟨(es.filter (·.2.1)).length, (es.filter (·.2.2.1)).length, (es.filter (·.2.2.2)).length, 0, 0⟩

/-- The operands of a program at its start: inputs, tile buffers and wick parameters (R178, R179). -/
def startRun (c : Cluster) (ins : List (List (BitVec 32))) : WickRun :=
  let inputs := (upTo ins.length).map (fun i => (0x10 + i, nth ins [] i))
  let tbs := (upTo 4).map (fun i => (0x14 + i, c.tb.get (List.replicate 1024 0) i))
  let ks := (upTo 4).map (fun i => (0x18 + i, List.replicate 1024 (c.k.get 0 i)))
  ⟨inputs ++ tbs ++ ks, 0, 0, []⟩

/-- Feed the slices of a program's `STAT`s to the sets, unless a later `SRCLR` has opened the set's interval (R200). -/
def Cluster.feed (c : Cluster) (seq : Nat) (fs : List (Nat × List (Option (BitVec 32)))) : Cluster :=
  fs.foldl (fun c f =>
    let z := c.sets.get StatSet.empty f.1
    if z.since < seq then { c with sets := c.sets.set f.1 { z with feeds := z.feeds ++ [⟨seq, f.2⟩] } } else c) c

/-- The output of an EE instruction: elements in FP32 converted to a format (R167), as bytes, with its descriptor but
for the address, and its counts. -/
def eeOutput (fo rows cols : Nat) (vals : List (BitVec 32)) (k : Counts) : Word × List Byte × Counts :=
  let cs := vals.map (fun v => convert 1 fo (f32v v))
  let clips := (cs.filter (·.clip)).length
  let nans := (cs.filter (·.nan)).length
  let k := k.add ⟨clips, nans, 0, 0, 0⟩
  let nan := decide (0 < k.nans) || cs.any (fun x => codeNan fo x.code)
  (mkDesc fo rows cols 0 false (decide (0 < k.clips)) nan false, packTile fo (chunks cols (cs.map (·.code))), k)

/-- The slot of an output to queue `qo` is free, beside those of the outputs that still wait to be written: an instruction that has to
wait for it stays at the head of the issue queue, before it pops (R226, R239; DESIGN CHOICE, log 108). -/
def Cluster.eeRoom (c : Cluster) (qo : Nat) : Bool :=
  (c.q qo).room (1 + (c.eePend.filter (fun p => match p.out with | some o => o.1 == qo | none => false)).length)

/-- `WICK` (R169, R174, R179 to R183, R192): its checks, the wait for its tiles and for the slot of its output, then the pop and the
execution. -/
def wickStep (n : Nat) (s : State) : State :=
  match s.headOf n 2 0x50 with
  | none => s
  | some i =>
    let c := s.cl n
    let w := i.word
    match s.wickCheck n w with
    | some code => s.refuseHead n 2 i code
    | none =>
      if (eIns w).any (fun q => (c.q q).entries.isEmpty) then s
      else
        let ds := (eIns w).map (fun q => (c.q q).head)
        match s.wickTileCheck n w ds with
        | some code => s.refuseHead n 2 i code
        | none =>
          if eOut w && !c.eeRoom (eQO w) then s
          else
          let rows := if eNin w = 0 then shapeM (eShp w) else dRows (nth ds 0 0)
          let cols := if eNin w = 0 then shapeN (eShp w) else dCols (nth ds 0 0)
          let es := ds.map (fun d => (s.tile n d).flatten.map (enterEE (dFmt d)))
          let r := ((s.wickProg n w).getD []).foldl (WickRun.step cols) (startRun c (es.map (fun l => l.map (·.1))))
          let k := (enterCounts es.flatten).add ⟨r.clips, r.nans, 0, 0, 0⟩
          let res := eeOutput (eFO w) rows cols (r.src 0 0x1F) k
          let t := s.modCl n (fun c =>
            let c := (eIns w).foldl (fun c q => c.setQ q (c.q q).pop) (c.dequeue 2)
            let c := c.feed i.seq r.feeds
            { c with
              tb := (upTo 4).foldl (fun t j => t.set j (r.ops.get [] (0x14 + j))) c.tb
              eePend := if eOut w then c.eePend ++ [⟨i.seq, i.pc, true, some (eQO w, res.1, res.2.1), res.2.2⟩] else c.eePend
              wdog := 0 })
          if eOut w then t else t.addCounts n i.seq k

/-- `WICK` (R169). -/
def execWick (n : Nat) (s : State) : Out := onCluster n s (wickStep n)

/-- `ELOAD` (R171): pops a tile into a tile buffer, which commits it (R192). -/
def eloadStep (n : Nat) (s : State) : State :=
  match s.headOf n 2 0x51 with
  | none => s
  | some i =>
    let c := s.cl n
    let w := i.word
    if w.toNat &&& (mask 50 18 + mask 15 0) != 0 then s.refuseHead n 2 i Code.CL_EE_OPERAND
    else if (c.q (eQI w 0)).entries.isEmpty then s
    else
      let d := (c.q (eQI w 0)).head
      match firstCode [(14 ≤ dFmt d, Code.CL_EE_FORMAT), ((eeShape d).isNone, Code.CL_EE_SHAPE)] with
      | some code => s.refuseHead n 2 i code
      | none =>
        let es := (s.tile n d).flatten.map (enterEE (dFmt d))
        (s.modCl n (fun c =>
          { (c.dequeue 2).setQ (eQI w 0) (c.q (eQI w 0)).pop with
            tb := c.tb.set (fld w 16 2) (es.map (·.1)), wdog := 0 })).addCounts n i.seq (enterCounts es)

/-- `ELOAD` (R171). -/
def execEload (n : Nat) (s : State) : Out := onCluster n s (eloadStep n)

/-- `ESTORE` (R171): converts a tile buffer once the slot of its output is free; `EE_COMMIT` pushes it. Bits [23:22] are its `SHAPE`. -/
def estoreStep (n : Nat) (s : State) : State :=
  match s.headOf n 2 0x52 with
  | none => s
  | some i =>
    let c := s.cl n
    let w := i.word
    let shp := fld w 22 2
    match firstCode
      [(w.toNat &&& (mask 55 41 + mask 31 24 + mask 21 18 + mask 15 0) != 0, Code.CL_EE_OPERAND),
       (14 ≤ eFO w, Code.CL_EE_FORMAT), (shp == 3, Code.CL_EE_SHAPE),
       ((c.q (eQO w)).slot < tileBytes (eFO w) (shapeM shp) (shapeN shp), Code.CL_SLOT)] with
    | some code => s.refuseHead n 2 i code
    | none =>
      if !c.eeRoom (eQO w) then s
      else
      let vals := c.tb.get (List.replicate 1024 0) (fld w 16 2)
      let res := eeOutput (eFO w) (shapeM shp) (shapeN shp) vals Counts.none
      s.modCl n (fun c =>
        { c.dequeue 2 with
          eePend := c.eePend ++ [⟨i.seq, i.pc, false, some (eQO w, res.1, res.2.1), res.2.2⟩], wdog := 0 })

/-- `ESTORE` (R171). -/
def execEstore (n : Nat) (s : State) : Out := onCluster n s (estoreStep n)

/-- `EPARAM` (R172): the scalar register was read at issue. -/
def eparamStep (n : Nat) (s : State) : State :=
  match s.headOf n 2 0x53 with
  | none => s
  | some i =>
    let w := i.word
    if w.toNat &&& (mask 55 18 + mask 15 5) != 0 then s.refuseHead n 2 i Code.CL_EE_OPERAND
    else
      s.modCl n (fun c =>
        { c.dequeue 2 with k := c.k.set (fld w 16 2) (BitVec.ofNat 32 (nth i.ops 0 0).toNat), wdog := 0 })

/-- `EPARAM` (R172). -/
def execEparam (n : Nat) (s : State) : Out := onCluster n s (eparamStep n)

/-- `WLOAD` (R173): copies the first 256 B of a tile into a wick slot. -/
def wloadStep (n : Nat) (s : State) : State :=
  match s.headOf n 2 0x54 with
  | none => s
  | some i =>
    let c := s.cl n
    let w := i.word
    if w.toNat &&& (mask 50 32 + mask 28 0) != 0 then s.refuseHead n 2 i Code.CL_EE_OPERAND
    else if (c.q (eQI w 0)).entries.isEmpty then s
    else
      let d := (c.q (eQI w 0)).head
      match firstCode [(14 ≤ dFmt d, Code.CL_EE_FORMAT),
        ((eeShape d).isNone || dBytes d < 256, Code.CL_EE_SHAPE)] with
      | some code => s.refuseHead n 2 i code
      | none =>
        let s := { s with mem := memWrL s.mem (wickKey n (eProg w * 256)) (s.font n (dAddr d) 256) }
        s.modCl n (fun c => { (c.dequeue 2).setQ (eQI w 0) (c.q (eQI w 0)).pop with wdog := 0 })

/-- `WLOAD` (R173). -/
def execWload (n : Nat) (s : State) : Out := onCluster n s (wloadStep n)

/-- `EE_COMMIT`: the oldest executed EE instruction writes its output into the next slot of `QO`, pushes it and adds its
counts (R192, R239, R240); it waits while that slot is occupied. -/
def eeCommitStep (n : Nat) (s : State) : State :=
  if s.running n then
    match (s.cl n).eePend with
    | [] => s
    | p :: r =>
      match p.out with
      | none => (s.modCl n (fun c => { c with eePend := r, wdog := 0 })).addCounts n p.seq p.counts
      | some (qo, d, bytes) =>
        if !((s.cl n).q qo).room 1 then s
        else
          let s := s.pushTile n qo bytes (fun a => wd (d.toNat + a))
          let s := s.modCl n (fun c => { c with eePend := r, wdog := 0 })
          (s.bump (clReg n 0x3008) 0 48 1).addCounts n p.seq p.counts
  else s

/-- `EE_COMMIT` (R192). -/
def execEeCommit (n : Nat) (s : State) : Out := onCluster n s (eeCommitStep n)

/-- Whether the side reduction unit can start its next instruction: `SRCLR` and `SREAD` execute in their own order, so
it waits while an `SREAD` has not completed (R201). -/
def Cluster.sruFree (c : Cluster) : Bool := c.reads.isEmpty

/-- `SRCLR` (R194, R197, R201): empties a set and opens its interval (R200). -/
def srclrStep (n : Nat) (s : State) : State :=
  match s.headOf n 3 0x58 with
  | none => s
  | some i =>
    let w := i.word
    if !(s.cl n).sruFree then s
    else if w.toNat &&& (mask 55 52 + mask 49 0) != 0 then s.refuseHead n 3 i Code.CL_SRU_OPERAND
    else
      let j := fld w 50 2
      s.modCl n (fun c =>
        let z := c.sets.get StatSet.empty j
        { c.dequeue 3 with
          sets := c.sets.set j { StatSet.empty with feeds := z.feeds.filter (fun f => i.seq < f.seq), since := i.seq }
          wdog := 0 })

/-- `SRCLR` (R194). -/
def execSrclr (n : Nat) (s : State) : Out := onCluster n s (srclrStep n)

/-- `SREAD` (R197 to R201): its checks and its start; `SREAD_COMPLETE` writes the summary register. The control core
marked the register not valid at issue (R198). -/
def sreadStep (n : Nat) (s : State) : State :=
  match s.headOf n 3 0x59 with
  | none => s
  | some i =>
    let w := i.word
    if !(s.cl n).sruFree then s
    else
      match firstCode [(w.toNat &&& mask 44 0 != 0, Code.CL_SRU_OPERAND), (0x0E < fld w 45 5, Code.CL_SRU_STAT)] with
      | some code => s.refuseHead n 3 i code
      | none => s.modCl n (fun c => { c.dequeue 3 with reads := c.reads ++ [i], wdog := 0 })

/-- `SREAD` (R198). -/
def execSread (n : Nat) (s : State) : Out := onCluster n s (sreadStep n)

/-- A count code of an `SREAD`: 0x09 to 0x0D (R200). -/
def isCountCode (k : Nat) : Bool := 9 ≤ k && k ≤ 13

/-- An ME instruction that carries counts: an `MMA` with `LAST`, or an `MDROP` (R200). -/
def meCounts (w : Word) : Bool := (opOf w == 0x40 && mLast w) || opOf w == 0x43

/-- Whether an instruction that an `SREAD` depends on has not committed (R200, R201; DEDUCED, log 8). -/
def Cluster.readWaits (c : Cluster) (r : Issued) : Bool :=
  let k := fld r.word 45 5
  let z := c.sets.get StatSet.empty (fld r.word 50 2)
  let inI := fun (q : Nat) => z.since < q && q < r.seq
  if isCountCode k then
    c.meQ.any (fun i => inI i.seq && meCounts i.word)
      || [c.bank0, c.bank1].any (fun b => match b with
          | some ch => (match ch.last with | some i => inI i.seq | none => false)
          | none => false)
      || c.eeQ.any (fun i => inI i.seq && opOf i.word < 0x58) || c.eePend.any (fun p => inI p.seq)
      || c.dmQ.any (fun i => inI i.seq && opOf i.word < 0x70) || c.dm.any (fun d => inI d.ins.seq)
  else c.eeQ.any (fun i => inI i.seq && opOf i.word == 0x50) || c.eePend.any (fun p => p.wick && inI p.seq)

/-- `SREAD_COMPLETE`: writes the summary and marks the register valid (R198 to R201). -/
def sreadCompleteStep (n : Nat) (s : State) : State :=
  if s.running n then
    let c := s.cl n
    match c.reads with
    | [] => s
    | r :: rest =>
      if c.readWaits r then s
      else
        let j := fld r.word 50 2
        let u := fld r.word 52 4
        let z := (c.sets.get StatSet.empty j).fold r.seq
        let v := statValue z (countsBetween c.log z.since r.seq) (fld r.word 45 5)
        s.modCl n (fun c =>
          { c with
            sets := c.sets.set j z, u := c.u.set u v
            uValid := if c.uValid.contains u then c.uValid else c.uValid ++ [u]
            reads := rest, wdog := 0 })
  else s

/-- `SREAD_COMPLETE` (R201). -/
def execSreadComplete (n : Nat) (s : State) : Out := onCluster n s (sreadCompleteStep n)

end Sys2Proof.Machine
end

