-- ==== Sys2Proof/Machine/DataMover.lean ====
section
/-! DEFINITION. The commands of the data mover (R227, R256 to R262): an instruction starts after its checks, reads remote
bytes from its start on, and does its local accesses, its remote writes and its push as it completes. -/

namespace Sys2Proof.Machine

/-- An instruction leaves the issue queue and is in progress (R226, R262). -/
def State.moverStart (s : State) (n : Nat) (i : Issued) (desc : Word) (rows : List (Word × List Byte)) (k : Counts)
    (reads : List (Word × Nat)) : State :=
  let id := (s.cl n).dmNext
  let (s, rem) := s.moverReads n id reads
  s.modCl n (fun c =>
    { c.dequeue 4 with dmNext := id + 1, dm := c.dm ++ [⟨id, i, desc, rows, k, rem, [], [], false, []⟩], wdog := 0 })

/-- `DLOAD` starts: it reserves the next slot of its queue (R239, R257). -/
def dloadStep (n : Nat) (s : State) : State :=
  match s.headOf n 4 0x60 with
  | none => s
  | some i =>
    let w := i.word
    match s.dloadCheck n i with
    | some code => s.refuseHead n 4 i code
    | none =>
      let rows := rowRanges (nth i.ops 0 0) (nth i.ops 0 1) (xRows w) (rowBytes (xFmt w) (xCols w))
      if s.moverWaits n rows [s.slotRange n (s.cl n).dmNext w] ∨ !((s.cl n).q (xQ w)).room 1 then s
      else
        let s := s.moverStart n i 0 [] Counts.none rows
        s.modCl n (fun c => let q := c.q (xQ w); c.setQ (xQ w) { q with reserved := q.reserved + 1 })

/-- DLOAD (R257). -/
def execDload (n : Nat) (s : State) : Out := onCluster n s (dloadStep n)

/-- `DSTORE` starts: it pops its tile, converts it and releases the entry (R239, R258). -/
def dstoreStep (n : Nat) (s : State) : State :=
  match s.headOf n 4 0x61 with
  | none => s
  | some i =>
    let w := i.word
    if w.toNat &&& xReserved 0x61 ≠ 0 then s.refuseHead n 4 i Code.CL_DM_OPERAND
    else
      let q := (s.cl n).q (xQ w)
      if q.entries.isEmpty then s
      else
        let d := q.head
        match s.dstoreCheck i d with
        | some code => s.refuseHead n 4 i code
        | none =>
          let ranges := rowRanges (nth i.ops 0 0) (nth i.ops 0 1) (dRows d) (rowBytes (xFo w) (dCols d))
          if s.moverWaits n [s.fontRange n (dAddr d) (dBytes d)] ranges then s
          else
            let (codes, k) := moveTile (dFmt d) (xFo w) (s.tile n d)
            let rows := (ranges.zip codes).map (fun p => (p.1.1, packRow (xFo w) p.2))
            (s.moverStart n i d rows k []).modCl n (fun c => c.setQ (xQ w) (c.q (xQ w)).pop)

/-- DSTORE (R258). -/
def execDstore (n : Nat) (s : State) : Out := onCluster n s (dstoreStep n)

/-- `DCOPY` starts (R259); a count of 0 completes at once. -/
def dcopyStep (n : Nat) (s : State) : State :=
  match s.headOf n 4 0x62 with
  | none => s
  | some i =>
    match s.dcopyCheck i with
    | some code => s.refuseHead n 4 i code
    | none =>
      let a := nth i.ops 0 0
      let b := nth i.ops 0 1
      let k := (nth i.ops 0 2).toNat
      if k = 0 then s.modCl n (fun c => { c.dequeue 4 with wdog := 0 })
      else if s.moverWaits n [(a, k)] [(b, k)] then s
      else s.moverStart n i 0 [] Counts.none [(a, k)]

/-- DCOPY (R259). -/
def execDcopy (n : Nat) (s : State) : Out := onCluster n s (dcopyStep n)

/-- A `DLOAD` whose bytes are all there converts, writes its slot and pushes (R227, R240, R257). -/
def State.dloadPush (s : State) (n : Nat) (o : DmOp) (rows : List (List Byte)) : State :=
  let w := o.ins.word
  let fo := xFo w
  let (codes, k) := moveTile (xFmt w) fo (rows.map (unpackRow (xFmt w) (xCols w)))
  let bytes := packTile fo codes
  let nan := decide (0 < k.nans) || codes.flatten.any (codeNan fo)
  let s := s.dropDm n o
  let s := s.pushTile n (xQ w) bytes (fun a => mkDesc fo (xRows w) (xCols w) a false (decide (0 < k.clips)) nan false)
  (s.addCounts n o.ins.seq k).moverCount n bytes.length

/-- The local writes of an instruction go on; once all are stored and nothing is outstanding it completes (R227, R258, R259,
R261). -/
def State.moverPut (s : State) (n id : Nat) : State :=
  match (s.cl n).dmOp id with
  | none => s
  | some o =>
    match s.put (s.moverReq n) (fun a len => .dm n id (mkAddr s.pkg a.toNat) len) o.put 0 0 with
    | (s, r) =>
      let s := s.moverCount n r.sent
      match r.code with
      | some code => s.moverFail n o false code
      | none =>
        if r.rest.isEmpty ∧ o.rem + r.held = 0 then (s.dropDm n o).addCounts n o.ins.seq o.counts
        else s.modDm n id (fun o => { o with put := r.rest, rem := o.rem + r.held })

/-- The writes of a `DSTORE` or `DCOPY` start: local rows as a stream, remote rows as `WRITE` requests (R227, R258, R259). -/
def State.moverWrite (s : State) (n id : Nat) (rows : List (Word × List Byte)) : State :=
  let here := (rows.filter (fun r => s.isLocal r.1)).map (fun r => (wd (addrLocal r.1), r.2))
  let (s, k) := s.moverWrites n id rows
  (s.modDm n id (fun o => { o with rem := k, writing := true, put := putPieces here })).moverPut n id

/-- The reads of an instruction in progress go on: `f` takes the rows once all have come (R257, R259, R261). -/
def State.moverRead (s : State) (n : Nat) (o : DmOp) (f : State → List (List Byte) → State) : State :=
  match s.moverGather n o.got (s.dmRanges n o).1 o.loc [] with
  | (s, _, .done _, rows) => f s rows
  | (s, _, .refused c, _) => s.moverFail n o false c
  | (s, loc, _, _) => s.modDm n o.id (fun o => { o with loc := loc })

/-- An instruction in progress moves on: its local reads and its writes, and once nothing is outstanding it completes; `DLOAD`s
of one queue push in their order (R227, R238). -/
def dmCompleteStep (n id : Nat) (s : State) : State :=
  match (s.cl n).dmOp id with
  | none => s
  | some o =>
    let w := o.ins.word
    if 0 < o.rem then s
    else if o.writing then s.moverPut n id
    else if opOf w = 0x60 then
      if (s.cl n).loadsBefore (xQ w) id ≠ 0 then s else s.moverRead n o (fun s rows => s.dloadPush n o rows)
    else if opOf w = 0x61 then s.moverWrite n id o.rows
    else s.moverRead n o (fun s rows => s.moverWrite n id [(nth o.ins.ops 0 1, rows.flatten)])

/-- DM_COMPLETE (R227). -/
def execDmComplete (n i : Nat) (s : State) : Out := onCluster n s (fun s => if s.running n then dmCompleteStep n i s else s)

end Sys2Proof.Machine
end

