-- ==== Sys2Proof/Machine/DebugOps.lean ====
section
/-! DEFINITION. What the JTAG port does (R745, R746, R667), and the refill of the activity budgets (R733). -/

namespace Sys2Proof.Machine

/-! ## JTAG (R745, R746) -/

/-- A number as bits, least significant first. -/
def bitsOf : Nat → Nat → List Bool
  | 0, _ => []
  | n + 1, v => decide (v % 2 = 1) :: bitsOf n (v / 2)

/-- Bits as a number, least significant first. -/
def bitsNat : List Bool → Nat
  | [] => 0
  | b :: r => b2n b + 2 * bitsNat r

/-- `n` bits that the spec leaves open (log 33). -/
def State.openBits (s : State) : Nat → List Bool × State
  | 0 => ([], s)
  | n + 1 =>
    let (w, s) := s.openWord
    let (l, s) := State.openBits s n
    (bit w 0 :: l, s)

/-- The data register of the port after an instruction. -/
def State.tapOut (s : State) (l : List Bool) : State := { s with jtag := { s.jtag with out := l } }

/-- A refusal of the bridge (R746). -/
def State.tapCode (s : State) (c : BitVec 16) : State := { s with jtag := { s.jtag with code := c } }

/-- Debug read-out is unlocked: the package was so when it froze, or is so now (R667, R745). -/
def State.unlocked (s : State) : Bool := if s.power.frozen then s.power.frozenDebug else s.debug

/-- A bit of `SEC_STATUS.SCOPE` (R668, R679). -/
def State.scope (s : State) (i : Nat) : Bool := bit (s.reg secStatus) (16 + i)

/-- `IDCODE` (R745). -/
def State.idcode (s : State) : List Bool :=
  bitsOf 32 (s.part.stepDigit.toNat * 2 ^ 28 + 0x0008 * 2 ^ 12 + Config.jep106.toNat * 2 + 1)

/-- `SCAN_DR`: the selected chain, which reads zero on a locked package (R667, R746). -/
def State.scanOut (s : State) (n : Nat) : State :=
  if s.unlocked && s.scope 0 then
    let (l, s) := s.openBits n
    s.tapOut l
  else s.tapOut (List.replicate n false)

/-- How the bridge reaches memory: class 13, tag 0 (R459, R746; log 52). -/
abbrev bridgeReq : Req := ⟨13, 5, 0, false, 9⟩

/-- An access of the bridge to the unit at a local address: of a running package as any request, of a frozen one by the controller
that the bridge runs, whose regulators stand still (R475, R746). -/
def State.bridgeAccess (s : State) (wr : Bool) (a : Nat) (data : List Byte) : State × MemRes :=
  let (k, off) := s.mapAddr a
  if !s.power.frozen then
    if wr then
      match s.hbmWrite bridgeReq a data .none with
      | (s, .wait) => (s, .wait)
      | (s, .refused c) => (s, .refused c)
      | (s, .done _) => (s, .done [])
    else s.hbmRead bridgeReq a 64
  else
    match s.tagCheck 13 0 a k with
    | some c => s.mcRefused k c
    | none => if wr then (s.unitWrite k off a data, .done []) else s.readUnits k off a [(a, 0, 64)] []

/-- The bridge answers nothing but a code. -/
def State.tapNo (s : State) (bits : Nat) (c : BitVec 16) : State := (s.tapOut (List.replicate bits false)).tapCode c

/-- `MEM_DATA`: the bridge reads or writes the 64 B unit at `MEM_ADDR`, checked by R466 (R745, R746). -/
def State.bridgeUnit (s : State) (wr : Bool) (data : List Byte) : State :=
  let a := addrLocal s.jtag.addr / 64 * 64
  if !(s.unlocked && s.scope 1) then s.tapNo 512 Code.SEC_LOCKED
  else
    match s.region a with
    | .hbm _ =>
      match s.bridgeAccess wr a (padTo 64 data) with
      | (s, .done d) => (s.tapOut (bitsOf 512 (leNat d))).tapCode 0
      | (s, .refused c) => s.tapNo 512 c
      | (s, _) => s
    | _ => s.tapOut []

/-- Whether the bridge may reach a register (R668, R747): the memory bridge's scope, or that of solver-core halt for the halt
registers. -/
def State.bridgeMay (s : State) (b : Blk) (o : Nat) : Bool :=
  s.unlocked && (s.scope 1 || (b == .dbg && decide (0x200 ≤ o ∧ o ≤ 0x210) && s.scope 2))

/-- `REG_DATA`: the bridge reads or writes the register at `MEM_ADDR` (R745); a locked package refuses whatever it names (R667). -/
def State.bridgeReg (s : State) (wr : Bool) (v : Word) : State :=
  if !s.unlocked then s.tapNo 64 Code.SEC_LOCKED
  else
    match s.region (addrLocal s.jtag.addr / 8 * 8) with
    | .reg b i o =>
      if b = .sec || b = .bootBuf || b = .bootRom then s.tapOut []
      else if !s.bridgeMay b o then s.tapNo 64 Code.SEC_LOCKED
      else if wr then
        let (s, c) := s.regWrite false b i o v
        s.tapCode c
      else
        let (s, w) := s.regRead b i o
        (s.tapOut (bitsOf 64 w.toNat)).tapCode 0
    | _ => s.tapOut []

/-! ## Budgets (R626, R733) -/

/-- The level of activity a on resource r at a period start (R733); a level that its signed field cannot hold is open
(log 33). -/
def State.refill (s : State) (r a : Nat) : State :=
  let b : Int := s.budgetOf r a
  let v := min (sfld (s.reg (budgetReg r a)) 32 32 + b) b
  if s.budgetOf r a = 0xFFFFFFFF then s
  else if v < 2 ^ 31 then s.setRfld (budgetReg r a) 32 32 (v % 2 ^ 32).toNat
  else
    let (w, s) := s.openWord
    s.setRfld (budgetReg r a) 32 32 w.toNat

/-- A budget period begins (R486, R733). -/
def State.newPeriod (s : State) : State :=
  let s := (upTo 76).foldl (fun s r => (upTo 7).foldl (fun s a => s.refill r a) s) s
  { s with mcs := s.mcs.map (fun x => (x.1, { x.2 with overs := [] })) }

end Sys2Proof.Machine
end

