-- ==== Sys2Proof/Machine/Debug.lean ====
section
/-! DEFINITION. The commands of error handling and debug (R724 to R751): self-tests, the warning window, budgets, job
mapping, the freeze pin, JTAG, and halting solver cores; the registers with a behaviour of their own, and plain reads and
writes of registers (R7, R203, R722, R810). -/

namespace Sys2Proof.Machine

/-! ## Tests, warnings, budgets, mapping -/

/-- `SELF_TEST` (R724, R725). -/
def execSelfTest (i : Nat) (s : State) : Out := onPackage s (fun s => s.startTest i)

/-- `SELF_TEST_DONE` (R726, R727). -/
def execSelfTestDone (i : Nat) (lasting : Bool) (s : State) : Out := onPackage s (fun s => s.endTest i lasting)

/-- `WARNING_WINDOW`: every count starts again (R730). -/
def warningWindowStep (s : State) : State := { s with err := { s.err with warns := [] } }

/-- `WARNING_WINDOW`. -/
def execWarningWindow (s : State) : Out := onPackage s warningWindowStep

/-- `BUDGET_PERIOD` (R733). -/
def execBudgetPeriod (s : State) : Out := onPackage s State.newPeriod

/-- `JOB_MAPPING` (R727 to R729). -/
def execJobMapping (s : State) : Out := onPackage s State.jobMapping

/-! ## Freeze (R743) -/

/-- `SNUFF_N`. -/
def execSnuffN (s : State) : Out := onPackage s State.freeze

/-! ## JTAG (R745, R746) -/

/-- A JTAG instruction: the port answers a powered package that is not held in reset, frozen or not. While the package is
frozen no record is written (R744). -/
def onTap (s : State) (f : State → State) : Out :=
  if s.power.powered && !s.power.pinReset then
    let t := f s
    if t.alive then .next (s.leave t.settle) else .next (s.leave { t with err := { t.err with fresh := [] } })
  else .next s

/-- `EXTEST`: the boundary register drives the pins, and what the pins showed is shifted out. -/
def extestStep (bits : List Bool) (s : State) : State :=
  let (l, s) := s.openBits bits.length
  { s with jtag := { s.jtag with pins := bits, out := l } }

/-- `EXTEST`. -/
def execExtest (bits : List Bool) (s : State) : Out := onTap s (extestStep bits)

/-- `SAMPLE_PRELOAD`: the pins are sampled and the boundary register is loaded. -/
def samplePreloadStep (bits : List Bool) (s : State) : State :=
  let (l, s) := s.openBits bits.length
  { s with jtag := { s.jtag with pre := bits, out := l } }

/-- `SAMPLE_PRELOAD`. -/
def execSamplePreload (bits : List Bool) (s : State) : Out := onTap s (samplePreloadStep bits)

/-- `IDCODE`. -/
def execIdcode (s : State) : Out := onTap s (fun s => s.tapOut s.idcode)

/-- `SCAN_SEL`. -/
def execScanSel (v : Byte) (s : State) : Out := onTap s (fun s => { s with jtag := { s.jtag with sel := v } })

/-- `SCAN_DR`. -/
def execScanDr (bits : List Bool) (s : State) : Out := onTap s (fun s => s.scanOut bits.length)

/-- `MEM_ADDR`. -/
def execMemAddr (a : Word) (s : State) : Out := onTap s (fun s => { s with jtag := { s.jtag with addr := a } })

/-- `MEM_DATA`. -/
def execMemData (wr : Bool) (data : List Byte) (s : State) : Out := onTap s (fun s => s.bridgeUnit wr data)

/-- `REG_DATA`. -/
def execRegData (wr : Bool) (v : Word) (s : State) : Out := onTap s (fun s => s.bridgeReg wr v)

/-- `BYPASS`: the one-bit register captures 0, which is shifted out first. -/
def bypassStep (_bit : Bool) (s : State) : State := s.tapOut [false]

/-- `BYPASS`. -/
def execBypass (bit : Bool) (s : State) : Out := onTap s (bypassStep bit)

/-! ## Halting solver cores (R747, R751) -/

/-- A write of `DBG_SCCTL` that names core c with the bits of an action and leaves the selected register number. -/
def State.scctl (s : State) (c act : Nat) : State :=
  (s.regWrite true .dbg 0 0x200 (wd (s.rfld (regAt .dbg 0 0x200) 16 8 * 2 ^ 16 + act + c % 128))).1

/-- `DBG_HALT`. -/
def execDbgHalt (c : Nat) (s : State) : Out := onCore c s (fun s => s.scctl c 0x100)

/-- `DBG_RESUME`. -/
def execDbgResume (c : Nat) (s : State) : Out := onCore c s (fun s => s.scctl c 0x200)

/-- `DBG_STEP`. -/
def execDbgStep (c : Nat) (s : State) : Out := onCore c s (fun s => s.scctl c 0x400)

/-- `DBG_SCREG_WRITE`. -/
def execDbgScregWrite (v : Word) (s : State) : Out := onPackage s (fun s => (s.regWrite true .dbg 0 0x210 v).1)

/-- `DBG_RING_BASE_WRITE` (R722, R750). -/
def execDbgRingBaseWrite (d : Nat) (v : Word) (s : State) : Out :=
  onDie d s (fun s => (s.regWrite true .dbg 0 (0x100 + 0x20 * d) v).1)

/-! ## Registers (R7, R203, R810) -/

/-- `WICK_MEMORY_WRITE`: word `off` of the wick memory of cluster n (R203). -/
def execWickMemoryWrite (n off : Nat) (v : Word) (s : State) : Out :=
  onCluster n s (fun s => if off % 8 = 0 && decide (off < 0x800) then (s.regWrite true .cl n (0x4000 + off) v).1 else s)

/-- `RC_READ`: a read of the register at a local address (R7). -/
def rcReadStep (addr : Word) (s : State) : State :=
  match s.region addr.toNat with
  | .reg b i o => if o % 8 = 0 then (s.regRead b i o).1 else s
  | _ => s

/-- `RC_READ`. -/
def execRcRead (addr : Word) (s : State) : Out := onPackage s (rcReadStep addr)

/-- `REGISTER_WRITE`: a write of the register at a local address by firmware (R7 to R10, R810). -/
def registerWriteStep (addr val : Word) (s : State) : State :=
  match s.region addr.toNat with
  | .reg b i o => if o % 8 = 0 then (s.regWrite true b i o val).1 else s
  | _ => s

/-- `REGISTER_WRITE`. -/
def execRegisterWrite (addr val : Word) (s : State) : Out := onPackage s (registerWriteStep addr val)

end Sys2Proof.Machine
end

