-- ==== Sys2Proof/Machine/Fabric.lean ====
section
/-! DEFINITION. The commands of the fabric: re-sends, requests that arrive, responses, the home agents, and the coherence
messages of the valley (R509 to R516, R526 to R546). -/

namespace Sys2Proof.Machine

/-! ## Sources (R514, R515) -/

/-- `RESEND_TIMEOUT`: 20 µs have passed since the last send of a request without a response (R514). -/
def resendTimeoutStep (seq : Nat) (s : State) : State :=
  match s.reqs.find? (fun r => r.seq == seq) with
  | none => s
  | some r =>
    let now := s.now r.die
    let f := fdOf r.die
    if r.held || r.busyAt.isSome || decide (now.toNat < r.sentAt.toNat + 80000) then s
    else if 4 ≤ r.attempt then
      if hdrTracked r.frame.hdr then (s.bump (frReg f 0x28) 16 16 1).failReq r Code.FAB_ATOMIC_UNKNOWN
      else (s.bump (frReg f 0x28) 0 16 1).failReq r Code.FAB_TIMEOUT
    else
      let r : OutReq := { r with
        attempt := r.attempt + 1, sentAt := now
        frame := { r.frame with hdr := { r.frame.hdr with attempt := BitVec.ofNat 3 (r.attempt + 1) } } }
      ((s.modReq seq (fun _ => r)).bump (frReg f 0x28) 32 32 1).emitReq r

/-- `RESEND_TIMEOUT`. -/
def execResendTimeout (seq : Nat) (s : State) : Out := onPackage s (resendTimeoutStep seq)

/-- `BUSY_RETRY`: 2 µs after `FAB_BUSY` the source sends again, unless 1 ms has passed since the first send (R515). -/
def busyRetryStep (seq : Nat) (s : State) : State :=
  match s.reqs.find? (fun r => r.seq == seq) with
  | none => s
  | some r =>
    match r.busyAt with
    | none => s
    | some t =>
      let now := s.now r.die
      if now.toNat < t.toNat then s
      else if r.firstAt.toNat + 4000000 ≤ now.toNat then s.failReq r Code.FAB_BUSY
      else
        let r : OutReq := { r with busyAt := none, sentAt := now }
        (s.modReq seq (fun _ => r)).emitReq r

/-- `BUSY_RETRY`. -/
def execBusyRetry (seq : Nat) (s : State) : Out := onPackage s (busyRetryStep seq)

/-! ## Requests that arrive (R510, R511, R516, R526) -/

/-- `JONATH_READ`: a `READ`, or a frame with an opcode that no rule gives, which is answered with `FAB_FORMAT` (R510). -/
def jonathReadStep (f : Nat) (s : State) : State :=
  s.onFrame f (fun op => op == opREAD || !knownOp op) (fun s x d => s.homeRead f x.frame.hdr d)

/-- `JONATH_READ`. -/
def execJonathRead (f : Nat) (s : State) : Out := onFd f s (jonathReadStep f)

/-- `GET` (R511). -/
def getStep (f : Nat) (s : State) : State := s.onFrame f (· == opGET) (fun s x d => s.homeRead f x.frame.hdr d)

/-- `GET`. -/
def execGet (f : Nat) (s : State) : Out := onFd f s (getStep f)

/-- `JONATH_WRITE` (R511, R529, R539). -/
def jonathWriteStep (f : Nat) (s : State) : State := s.onFrame f (· == opWRITE) (fun s x d => s.homeWrite f x d)

/-- `JONATH_WRITE`. -/
def execJonathWrite (f : Nat) (s : State) : Out := onFd f s (jonathWriteStep f)

/-- A remote atomic that arrives: once it has passed R516 it goes to the home agent (R528, R542). -/
def State.homeAtomic (s : State) (f : Nat) (op : Byte) : State :=
  s.onFrame f (· == op) (fun s x d =>
    match s.homeCheck f x.frame.hdr d with
    | some c => (s.answerReq f x.frame.hdr opRESP c [], false)
    | none => (s.haArrive f x d, false))

/-- `JONATH_AADD` (R528). -/
def execJonathAadd (f : Nat) (s : State) : Out := onFd f s (fun s => s.homeAtomic f 0x10)
/-- `JONATH_AFADD` (R528). -/
def execJonathAfadd (f : Nat) (s : State) : Out := onFd f s (fun s => s.homeAtomic f 0x11)
/-- `JONATH_AMAX` (R528). -/
def execJonathAmax (f : Nat) (s : State) : Out := onFd f s (fun s => s.homeAtomic f 0x12)
/-- `JONATH_AMIN` (R528). -/
def execJonathAmin (f : Nat) (s : State) : Out := onFd f s (fun s => s.homeAtomic f 0x13)
/-- `JONATH_ASWAP` (R528). -/
def execJonathAswap (f : Nat) (s : State) : Out := onFd f s (fun s => s.homeAtomic f 0x14)
/-- `JONATH_ACAS` (R528). -/
def execJonathAcas (f : Nat) (s : State) : Out := onFd f s (fun s => s.homeAtomic f 0x15)

/-! ## Responses (R511, R515) -/

/-- A final response reaches its request: the request is no longer outstanding, and its owner learns the outcome (R511,
R543). A response that no request waits for is dropped. -/
def State.takeResponse (s : State) (h : JHdr) (code : BitVec 16) (data : List Byte) : State :=
  match s.reqFor h with
  | none => s
  | some r => (s.closeReq r false).finish r.owner code data

/-- `JONATH_RESP` (R511). -/
def jonathRespStep (f : Nat) (s : State) : State :=
  s.onFrame f (· == opRESP) (fun s x d => (s.takeResponse x.frame.hdr x.frame.hdr.code d, false))

/-- `JONATH_RESP`. -/
def execJonathResp (f : Nat) (s : State) : Out := onFd f s (jonathRespStep f)

/-- `NAK` (R515): `FAB_PENDING` restarts the timer, `FAB_BUSY` asks for the request again 2 µs later. -/
def nakStep (f : Nat) (s : State) : State :=
  s.onFrame f (· == opNAK) (fun s x _ =>
    match s.reqFor x.frame.hdr with
    | none => (s, false)
    | some r =>
      let now := s.now r.die
      if x.frame.hdr.code = Code.FAB_PENDING then (s.modReq r.seq (fun r => { r with sentAt := now, busyAt := none }), false)
      else if x.frame.hdr.code = Code.FAB_BUSY then (s.modReq r.seq (fun r => { r with busyAt := some (now + 8000) }), false)
      else (s, false))

/-- `NAK`. -/
def execNak (f : Nat) (s : State) : Out := onFd f s (nakStep f)

/-- How a source writes the data of a `GET` into its own memory: only snapshot engines send `GET` (R643), so class 5 and
the activity and tenant of the request. -/
def getReq (r : OutReq) : Req := ⟨5, r.frame.hdr.act.toNat, r.frame.hdr.tenant, false, r.die⟩

/-- `GETDATA`: the source writes the data into its own memory, and counts the `GET` complete (R511). -/
def getdataStep (f : Nat) (s : State) : State :=
  s.onFrame f (· == opGETDATA) (fun s x d =>
    match s.reqFor x.frame.hdr with
    | none => (s, false)
    | some r =>
      match s.localWrite (getReq r) x.frame.hdr.daddr.toNat d .none with
      | (s, some (.done _)) => ((s.closeReq r false).finish r.owner 0 d, false)
      | (s, some (.refused c)) => ((s.closeReq r false).finish r.owner c [], false)
      | (s, some .wait) => (s, true)
      | (s, none) => ((s.closeReq r false).finish r.owner Code.FAB_UNREACHABLE [], false))

/-- `GETDATA`. -/
def execGetdata (f : Nat) (s : State) : Out := onFd f s (getdataStep f)

/-! ## Home agents (R544, R545) -/

/-- `HA_APPLY`: the home agent of FD f applies the next tracked request of its queue (R544). -/
def haApplyStep (f : Nat) (s : State) : State := s.haApply f [] (s.fr f).haQ

/-- `HA_APPLY`. -/
def execHaApply (f : Nat) (s : State) : Out := onFd f s (haApplyStep f)

/-! ## The valley (R536 to R538) -/

/-- A tracked line request arrives at the home: once it has passed its checks it goes to the home agent (R537, R542). -/
def State.homeCoherent (s : State) (f : Nat) (op : Byte) : State :=
  s.onFrame f (· == op) (fun s x d =>
    match s.lineCheck x.frame.hdr d with
    | some c => (s.answerReq f x.frame.hdr opRESP c [], false)
    | none => (s.haArrive f x d, false))

/-- `CRD` (R536, R537). -/
def execCrd (f : Nat) (s : State) : Out := onFd f s (fun s => s.homeCoherent f opCRD)
/-- `CRDX` (R536, R537). -/
def execCrdx (f : Nat) (s : State) : Out := onFd f s (fun s => s.homeCoherent f opCRDX)
/-- `CUPG` (R536, R537). -/
def execCupg (f : Nat) (s : State) : Out := onFd f s (fun s => s.homeCoherent f opCUPG)
/-- `CWB` (R536, R537). -/
def execCwb (f : Nat) (s : State) : Out := onFd f s (fun s => s.homeCoherent f opCWB)

/-- `CEVICT`: the twin has dropped a clean copy (R536). -/
def cevictStep (f : Nat) (s : State) : State :=
  s.onFrame f (· == opCEVICT) (fun s x d =>
    let h := x.frame.hdr
    match s.lineCheck h d with
    | some c => (s.answerReq f h opRESP c [], false)
    | none => (({ s with dir := s.dir.drop h.daddr.toNat } : State).answerReq f h opRESP 0 [], false))

/-- `CEVICT`. -/
def execCevict (f : Nat) (s : State) : Out := onFd f s (cevictStep f)

/-- A message of the home for a line that this package may hold, and the line if it does: the format has to be right and
the home the twin (R516, R536). -/
def State.holderCheck (s : State) (h : JHdr) : Option (BitVec 16) :=
  if h.res ≠ 0 ∨ h.act = 7 ∨ h.tc ≠ 5 ∨ h.spkg.toNat ≠ s.twin ∨ h.daddr.toNat % 128 ≠ 0 then some Code.FAB_FORMAT else none

/-- `CINV`: the copy is invalidated, and the holder answers (R536). -/
def cinvStep (f : Nat) (s : State) : State :=
  s.onFrame f (· == opCINV) (fun s x _ =>
    let h := x.frame.hdr
    match s.holderCheck h with
    | some c => (s.answerReq f h opRESP c [], false)
    | none => (({ s with lines := s.lines.drop h.daddr.toNat } : State).answerReq f h opRESP 0 [], false))

/-- `CINV`. -/
def execCinv (f : Nat) (s : State) : Out := onFd f s (cinvStep f)

/-- `CFWD`: the holder returns the line and drops to shared or invalid (R536); one that holds no copy answers without data
(log 40). -/
def cfwdStep (f : Nat) (s : State) : State :=
  s.onFrame f (· == opCFWD) (fun s x _ =>
    let h := x.frame.hdr
    let a := h.daddr.toNat
    match s.holderCheck h with
    | some c => (s.answerReq f h opRESP c [], false)
    | none =>
      match s.lines.find a with
      | none => (s.answerReq f h opRESP 0 [], false)
      | some l =>
        let s : State := { s with lines := if h.arg = 0 then s.lines.set a { l with excl := false, dirty := false } else s.lines.drop a }
        (s.answerReq f h opCDATA 0 l.data, false))

/-- `CFWD`. -/
def execCfwd (f : Nat) (s : State) : Out := onFd f s (cfwdStep f)

/-- The data of a line that the home has asked back are written through, also where copy-on-write is armed (R536, R636). -/
def State.recallWrite (s : State) (f : Nat) (h : JHdr) (data : List Byte) : State × Bool :=
  match s.reqFor h with
  | some ⟨_, _, _, .recall a _, _, _, _, _, _⟩ =>
    if data.length = 128 then
      let (k, off) := s.mapAddr a.toNat
      match s.pageStore (homeReq f h) k off a.toNat data with
      | (s, .wait) => (s, true)
      | (s, _) => (s, false)
    else (s, false)
  | _ => (s, false)

/-- `CDATA`: the line that a request of this package asked for (R536). -/
def cdataStep (f : Nat) (s : State) : State :=
  s.onFrame f (· == opCDATA) (fun s x d =>
    match s.recallWrite f x.frame.hdr d with
    | (s, true) => (s, true)
    | (s, false) => (s.takeResponse x.frame.hdr x.frame.hdr.code d, false))

/-- `CDATA`. -/
def execCdata (f : Nat) (s : State) : Out := onFd f s (cdataStep f)

end Sys2Proof.Machine
end

