-- ==== Sys2Proof/Machine/Host.lean ====
section
/-! DEFINITION. The commands of the SEC block and of the host ports (R650 to R716): attestation, Buwen messages, sessions and
their timers, control frames, and the management requests of other packages. -/

namespace Sys2Proof.Machine

/-- A command on host port f. -/
abbrev onHost (f : Nat) (s : State) (g : State → State) : Out := onUnit (decide (f < 2)) s g

/-! ## Attestation and security (R655 to R671, R700) -/

/-- `ATTEST_REPORT`: a report signed with a fresh KX key (R658, R659). -/
def execAttestReport (h : BHdr) (nonce : List Byte) (s : State) : Out := onHost h.port s (State.bwArrive h (.report nonce))

/-- `ATTEST_KEYPKG`: a tenant key package (R660 to R662). -/
def execAttestKeypkg (h : BHdr) (pkg : List Byte) (s : State) : Out := onHost h.port s (State.bwArrive h (.keypkg pkg))

/-- `ATTEST_NONCE`: the unlock nonce (R669, R700). -/
def execAttestNonce (h : BHdr) (s : State) : Out := onHost h.port s (State.bwArrive h .nonce)

/-- `ATTEST_TOKEN`: a debug token (R668 to R670). -/
def execAttestToken (h : BHdr) (tok : List Byte) (s : State) : Out := onHost h.port s (State.bwArrive h (.token tok))

/-- `SEC_SVN_ADVANCE`: a write of `SEC_SVN.ADVANCE` by firmware (R655). -/
def execSecSvnAdvance (s : State) : Out := onPackage s (fun s => (s.regWrite true .sec 0 0x08 0x100).1)

/-! ## Buwen (R685 to R708) -/

/-- `BUWEN_ACK` (R689). -/
def execBuwenAck (h : BHdr) (s : State) : Out := onHost h.port s (State.bwArrive h .ack)

/-- `HELLO` (R696 to R698). -/
def execHello (h : BHdr) (body : List Byte) (s : State) : Out := onHost h.port s (State.helloArrive h body)

/-- `LAUNCH_LIST` (R702). -/
def execLaunchList (h : BHdr) (pd : Nat) (list start record tag : Word) (s : State) : Out :=
  onHost h.port s (State.bwArrive h (.list pd list start record tag))

/-- A message of a `LAUNCH` whose `PD` has to be 0 (R702). -/
def onlyPd0 (pd : Nat) (boot : Bool) (m : BwMsg) : BwMsg := if pd = 0 then m else .badPd boot

/-- `LAUNCH_JOB_START` (R619). -/
def execLaunchJobStart (h : BHdr) (pd : Nat) (body : List Byte) (s : State) : Out :=
  onHost h.port s (State.bwArrive h (onlyPd0 pd false (.jobStart body)))

/-- `LAUNCH_TEARDOWN` (R625). -/
def execLaunchTeardown (h : BHdr) (pd : Nat) (job : BitVec 32) (pkg : BitVec 14) (s : State) : Out :=
  onHost h.port s (State.bwArrive h (onlyPd0 pd false (.teardown job pkg)))

/-- `LAUNCH_BOOT` (R708). -/
def execLaunchBoot (h : BHdr) (pd len : Nat) (s : State) : Out := onHost h.port s (State.bwArrive h (onlyPd0 pd true (.boot len)))

/-- `LAUNCH_RESET` (R702). -/
def execLaunchReset (h : BHdr) (pd : Nat) (pkg : BitVec 14) (s : State) : Out :=
  onHost h.port s (State.bwArrive h (onlyPd0 pd false (.reset pkg)))

/-- `LAUNCH_SNUFF` (R702). -/
def execLaunchSnuff (h : BHdr) (pd : Nat) (pkg : BitVec 14) (s : State) : Out :=
  onHost h.port s (State.bwArrive h (onlyPd0 pd false (.snuff pkg)))

/-- `BUWEN_WRITE` (R701). -/
def execBuwenWrite (h : BHdr) (addr : Word) (data : List Byte) (s : State) : Out :=
  onHost h.port s (State.bwArrive h (.write addr data))

/-- `BUWEN_READ` (R701). -/
def execBuwenRead (h : BHdr) (addr : Word) (len : Nat) (s : State) : Out := onHost h.port s (State.bwArrive h (.read addr len))

/-- `BUWEN_REG_WRITE` (R703). -/
def execBuwenRegWrite (h : BHdr) (addr val : Word) (s : State) : Out :=
  onHost h.port s (State.bwArrive h (.regWrite addr val))

/-- `BUWEN_REG_READ` (R703). -/
def execBuwenRegRead (h : BHdr) (addr : Word) (s : State) : Out := onHost h.port s (State.bwArrive h (.regRead addr))

/-- `BUWEN_RTO` (R689). -/
def execBuwenRto (f sess : Nat) (s : State) : Out := onHost f s (State.bwRto f sess)

/-- `ACK_TIMER` (R689). -/
def execAckTimer (f sess : Nat) (s : State) : Out := onHost f s (State.bwAckTimer f sess)

/-- `SESSION_IDLE` (R698). -/
def execSessionIdle (f sess : Nat) (s : State) : Out := onHost f s (State.bwIdle f sess)

/-- `ANNOUNCE` (R694). -/
def execAnnounce (f : Nat) (s : State) : Out := onHost f s (State.bwAnnounce f)

/-! ## The port (R682, R684, R713, R716) -/

/-- `PFC_PAUSE` (R684). -/
def execPfcPause (f prio : Nat) (on : Bool) (s : State) : Out := onHost f s (State.pfc f prio on)

/-- `HOST_CONTROL_FRAME` (R682). -/
def execHostControlFrame (f : Nat) (x : CtlFrame) (s : State) : Out := onHost f s (State.ctlFrame f x)

/-- `HOST_LINK_UP` (R713). -/
def execHostLinkUp (f : Nat) (s : State) : Out := onHost f s (fun s => s.setRfld (regAt .he f 0) 0 2 2)

/-- `HOST_LINK_DOWN` (R716). -/
def execHostLinkDown (f : Nat) (s : State) : Out := onHost f s (State.hostLeave f)

/-! ## Management requests (R709 to R711) -/

/-- `MREG_READ`: the answer carries the value. -/
def mregReadStep (f : Nat) (s : State) : State :=
  s.onMgmt f 0x70 true 8 (fun s h _ =>
    let (s, c, d) := s.opRead f h.daddr.toNat
    s.answerReq f h opRESP c d)

/-- `MREG_READ`. -/
def execMregRead (f : Nat) (s : State) : Out := onFd f s (mregReadStep f)

/-- `MREG_WRITE`. -/
def mregWriteStep (f : Nat) (s : State) : State :=
  s.onMgmt f 0x71 true 8 (fun s h d =>
    let (s, c) := s.opWrite f h.daddr.toNat (word64 d 0)
    s.answerReq f h opRESP c [])

/-- `MREG_WRITE`. -/
def execMregWrite (f : Nat) (s : State) : Out := onFd f s (mregWriteStep f)

/-- `MRESET`: the package resets once its answer has left. -/
def execMreset (f : Nat) (s : State) : Out := onFd f s (fun s => s.onMgmt f 0x72 false 0 (fun s h _ => s.afterAnswer f h false))

/-- `MTEAR`: a teardown under R625. -/
def mtearStep (f : Nat) (s : State) : State :=
  s.onMgmt f 0x73 false 4 (fun s h d =>
    let (s, c) := s.teardown (BitVec.ofNat 32 (bytesAt d 0 4)) none
    s.answerReq f h opRESP c [])

/-- `MTEAR`. -/
def execMtear (f : Nat) (s : State) : Out := onFd f s (mtearStep f)

/-- `SNUFF`: the package freezes once its answer has left (R743). -/
def execSnuff (f : Nat) (s : State) : Out := onFd f s (fun s => s.onMgmt f 0x7E false 0 (fun s h _ => s.afterAnswer f h true))

end Sys2Proof.Machine
end

