-- ==== Sys2Proof/Machine/Jobs.lean ====
section
/-! DEFINITION. The commands of the job agent and of the snapshot engines (R609 to R644). -/

namespace Sys2Proof.Machine

/-! ## Job messages (R611, R709) -/

/-- Check 3 of R516 for a job message: class, address 0, no argument, and the length of its payload. -/
def jobFormatOk (h : JHdr) (data : List Byte) (len : Nat) : Bool :=
  h.res == 0 && h.act != 7 && h.tc == 7 && h.daddr == 0 && h.arg == 0 && data.length == len

/-- A job message with an opcode and a payload of `len` bytes: what it does, and the code of its answer. -/
def State.onJobMsg (s : State) (f : Nat) (op : Byte) (len : Nat) (g : State → Nat → List Byte → State × BitVec 16) : State :=
  s.onFrame f (· == op) (fun s x d =>
    let h := x.frame.hdr
    if !jobFormatOk h d len then (s.answerReq f h opRESP Code.FAB_FORMAT [], false)
    else
      let (s, c) := g s h.spkg.toNat d
      (s.answerReq f h opRESP c [], false))

/-- `JSTART`: a start from package `sender` arrives, and its manifest is asked for with `JMREAD` (R614 to R616). -/
def jstartStep (f : Nat) (sender : BitVec 14) (s : State) : State :=
  match s.takeFrameP f (· == 0x74) with
  | some (x, _) => if x.frame.hdr.spkg = sender then s.onJobMsg f 0x74 128 (fun s p d => (s.jobStart p d, 0)) else s
  | none => s

/-- `JSTART`. -/
def execJstart (f : Nat) (sender : BitVec 14) (s : State) : Out := onFd f s (jstartStep f sender)

/-- `JACK`: a child's acknowledgement (R617, R618). -/
def jackStep (f : Nat) (s : State) : State := s.onJobMsg f 0x75 16 (fun s p d => (s.jobAck p d, 0))

/-- `JACK`. -/
def execJack (f : Nat) (s : State) : Out := onFd f s (jackStep f)

/-- `JACK_DEADLINE` (R618). -/
def jackDeadlineStep (s : State) : State := s.jobSilent

/-- `JACK_DEADLINE`. -/
def execJackDeadline (s : State) : Out := onPackage s jackDeadlineStep

/-- `JOB_DECISION` (R620). -/
def jobDecisionStep (s : State) : State := s.jobDecide

/-- `JOB_DECISION`. -/
def execJobDecision (s : State) : Out := onPackage s jobDecisionStep

/-- `JCANCEL` (R621). -/
def jcancelStep (f : Nat) (s : State) : State := s.onJobMsg f 0x76 8 (fun s _ d => s.jobCancel d)

/-- `JCANCEL`. -/
def execJcancel (f : Nat) (s : State) : Out := onFd f s (jcancelStep f)

/-- A member is still gathering `JACK` messages: it has not sent its own, or, at the root, has not decided (R618, R620). -/
def State.gathering (s : State) (r : JobRun) : Bool :=
  match r.parent with
  | some _ => !r.acked
  | none => !r.decided && decide (s.now 4 < r.ta)

/-- Whether a member answers a `JMREAD` (R615); the end of the copy counts in whole 8-byte words (log 43). -/
def State.jmreadOk (s : State) (h : JHdr) : Bool :=
  match s.job.start with
  | none => false
  | some r =>
    let a := h.daddr.toNat
    let l := h.len.toNat
    r.job.toNat == fld h.arg 0 32 && (s.jobState == 1 || s.gathering r)
      && r.kids.any (fun k => nth r.manifest 0 k == h.spkg.toNat)
      && decide (r.maddr.toNat ≤ a ∧ a + l ≤ r.maddr.toNat + (2 * r.n + 7) / 8 * 8) && a / 4096 == (a + l - 1) / 4096

/-- `JMREAD` (R615). -/
def jmreadStep (f : Nat) (s : State) : State :=
  s.onFrame f (· == 0x77) (fun s x _ =>
    let h := x.frame.hdr
    let l := h.len.toNat
    if h.res ≠ 0 || h.act == 7 || h.tc != 7 || l % 8 != 0 || l == 0 || 512 < l then
      (s.answerReq f h opRESP Code.FAB_FORMAT [], false)
    else if !s.jmreadOk h then (s.answerReq f h opRESP Code.FAB_UNREACHABLE [], false)
    else
      match s.localRead ⟨12, 5, 0, false, fdDie f⟩ h.daddr.toNat l with
      | (s, some (.done d)) => (s.answerReq f h opRESP 0 d, false)
      | (s, some (.refused c)) => (s.answerReq f h opRESP c [], false)
      | (s, some _) => (s, true)
      | (s, none) => (s.answerReq f h opRESP Code.FAB_UNREACHABLE [], false))

/-- `JMREAD`. -/
def execJmread (f : Nat) (s : State) : Out := onFd f s (jmreadStep f)

/-- `TEARDOWN_DONE` (R625). -/
def teardownDoneStep (s : State) : State := s.tearStep

/-- `TEARDOWN_DONE`. -/
def execTeardownDone (s : State) : Out := onPackage s teardownDoneStep

/-! ## Snapshots (R635, R636, R642) -/

/-- `SNAPSHOT_CUT`: the time base of a die has reached `CUT` (R636). -/
def snapshotCutStep (s : State) : State :=
  match s.job.snap with
  | some r => if r.take && !r.cutDone then s.takeCut r else s
  | none => s

/-- `SNAPSHOT_CUT`. -/
def execSnapshotCut (s : State) : Out := onPackage s snapshotCutStep

/-- `SNAPSHOT_COMMIT`: every copy write is acknowledged; the engine of AD0 writes the commit record (R635). -/
def snapshotCommitStep (s : State) : State :=
  match s.job.snap with
  | some r => if s.copyDone r then s.commitBody r else s
  | none => s

/-- `SNAPSHOT_COMMIT`. -/
def execSnapshotCommit (s : State) : Out := onPackage s snapshotCommitStep

/-- `SNAPSHOT_WANT`: node time has passed the newest commit's `CUT` plus `PERIOD` (R642). -/
def snapshotWantStep (s : State) : State :=
  match s.job.decl, s.job.lastCut with
  | some d, some t =>
    if d.period ≠ 0 ∧ t.toNat + d.period.toNat < (s.now 0).toNat then s.setRfld seStatus 6 1 1 else s
  | _, _ => s

/-- `SNAPSHOT_WANT`. -/
def execSnapshotWant (s : State) : Out := onPackage s snapshotWantStep

end Sys2Proof.Machine
end

