-- ==== Sys2Proof/Machine/Time.lean ====
section
/-! DEFINITION. The commands of node time: exchanges with the parent, comparison inside the package, lock timeout,
`TM_CTRL` and PTP (R557 to R565). -/

namespace Sys2Proof.Machine

/-- Place a frame straight into the queue of a port of router f. -/
def State.ontoPort (s : State) (f p : Nat) (x : JFrame) : State :=
  let r := s.fr f
  s.setFr f { r with buf := r.buf ++ [⟨{ x with hdr := { x.hdr with hops := 1 } }, p, s.now (fdDie f)⟩] }

/-- A follower sends `TREQ` to its parent on TC4; t1 is taken when the frame leaves (R560). -/
def tmExchangeStep (s : State) : State :=
  let p := s.parentPort
  if !s.isRoot && decide (p < 36) && s.portUp p then
    let seq := nextSeq (s.reqs.map (·.seq)) (s.reqs.length + 1) s.seqCtr
    let h : JHdr := { hdr0 with
      dpkg := BitVec.ofNat 14 (s.rfld (flReg p 0) 50 14), daddr := Config.timeAddr, spkg := BitVec.ofNat 14 s.pkg
      seq := BitVec.ofNat 24 seq, op := 0x60, tc := 4, epoch := BitVec.ofNat 2 (s.curEpoch 0), act := 5 }
    let s : State := { s with seqCtr := (seq + 1) % 2 ^ 24, tm := { s.tm with seq := seq, t1 := none } }
    s.ontoPort (p / 18) p (mkFrame h [])
  else s

/-- TM_EXCHANGE (R560). -/
def execTmExchange (s : State) : Out := onPackage s tmExchangeStep

/-- The first frame with an opcode among those delivered at FD f, and the state without it. -/
def State.takeFrame (s : State) (f : Nat) (op : Byte) : Option (InFrame × State) :=
  let r := s.fr f
  match findPos (fun x => x.frame.hdr.op == op) r.inbox with
  | none => none
  | some i =>
    match r.inbox[i]? with
    | none => none
    | some x => some (x, s.setFr f { r with inbox := dropAt r.inbox i })

/-- A frame whose CRC fails is dropped and counted (R516). -/
def State.crcOk (s : State) (f : Nat) (x : JFrame) : State × Bool :=
  if x.crc = jcrc x.hdr x.payload then (s, true) else (s.frDrop f 0, false)

/-- The parent answers `TREQ` over the port it came from, with t2 in `ARG`; t3 is filled in when the frame leaves
(R560). -/
def treqStep (f : Nat) (s : State) : State :=
  match s.takeFrame f 0x60 with
  | none => s
  | some (x, s) =>
    match s.crcOk f x.frame with
    | (s, false) => s
    | (s, true) =>
      let h : JHdr := { respHdr x.frame.hdr s.pkg 0x61 0 8 with
        arg := x.at_, epoch := BitVec.ofNat 2 (s.curEpoch f) }
      if x.port < 36 && s.portUp x.port then s.ontoPort f x.port (mkFrame h (zeros 8)) else s

/-- TREQ (R560). -/
def execTreq (f : Nat) (s : State) : Out := onFd f s (treqStep f)

/-- The follower receives `TRESP`: offset and delay, and what follows from them (R560 to R562). -/
def trespStep (f : Nat) (s : State) : State :=
  match s.takeFrame f 0x61 with
  | none => s
  | some (x, s) =>
    match s.crcOk f x.frame with
    | (s, false) => s
    | (s, true) =>
      match s.tm.t1 with
      | none => s
      | some t1 =>
        if s.isRoot || s.tm.seq != x.frame.hdr.seq.toNat then s
        else
          let t2 := (x.frame.hdr.arg.toNat : Int)
          let t3 := (leNat (x.frame.payload.take 8) : Int)
          let t4 := (x.at_.toNat : Int)
          let t1 := (t1.toNat : Int)
          let theta2 := (t2 - t1) + (t3 - t4)
          let delay := divOpen ((t4 - t1) - (t3 - t2)) 2
          let s := s.setTm { s.tm with t1 := none, lastX := s.now 6 }
          let s := s.setReg (regAt .tm 0 0x20) (wdInt (divOpen theta2 2))
          let s := s.setRfld (regAt .tm 0 0x28) 0 32 (delay % (2 ^ 32 : Nat)).toNat
          s.applyTheta 6 rateNominal theta2 25600

/-- TRESP (R561, R562). -/
def execTresp (f : Nat) (s : State) : Out := onFd f s (trespStep f)

/-- A time base of the package compares itself with that of FD0 (R559); FD1's shows the offset (R593). -/
def packageTimeCompareStep (d : Nat) (s : State) : State :=
  let theta : Int := (s.now 6).toNat - (s.now d).toNat
  if d = 6 then s
  else (if d = 7 then s.setReg (regAt .tm 1 0x20) (wdInt theta) else s).applyTheta d (s.rate 6) (2 * theta) 1600

/-- PACKAGE_TIME_COMPARE (R559, R562). -/
def execPackageTimeCompare (d : Nat) (s : State) : Out := onDie d s (packageTimeCompareStep d)

/-- A locked follower without an exchange for 1 ms loses its lock (R562). -/
def tmLockTimeoutStep (s : State) : State :=
  if !s.isRoot && s.locked 6 && decide (s.tm.lastX.toNat + 4000000 ≤ (s.now 6).toNat) then s.unlock 6 else s

/-- TM_LOCK_TIMEOUT (R562). -/
def execTmLockTimeout (s : State) : Out := onPackage s tmLockTimeoutStep

/-- TM_CTRL_WRITE (R562). -/
def execTmCtrlWrite (v : Word) (s : State) : Out := onPackage s (fun s => s.writeTmCtrl v)

/-- A root takes an offset of PTP or 1PPS, twice the offset in ticks (R565, R771; log 24). -/
def State.rootTheta (s : State) (theta2 : Int) : State :=
  if 8000 < theta2 then s.stepTime 6 (divOpen theta2 2).toNat
  else if theta2 < -8000 then s.setTm { s.tm with holds := if s.tm.holds.contains 6 then s.tm.holds else s.tm.holds ++ [6] }
  else s.slew 6 rateNominal theta2 2 25600

/-- An IEEE 1588 message (R565): the slave of a following root on FD0, the master of a boundary clock on FD1. -/
def ptpMessageStep (f : Nat) (m : PtpMsg) (s : State) : State :=
  if f = 0 && s.isRoot && bit s.tmCtrl 9 then
    match m.kind with
    | .sync t1 =>
      (s.setTm { s.tm with ptpT1 := some t1, ptpT2 := some (s.ptpNow 0), ptpT3 := some (s.ptpNow 0) }).hostSend 0 (.ptp ⟨m.via, .delayReq⟩)
    | .syncTwoStep => s.setTm { s.tm with ptpT1 := none, ptpT2 := some (s.ptpNow 0), ptpT3 := none }
    | .followUp t1 =>
      if s.tm.ptpT2.isSome then
        (s.setTm { s.tm with ptpT1 := some t1, ptpT3 := some (s.ptpNow 0) }).hostSend 0 (.ptp ⟨m.via, .delayReq⟩)
      else s
    | .delayResp t4 =>
      match s.tm.ptpT1, s.tm.ptpT2, s.tm.ptpT3 with
      | some t1, some t2, some t3 =>
        -- the slave's offset from its master, taken back
        let theta2 : Int := (t1.toNat : Int) - t2.toNat + ((t4.toNat : Int) - t3.toNat)
        (s.setTm { s.tm with ptpT1 := none, ptpT2 := none, ptpT3 := none }).rootTheta theta2
      | _, _, _ => s
    | .delayReq | .announce => s
  else if f = 1 && bit s.tmCtrl 10 then
    match m.kind with
    | .delayReq => s.hostSend 1 (.ptp ⟨m.via, .delayResp (s.ptpNow 1)⟩)
    | _ => s
  else s

/-- PTP_MESSAGE (R565). -/
def execPtpMessage (f : Nat) (m : PtpMsg) (s : State) : Out := onFd f s (ptpMessageStep f m)

/-! ## `SYNC_IO` (R770 to R772) -/

/-- A tick offset from a node time to the nearest multiple of a second (R771). -/
def toSecond (t : Nat) : Int :=
  let r := t % 4000000000
  if 2 * r ≤ 4000000000 then -(r : Int) else 4000000000 - (r : Int)

/-- The root follows the 1PPS input (R771). -/
def State.followsPps (s : State) : Bool := s.isRoot && !bit s.tmCtrl 9 && bit (s.reg (regAt .clk 0 0x08)) 63

/-- `PPS_EDGE`: a rising edge of `SYNC_IO` as an input is stamped, and a root that follows it slews (R771). -/
def ppsEdgeStep (s : State) : State :=
  if s.part.strapOut then s
  else
    let t := s.now 6
    let s := ((s.setReg (regAt .clk 0 0x10) t).setRfld (regAt .clk 0 0) 0 1 1).setTm { s.tm with ppsAt := some t }
    if s.followsPps then s.slew 6 rateNominal (toSecond t.toNat) 1 1600000000 else s

/-- `PPS_EDGE`. -/
def execPpsEdge (s : State) : Out := onPackage s ppsEdgeStep

/-- `PPS_LOST`: no edge for 2 s; the root runs free (R771). -/
def ppsLostStep (s : State) : State :=
  match s.tm.ppsAt with
  | none => s
  | some t =>
    if s.rfld (regAt .clk 0 0) 0 1 = 1 ∧ t.toNat + 8000000000 ≤ (s.now 6).toNat then
      let s := (s.setRfld (regAt .clk 0 0) 0 1 0).raise0 6 uPower 0 Code.CLK_PPS_LOST 7
      if s.followsPps then s.setTm { s.tm with rates := s.tm.rates.set 6 rateNominal } else s
    else s

/-- `PPS_LOST`. -/
def execPpsLost (s : State) : Out := onPackage s ppsLostStep

/-- `SYNC_PULSE`: `SYNC_IO` as an output rises when FD0's node time has reached a multiple of `CLK_SYNC.PERIOD` (R772);
`syncOut` is the node time of the last rise. -/
def syncPulseStep (s : State) : State :=
  let p := s.rfld (regAt .clk 0 0x08) 0 40
  let t := (s.now 6).toNat / p * p
  if s.part.strapOut && decide (0 < p) && t != s.power.syncOut then { s with power := { s.power with syncOut := t } } else s

/-- `SYNC_PULSE`. -/
def execSyncPulse (s : State) : Out := onPackage s syncPulseStep

end Sys2Proof.Machine
end

