-- ==== Sys2Proof/Machine/Link.lean ====
section
/-! DEFINITION. The commands of links and routers: training and keying, lanes that fail, arriving frames and sync words,
aged frames, and the epoch and route-table registers (R499 to R505, R512, R521, R522, R541, R543). -/

namespace Sys2Proof.Machine

/-! ## Ports -/

/-- The lanes of a port have trained: the peer is known and keying starts (R498, R500). -/
def linkTrainedStep (p : Nat) (peer : BitVec 14) (s : State) : State :=
  if s.mayTrain p && decide (s.portState p ≤ 1) then (s.setRfld (flReg p 0) 50 14 peer.toNat).startKeying p else s

/-- LINK_TRAINED (R498, R500). -/
def execLinkTrained (p : Nat) (peer : BitVec 14) (s : State) : Out := onPort p s (linkTrainedStep p peer)

/-- What the peer says in KEYING has come: the port is UP with new keys, or FAILED with a `FAB_LINK_AUTH` record (R501). -/
def linkKeyedStep (p : Nat) (x : LinkHello) (s : State) : State :=
  match (s.port p).eph with
  | some k =>
    if s.portState p ≠ 2 then s
    else if helloOk x then s.portKeyed p (linkKeys k x.point)
    else s.keyingFails p
  | none => s

/-- LINK_KEYED (R501). -/
def execLinkKeyed (p : Nat) (x : LinkHello) (s : State) : Out := onPort p s (linkKeyedStep p x)

/-- A lane fails: a port that was UP leaves it; one that trained or keyed starts again (R500). -/
def laneFailStep (p : Nat) (s : State) : State :=
  if s.portUp p then s.leaveUp p
  else if s.portState p = 1 ∨ s.portState p = 2 then s.setPortState p 0
  else s

/-- LANE_FAIL (R500, R538, R639). -/
def execLaneFail (p : Nat) (s : State) : Out := onPort p s (laneFailStep p)

/-- FL_STATE_EN_WRITE (R501, R551). -/
def execFlStateEnWrite (p : Nat) (v : Word) (s : State) : Out := onPort p s (fun s => s.writeFlEn p v)

/-- After 2^36 frames the sending end starts a new exchange in link control frames (R502). -/
def rekeyStep (p : Nat) (s : State) : State :=
  if s.portUp p && decide (2 ^ 36 ≤ (s.port p).txFrames) && (s.port p).eph.isNone then
    let (k, s) := s.drawKey
    (s.setPort p { s.port p with eph := some k }).linkControl p k
  else s

/-- REKEY (R502). -/
def execRekey (p : Nat) (s : State) : Out := onPort p s (rekeyStep p)

/-- What a frame on a link holds, opened with the key that its prefix names (R503): none where its length or its tag fails. -/
def Port.openFrame (q : Port) (x : LinkFrame) : Option (List Byte) :=
  let key := if bit x.head 63 = q.rxIdx then some q.rxKey else q.rxOther
  let words := fld x.head 56 7
  if 5 ≤ words ∧ words ≤ 69 ∧ x.ct.length = 8 * words then
    key.bind (fun k => gcmOpen k (leBytes 12 (fld x.head 0 56)) (leBytes 8 x.head.toNat) (x.ct ++ x.tag))
  else none

/-- The Jonath frame in what a link frame holds (R503, R507). -/
def frameOf (l : List Byte) : JFrame :=
  let h := hdrOf l
  let n := payloadLen h
  ⟨h, (l.drop 32).take n, BitVec.ofNat 32 (bytesAt l (32 + n) 4)⟩

/-- The receiving end of a link takes a frame (R502 to R505): while words are discarded, only the frame that a sync word
announces and whose tag passes ends the discard; a tag that fails, or a counter not above the last one, drops the
frame; the first frame under the other key makes it the current one; a link control frame stays on the link; every other frame goes to
the router. -/
def frameReceiveStep (p : Nat) (x : LinkFrame) (s : State) : State :=
  if !s.portUp p then s
  else
    let q := s.port p
    let ctr := fld x.head 0 56
    let s := (s.bump (flReg p 0x20) 0 48 (24 + x.ct.length)).bump (flReg p 0x08) 0 32 x.corr
    let drop := fun (lo : Nat) => (s.setPort p { q with expect := none }).bump (flReg p 0x10) lo 32 1
    match q.openFrame x with
    | none => drop (if q.lost then 0 else 32)
    | some l =>
      if q.lost && q.expect != some ctr then drop 0
      else if ctr ≤ q.rxCtr then drop 32
      else
        let q := { q with rxCtr := ctr, lost := false, expect := none }
        let q := match q.rxOther with
          | some k => if bit x.head 63 = q.rxIdx then q else { q with rxIdx := !q.rxIdx, rxKey := k, rxOther := none }
          | none => q
        let s := s.setPort p q
        let y := frameOf l
        if y.hdr.op = 0x7F then
          match Config.linkMsgOf y.payload with
          | some m => s.linkExchange p ⟨m.1, m.2.1, m.2.2⟩
          | none => s
        else s.routeFrame (p / 18) y p

/-- FRAME_RECEIVE (R502 to R505). -/
def execFrameReceive (p : Nat) (x : LinkFrame) (s : State) : Out := onPort p s (frameReceiveStep p x)

/-- A sync word carries the link counter of the next frame (R504). -/
def syncWordStep (p : Nat) (ctr : BitVec 56) (s : State) : State :=
  if s.portUp p then s.setPort p { s.port p with expect := some ctr.toNat } else s

/-- SYNC_WORD (R504, R505). -/
def execSyncWord (p : Nat) (ctr : BitVec 56) (s : State) : Out := onPort p s (syncWordStep p ctr)

/-- A test of a port is asked for (R724), unless one is already. -/
def State.askPortTest (s : State) (p : Nat) : State :=
  if s.err.tests.any (fun t => t.unit == uPort && t.index == p) then s
  else { s with err := { s.err with tests := s.err.tests ++ [(⟨uPort, p, 11, 0, fdDie (p / 18), false⟩ : Test)] } }

/-- An uncorrectable codeword (R505, R724, R730): the frames it touches are discarded, words are discarded up to the next
good sync word, and the port's test is asked for. -/
def uncorrectableCodewordStep (p frames : Nat) (s : State) : State :=
  if !s.portUp p then s
  else
    let s := s.setPort p { s.port p with lost := true, expect := none }
    let s := (s.bump (flReg p 0x08) 32 32 1).bump (flReg p 0x10) 0 32 frames
    let r : Rec := { s.rec0 (fdDie (p / 18)) uPort p 0 2 with array := 11, test := 1 }
    (s.raiseWarn 3 p r).askPortTest p

/-- UNCORRECTABLE_CODEWORD (R505, R724). -/
def execUncorrectableCodeword (p frames : Nat) (s : State) : Out := onPort p s (uncorrectableCodewordStep p frames)

/-! ## Routers -/

/-- A frame that has stayed more than 2.5 µs in a router is dropped (R512). -/
def frameAgeDropStep (f i : Nat) (s : State) : State :=
  let r := s.fr f
  match r.buf[i]? with
  | none => s
  | some b =>
    if b.since.toNat + 10000 < (s.now (fdDie f)).toNat then (s.setFr f { r with buf := dropAt r.buf i }).frDrop f 32 else s

/-- FRAME_AGE_DROP (R512). -/
def execFrameAgeDrop (f i : Nat) (s : State) : Out := onFd f s (frameAgeDropStep f i)

/-- FR_EPOCH_CUR_WRITE (R522). -/
def execFrEpochCurWrite (f : Nat) (e : BitVec 2) (s : State) : Out := onFd f s (fun s => (s.writeEpochCur f e.toNat).1)

/-- FR_EPOCH_BANK_WRITE (R522). -/
def execFrEpochBankWrite (f : Nat) (b : Bool) (e : BitVec 2) (s : State) : Out :=
  onFd f s (fun s => (s.writeEpochBank f (b2n b) e.toNat).1)

/-- FR_EPOCH_RETIRE (R522). -/
def execFrEpochRetire (f : Nat) (s : State) : Out := onFd f s (fun s => s.writeRetire f)

/-- EPOCH_BANK_INVALIDATE (R522). -/
def execEpochBankInvalidate (f : Nat) (s : State) : Out := onFd f s (fun s => s.tryRetire f)

/-- FR_RT_DATA_WRITE (R522). -/
def execFrRtDataWrite (f : Nat) (v : Word) (s : State) : Out := onFd f s (fun s => (s.writeRtData f v).1)

/-! ## Replay table and tracked counts -/

/-- A DONE replay entry that has been unused for 100 µs becomes free (R541). -/
def haEntryExpiryStep (f spkg seq : Nat) (s : State) : State :=
  let r := s.fr f
  let now := (s.now (fdDie f)).toNat
  s.setFr f { r with haT := r.haT.filter (fun e =>
    !(e.spkg == spkg && e.seq == seq && e.done && decide (e.last.toNat + 400000 ≤ now))) }

/-- HA_ENTRY_EXPIRY (R541). -/
def execHaEntryExpiry (f spkg seq : Nat) (s : State) : Out := onFd f s (haEntryExpiryStep f spkg seq)

/-- A tracked request stops counting against its destination, and a request held back may start (R543). -/
def trackedCountReleaseStep (seq : Nat) (s : State) : State :=
  let now := (s.now 6).toNat
  let s := { s with tracked := s.tracked.filter (fun t =>
    !(t.seq == seq && (match t.release with | some w => decide (w.toNat ≤ now) | none => false))) }
  s.releaseHeld

/-- TRACKED_COUNT_RELEASE (R543). -/
def execTrackedCountRelease (seq : Nat) (s : State) : Out := onPackage s (trackedCountReleaseStep seq)

end Sys2Proof.Machine
end

