-- ==== Sys2Proof/Machine/Lists.lean ====
section
/-! DEFINITION. The dispatcher and lamplighter commands: the entries of a command list (R269), `LIST_COMPLETE`, `LL_FIRE`,
`LL_RESERVATION_LAPSE` and `LL_CANCEL`. -/

namespace Sys2Proof.Machine

/-! ## Control entries (R271, R272) -/

/-- `END`: it waits as `FENCE` does, then ends the list, at a failed entry if there is one. -/
def cmdEndStep (pd l : Nat) (s : State) : State :=
  s.dspRow pd l 0x00 (fun s x _ =>
    if !x.quiet then s
    else
      match x.failed with
      | some (c, i) => s.modList pd l (fun y => y.stop c i (s.now (4 + pd)))
      | none => s.modList pd l (fun y => y.stop 0 y.idx (s.now (4 + pd))))

/-- `CMD_END`. -/
def execCmdEnd (pd l : Nat) (s : State) : Out := onDisp pd s (cmdEndStep pd l)

/-- `NOP`. -/
def cmdNopStep (pd l : Nat) (s : State) : State := s.dspRow pd l 0x01 (fun s _ _ => s.dspNext pd l)

/-- `CMD_NOP`. -/
def execCmdNop (pd l : Nat) (s : State) : Out := onDisp pd s (cmdNopStep pd l)

/-- `FENCE`: every earlier entry of the list has completed; a failed one stops the list. -/
def cmdFenceStep (pd l : Nat) (s : State) : State :=
  s.dspRow pd l 0x02 (fun s x _ =>
    if !x.quiet then s
    else
      match x.failed with
      | some (c, i) => s.modList pd l (fun y => y.stop c i (s.now (4 + pd)))
      | none => s.dspNext pd l)

/-- `CMD_FENCE`. -/
def execCmdFence (pd l : Nat) (s : State) : Out := onDisp pd s (cmdFenceStep pd l)

/-- `FENCE_TIME`: node time has reached word 1. -/
def fenceTimeStep (pd l : Nat) (s : State) : State :=
  s.dspRow pd l 0x03 (fun s _ w => if s.now (4 + pd) < nth w 0 1 then s else s.dspNext pd l)

/-- `FENCE_TIME`. -/
def execFenceTime (pd l : Nat) (s : State) : Out := onDisp pd s (fenceTimeStep pd l)

/-! ## Clusters -/

/-- A target of a `LOAD_PROGRAM` or `BIND_QUEUES` is in use (R273). -/
def State.inUse (s : State) (pd : Nat) (ts : List Nat) : Bool :=
  s.otherHeld pd ts || ts.any (fun n => (s.cl n).st == .running || (s.cl n).pendingLl)

/-- `LOAD_PROGRAM` (R266, R273). -/
def loadProgramStep (pd l : Nat) (s : State) : State :=
  s.dspRow pd l 0x10 (fun s x w =>
    let ts := cmdTargets w
    if s.ownHeld pd (creatorOf pd x) ts then s
    else if s.inUse pd ts then s.dspFail pd l Code.CL_BUSY
    else
      ts.foldl (fun s n => s.loadStart (nth w 0 1) (nth w 0 2).toNat n)
        ((s.dspStart pd l ts (nth w 0 0)).holdAll ts (some (creatorOf pd x))))

/-- `LOAD_PROGRAM`. -/
def execLoadProgram (pd l : Nat) (s : State) : Out := onDisp pd s (loadProgramStep pd l)

/-- `BIND_QUEUES` (R236, R273): it holds its targets until its table has come. -/
def bindQueuesStep (pd l : Nat) (s : State) : State :=
  s.dspRow pd l 0x11 (fun s x w =>
    let ts := cmdTargets w
    if s.ownHeld pd (creatorOf pd x) ts then s
    else if s.inUse pd ts then s.dspFail pd l Code.CL_BUSY
    else
      match (s.holdAll ts (some (creatorOf pd x))).dspRead pd x false (nth w 0 1) 512 with
      | (s, .refused c) => (s.holdAll ts none).dspFail pd l c
      | (s, .done b) =>
        if bindBad b then (s.holdAll ts none).dspFail pd l Code.CL_BIND
        else ((ts.foldl (fun s n => s.bindTo n b) s).holdAll ts none).dspNext pd l
      | (s, _) => s)

/-- `BIND_QUEUES`. -/
def execBindQueues (pd l : Nat) (s : State) : Out := onDisp pd s (bindQueuesStep pd l)

/-- The dies that hold clusters of a list of targets, with their clusters. -/
def State.byDie (s : State) (ts : List Nat) : List (Nat × List Nat) :=
  ((upTo 4).map (fun d => (d, ts.filter (fun n => s.part.dieOfCl n == d)))).filter (fun x => !x.2.isEmpty)

/-- `LAUNCH_AT` (R274): the checks, a reservation on every die that holds targets, and the commit of all or none. Where several of
its refusals hold, R274 gives no order: lateness comes first, then a target that is not loaded and bound, then a busy one
(DESIGN CHOICE, log 105). -/
def launchAtStep (pd l : Nat) (s : State) : State :=
  s.dspRow pd l 0x12 (fun s x w =>
    let ts := cmdTargets w
    let t := nth w 0 1
    if s.ownHeld pd (creatorOf pd x) ts then s
    else if t.toNat < (s.now (4 + pd)).toNat + 10000 then s.dspFail pd l Code.TM_LATE_LAUNCH
    else if ts.any (fun n => (s.cl n).st == .empty || !(s.cl n).bound) then s.dspFail pd l Code.CL_NOT_LOADED
    else if s.otherHeld pd ts || ts.any (fun n => (s.cl n).pendingLl) then s.dspFail pd l Code.CL_BUSY
    else
      let cr := creatorOf pd x
      let dies := s.byDie ts
      let (s, bad) := s.reserve t cr [nth w 0 2, nth w 0 3, nth w 0 4, nth w 0 5] dies
      match firstRefusal bad with
      | some c => (dies.foldl (fun s d => s.llFree d.1 cr) s).dspFail pd l c
      | none => (dies.foldl (fun s d => s.llCommit d.1 cr) (s.abortTests ts)).dspStart pd l ts (nth w 0 0))

/-- `LAUNCH_AT`. -/
def execLaunchAt (pd l : Nat) (s : State) : Out := onDisp pd s (launchAtStep pd l)

/-! ## Region keys (R533, R534) -/

/-- Keys of the granules of a home map. -/
def setKeys (m : Tab (BitVec 16)) (k : BitVec 16) (g : Nat) : Nat → Tab (BitVec 16)
  | 0 => m
  | n + 1 => (setKeys m k g n).set (g + n) k

/-- `SET_REGION_KEY` (R533 to R535). -/
def setRegionKeyStep (pd l : Nat) (s : State) : State :=
  s.dspRow pd l 0x13 (fun s x w =>
    let a := fun i => (nth w 0 i).toNat
    let g := a 2 / 2 ^ 21
    let key : BitVec 16 := BitVec.ofNat 16 (a 4)
    let range := s.dspFail pd l Code.FAB_KEY_RANGE
    if a 1 = 0 then
      if a 2 % 2 ^ 21 ≠ 0 ∨ a 3 = 0 ∨ 2 ^ 16 ≤ a 4 ∨ s.part.hbm < a 2 + a 3 * 2 ^ 21 then range
      else if (upTo (a 3)).any (fun i => s.tags.get 0 (g + i) != x.tenant) then s.dspFail pd l Code.FAB_KEY_TENANT
      else ({ s with homeKeys := setKeys s.homeKeys key g (a 3) } : State).dspNext pd l
    else if a 1 = 1 then
      let base := 0x0001000000000000
      if a 2 % 2 ^ 21 ≠ 0 ∨ a 3 = 0 ∨ 2 ^ 16 ≤ a 4 ∨ a 2 < base ∨ base + s.part.clusters * 2 ^ 20 < a 2 + a 3 * 2 ^ 21 then range
      else ({ s with fontKeys := setKeys s.fontKeys key g (a 3) } : State).dspNext pd l
    else if a 1 = 2 then
      let first := a 3 % 2 ^ 14
      let last := a 3 / 2 ^ 16 % 2 ^ 14
      if 256 ≤ a 2 ∨ a 3 ≠ first + last * 2 ^ 16 ∨ a 4 % 2 ^ 21 ≠ 0 ∨ 2 ^ 17 ≤ a 6 ∨ 2 ^ 50 ≤ a 4 ∨ 2 ^ 50 ≤ a 5 then range
      else
        let t := if a 6 / 2 ^ 16 = 1 then s.outKeys.set (a 2) ⟨x.tenant, first, last, nth w 0 4, nth w 0 5, BitVec.ofNat 16 (a 6)⟩
          else s.outKeys.drop (a 2)
        ({ s with outKeys := t } : State).dspNext pd l
    else range)

/-- `SET_REGION_KEY`. -/
def execSetRegionKey (pd l : Nat) (s : State) : Out := onDisp pd s (setRegionKeyStep pd l)

/-! ## Collectives (R572 to R576) -/

/-- A group from its descriptor's words and its member list. -/
def mkGroup (cfg : List Word) (entry : Option Creator) (tenant : BitVec 12) (members : List Nat) (pkg : Nat) (now : Word) : Group where
  id := 0
  cfg := cfg
  entry := entry
  tenant := tenant
  members := members
  rank := (findPos (· == pkg) members).getD 0
  started := false
  openAt := now
  seen := []
  red := []
  out := []
  cdone := []
  arrive := []
  heldW := 0
  local_ := none
  final := none
  code := 0
  origin := 0
  todo := []
  got := []
  recPut := []

/-- Read the member lists of the descriptors of an entry, in order, checking each descriptor: the groups, or a code, or
none when memory has to be waited for. -/
def State.readGroups (s : State) (pd : Nat) (x : CmdList) : List (List Byte) → List Group → State × Option (BitVec 16 × List Group)
  | [], acc => (s, some (0, acc))
  | d :: r, acc =>
    let cfg := (upTo 16).map (fun i => word64 d (8 * i))
    let g := mkGroup cfg (some (creatorOf pd x)) x.tenant [] s.pkg (s.now (4 + pd))
    if !g.descOk s (nth cfg 0 7).toNat then (s, some (Code.CU_DESC, []))
    else
      match s.dspFetch pd x false (addrLocal (nth cfg 0 4)) (2 * g.n) with
      | (s, .done b) =>
        let m := (chunks 2 b).map leNat
        if !membersOk s.pkg m then (s, some (Code.CU_DESC, []))
        else State.readGroups s pd x r (acc ++ [mkGroup cfg (some (creatorOf pd x)) x.tenant m s.pkg (s.now (4 + pd))])
      | (s, .refused c) => (s, some (c, []))
      | (s, _) => (s, none)

/-- The lamplighter entry of CU f is gone. -/
def State.freeStart (s : State) (f : Nat) : State :=
  s.setEntries (fdDie f) ((s.lamp (fdDie f)).entries.filter (fun e => e.target != .collective f))

/-- The lamplighters take the `START` of every group that has one, or none of them: the code of the first refusal (R567, R576). -/
def State.askStarts (s : State) : List (Nat × Group) → State × Option (BitVec 16)
  | [] => (s, none)
  | (f, g) :: r =>
    if g.start = 0 then State.askStarts s r
    else
      match s.llRequest (fdDie f) ⟨g.start, ⟨2 + f, 0, g.ident⟩, .collective f, true⟩ with
      | (s, some c) => (s, some c)
      | (s, none) =>
        match State.askStarts s r with
        | (s, some c) => (s.freeStart f, some c)
        | x => x

/-- Open a group on each target CU; one with a `START` waits for its lamplighter, the others begin at once (R576). -/
def State.openGroups (s : State) : List (Nat × Group) → State
  | [] => s
  | (f, g) :: r =>
    let u := s.cu f
    let s := s.setCu f { u with group := some { g with id := u.opened, openAt := s.now (fdDie f) }, opened := u.opened + 1 }
    State.openGroups (if g.start = 0 then s.cuBegin f else s) r

/-- `COLLECTIVE` (R572 to R576). A `START` that a lamplighter refuses fails the entry with its code (log 37). -/
def collectiveStep (pd l : Nat) (s : State) : State :=
  s.dspRow pd l 0x20 (fun s x w =>
    let ts := cmdTargets w
    let code := fun (s : State) (c : BitVec 16) => (ts.foldl (fun s f => s.setRfld (cuReg f 0) 32 16 c.toNat) s).dspFail pd l c
    if ts.any (fun f => s.cuBusy f) then code s Code.CU_BUSY
    else if (nth w 0 1).toNat % 128 ≠ 0 then code s Code.CU_DESC
    else
      s.dspNeed pd x (nth w 0 1) (128 * ts.length) (fun s b =>
        match s.readGroups pd x (chunks 128 b) [] with
        | (s, none) => s
        | (s, some (c, gs)) =>
          if c = Code.CU_DESC then code s c
          else if c ≠ 0 then s.dspFail pd l c
          else
            match s.askStarts (ts.zip gs) with
            | (s, some c) => s.dspFail pd l c
            | (s, none) => (s.dspStart pd l ts (nth w 0 0)).openGroups (ts.zip gs)))

/-- `COLLECTIVE`. -/
def execCollective (pd l : Nat) (s : State) : Out := onDisp pd s (collectiveStep pd l)

/-! ## Engines -/

/-- Show a refusal in `LAST_CODE` of the engines that refuse (R419, R449). -/
def State.showCode (s : State) (b : Blk) (c : BitVec 16) (l : List Nat) : State :=
  l.foldl (fun s n => s.setRfld (regAt b n 0) 32 16 c.toNat) s

/-- Start a solve on each engine with its descriptor. -/
def State.lseAll (s : State) (dl : Word) (soft : Bool) (tenant : BitVec 12) (cr : Creator) : List (Nat × List Word) → State
  | [] => s
  | (n, d) :: r => State.lseAll (s.lseStart n d dl soft tenant cr) dl soft tenant cr r

/-- `LSE_SOLVE` (R395 to R398). -/
def lseSolveStep (pd l : Nat) (s : State) : State :=
  s.dspRow pd l 0x30 (fun s x w =>
    let ts := cmdTargets w
    let fail := fun (s : State) (c : BitVec 16) (bad : List Nat) => (s.showCode .lse c bad).dspFail pd l c
    let busy := ts.filter (fun n => (s.lse n).phase != .idle)
    if !busy.isEmpty then fail s Code.LSE_BUSY busy
    else if (nth w 0 1).toNat % 128 ≠ 0 then fail s Code.LSE_DESC ts
    else
      s.dspNeed pd x (nth w 0 1) (128 * ts.length) (fun s b =>
        let ds := ts.zip ((chunks 128 b).map (fun d => (upTo 16).map (fun i => word64 d (8 * i))))
        let bad := (ds.filter (fun d => s.lseDescBad d.2)).map (·.1)
        if !bad.isEmpty then fail s Code.LSE_DESC bad
        else (s.dspStart pd l ts (nth w 0 0)).lseAll (nth w 0 2) (bit (nth w 0 3) 0) x.tenant (creatorOf pd x) ds))

/-- `LSE_SOLVE`. -/
def execLseSolve (pd l : Nat) (s : State) : Out := onDisp pd s (lseSolveStep pd l)

/-- Start each UU with its table and layer count. -/
def State.uuAll (s : State) (tenant : BitVec 12) (cr : Creator) : List (Nat × Word × Nat) → State
  | [] => s
  | (k, t, n) :: r => State.uuAll (s.uuStart k t n tenant cr) tenant cr r

/-- `UU_APPLY` (R425, R426). -/
def uuApplyStep (pd l : Nat) (s : State) : State :=
  s.dspRow pd l 0x40 (fun s x w =>
    let ts := cmdTargets w
    let fail := fun (s : State) (c : BitVec 16) (bad : List Nat) => (s.showCode .uu c bad).dspFail pd l c
    let busy := ts.filter (fun k => (s.uu k).busy)
    if !busy.isEmpty then fail s Code.UU_BUSY busy
    else if (nth w 0 1).toNat % 16 ≠ 0 || !s.inHbm (nth w 0 1) (16 * ts.length) then fail s Code.UU_DESC ts
    else
      s.dspNeed pd x (nth w 0 1) (16 * ts.length) (fun s b =>
        let es := (chunks 16 b).map (fun e => (word64 e 0, (word64 e 8).toNat))
        let ds := ts.zip es
        let idle := (ds.filter (fun d => d.2.2 != 0 && s.rfld (uuReg d.1 8) 32 1 == 0)).map (·.1)
        let bad := (ds.filter (fun d =>
          decide (4096 < d.2.2) || d.2.1.toNat % 128 != 0 || !s.inHbm d.2.1 (128 * d.2.2))).map (·.1)
        if !idle.isEmpty then fail s Code.UU_NO_STEP idle
        else if !bad.isEmpty then fail s Code.UU_DESC bad
        else (s.dspStart pd l ts (nth w 0 0)).uuAll x.tenant (creatorOf pd x) ds))

/-- `UU_APPLY`. -/
def execUuApply (pd l : Nat) (s : State) : Out := onDisp pd s (uuApplyStep pd l)

/-! ## Snapshots (R629 to R644) -/

/-- A `SNAPSHOT` entry of operation `op`: one of another operation is left to its own row. One that sets an argument word which its
operation does not use, or whose `OP` is none, gets `SE_DESC`; R269 would give `CL_BAD_COMMAND` for a word that the command
does not use, and no rule says which goes first (DESIGN CHOICE, log 105). -/
def State.snapRow (s : State) (pd l op : Nat) (f : State → CmdList → List Word → State) : State :=
  s.dspRow pd l 0x50 (fun s x w =>
    let o := (nth w 0 1).toNat
    let zero := fun (is : List Nat) => is.all (fun i => nth w 0 i == 0)
    if o < 4 && o != op then s
    else if 4 ≤ o || !(if o = 0 then zero [3, 4, 5] else if o = 1 then zero [2] else if o = 2 then zero [2, 3, 4, 5] else zero [3]) then
      s.cmdFail pd l Code.SE_DESC
    else f s x w)

/-- The refusal of a snapshot entry: shown by the engines, and the entry fails. -/
def State.snapRefuse (s : State) (pd l : Nat) (c : BitVec 16) : State := (s.seCode c).dspFail pd l c

/-- Read a snapshot table and go on with it, or refuse it with `SE_DESC` (R630, R631). -/
def State.withTable (s : State) (pd : Nat) (x : CmdList) (a : Word) (declare : Bool) (k : State → SnapDecl → State) : State :=
  s.dspNeed pd x a 64 (fun s h =>
    let n := bytesAt h 0x28 4
    if n < 1 || 64 < n then s.snapRefuse pd x.id Code.SE_DESC
    else
      s.dspNeed pd x (a + 64) (16 * n) (fun s b =>
        match s.parseTable h b declare with
        | none => s.snapRefuse pd x.id Code.SE_DESC
        | some d => k s d))

/-- `SNAPSHOT` with `OP` DECLARE (R631). -/
def snapshotDeclareStep (pd l : Nat) (s : State) : State :=
  s.snapRow pd l 0 (fun s x w =>
    if s.snapBusy then s.snapRefuse pd l Code.SE_BUSY
    else
      s.withTable pd x (nth w 0 2) true (fun s d =>
        let s : State := { s with job := { s.job with decl := some d } }
        let s := (s.setRfld seStatus 3 1 1).setRfld seStatus 2 1 (b2n d.stop)
        s.dspNext pd l))

/-- `SNAPSHOT_DECLARE`. -/
def execSnapshotDeclare (pd l : Nat) (s : State) : Out := onDisp pd s (snapshotDeclareStep pd l)

/-- `SNAPSHOT` with `OP` TAKE (R634, R635). The refusals come before the condition word is read (log 38). -/
def snapshotTakeStep (pd l : Nat) (s : State) : State :=
  s.snapRow pd l 1 (fun s x w =>
    let start := fun (s : State) =>
      (s.dspStart pd l [0, 1, 2, 3] (nth w 0 0)).takeStart (some (creatorOf pd x)) (nth w 0 3) (nth w 0 4) x.tenant
    match s.takeRefusal (nth w 0 3) with
    | some c => s.snapRefuse pd l c
    | none =>
      if nth w 0 5 = 0 then start s
      else s.dspNeed pd x (nth w 0 5) 8 (fun s b => if leNat b = 0 then s.dspNext pd l else start s))

/-- `SNAPSHOT_TAKE`. -/
def execSnapshotTake (pd l : Nat) (s : State) : Out := onDisp pd s (snapshotTakeStep pd l)

/-- `SNAPSHOT` with `OP` CANCEL (R639). -/
def snapshotCancelStep (pd l : Nat) (s : State) : State :=
  s.snapRow pd l 2 (fun s _ _ =>
    let s := match s.job.snap with
      | some r => if r.take then s.endSnap Code.SE_CANCELLED else s
      | none => s
    s.dspNext pd l)

/-- `SNAPSHOT_CANCEL`. -/
def execSnapshotCancel (pd l : Nat) (s : State) : Out := onDisp pd s (snapshotCancelStep pd l)

/-- `SNAPSHOT` with `OP` RESTORE (R643). -/
def snapshotRestoreStep (pd l : Nat) (s : State) : State :=
  s.snapRow pd l 3 (fun s x w =>
    if s.snapBusy then s.snapRefuse pd l Code.SE_BUSY
    else
      s.withTable pd x (nth w 0 2) false (fun s d =>
        (s.dspStart pd l [0, 1, 2, 3] (nth w 0 0)).restoreStart (some (creatorOf pd x)) d (nth w 0 4) (nth w 0 5) x.tenant))

/-- `SNAPSHOT_RESTORE`. -/
def execSnapshotRestore (pd l : Nat) (s : State) : Out := onDisp pd s (snapshotRestoreStep pd l)

/-! ## Result digests (R673 to R677) -/

/-- The digest of a role's stream (R675). -/
def roleDigest (b : List Byte) : List Byte := sha512 (leBytes 8 b.length ++ (chunks (2 ^ 20) b).flatMap sha512)

/-- A digest descriptor's entries: address, role and length; none when it is malformed (R674). -/
def State.digestEntries (s : State) (h b : List Byte) : Option (List (Word × Nat × Nat)) :=
  let n := bytesAt h 8 4
  let es := (upTo n).map (fun i => (word64 b (16 * i), word64 b (16 * i + 8)))
  if (h.drop 12).all (· == 0) && es.all (fun e => decide (fld e.2 60 4 < 4) && fld e.2 40 20 == 0 && s.inHbm e.1 (fld e.2 0 40)) then
    some (es.map (fun e => (e.1, fld e.2 60 4, fld e.2 0 40)))
  else none

/-- Read the regions of a digest one after another: none when memory has to be waited for, else the streams of the four
roles or the refusal. -/
def State.readRoles (s : State) (pd : Nat) (x : CmdList) : List (Word × Nat × Nat) → List (List Byte) →
    State × Option (BitVec 16 × List (List Byte))
  | [], acc => (s, some (0, acc))
  | (a, role, len) :: r, acc =>
    if len = 0 then State.readRoles s pd x r acc
    else
      match s.dspFetch pd x false (addrLocal a) len with
      | (s, .done d) => State.readRoles s pd x r (modAt acc role (· ++ d))
      | (s, .refused c) => (s, some (c, []))
      | (s, _) => (s, none)

/-- The result record (R677) with a status; the role digests of an entry that failed are open (log 33). -/
def State.digestRecord (s : State) (pd : Nat) (x : CmdList) (sign : Bool) (step : Word) (code : BitVec 16)
    (roles : List (List Byte)) : List Byte × State :=
  let bound := match s.sec.bind.find? (fun b => b.1 == x.tenant) with
    | some b => sha512 b.2
    | none => zeros 64
  let (body, s) := if code = 0 then (roles.flatMap roleDigest ++ roles.flatMap (fun r => leBytes 8 r.length), s)
    else s.openBytes 288
  let debug := s.rfld (regAt .sec 0 0) 0 1
  let m := leBytes 4 0x38524452 ++ leBytes 2 1 ++ leBytes 2 (b2n sign + 2 * debug) ++ leBytes 4 s.jobId.toNat
    ++ leBytes 2 x.tenant.toNat ++ leBytes 2 code.toNat ++ leBytes 8 step.toNat ++ leBytes 8 (s.now (4 + pd)).toNat
    ++ leBytes 8 s.sysId.toNat ++ leBytes 4 (s.rfld (regAt .sec 0 0x10) 0 32) ++ zeros 4 ++ s.dumapDigest ++ nth s.sec.mr [] 3
    ++ bound ++ body
  let (sig, s) :=
    if !sign then (zeros 132, s)
    else
      match s.sec.alias_ with
      | some k => (padTo 132 (Config.sign k m), s)
      | none => s.openBytes 132
  (m ++ sig ++ zeros 12, s)

/-- The result record of a `DIGEST` is being written; once it stands in memory the entry passes, or fails (R673, R674). -/
def State.digestRun (s : State) (pd l : Nat) (code : BitVec 16) : State :=
  match s.dspPut pd l with
  | (s, none) => s
  | (s, some c) =>
    if code ≠ 0 then s.dspFail pd l code else if c ≠ 0 then s.dspFail pd l c else s.dspNext pd l

/-- A `DIGEST` ends with a code: its result record is made and written (R677). -/
def State.digestEnd (s : State) (pd : Nat) (x : CmdList) (w : List Word) (step : Word) (code : BitVec 16)
    (roles : List (List Byte)) : State :=
  let (m, s) := s.digestRecord pd x (bit (nth w 0 3) 0) step code roles
  (s.dspPutStart pd x.id (addrLocal (nth w 0 2)) m code).digestRun pd x.id code

/-- `DIGEST` (R673 to R677). -/
def digestStep (pd l : Nat) (s : State) : State :=
  s.dspRow pd l 0x60 (fun s x w =>
    let desc := nth w 0 1
    let res := nth w 0 2
    match x.fin with
    | some c => s.digestRun pd l c
    | none =>
      if !x.quiet then s
      else if desc.toNat % 64 ≠ 0 || !s.inHbm desc 64 || res.toNat % 64 ≠ 0 || !s.inHbm res 672 || 2 ≤ (nth w 0 3).toNat then
        s.dspFail pd l Code.SEC_DIGEST_DESC
      else
        s.dspNeed pd x desc 64 (fun s h =>
          let n := bytesAt h 8 4
          let step := word64 h 0
          if n < 1 || 256 < n || !s.inHbm desc (64 + 16 * n) then s.digestEnd pd x w step Code.SEC_DIGEST_DESC []
          else
            s.dspNeed pd x (desc + 64) (16 * n) (fun s b =>
              match s.digestEntries h b with
              | none => s.digestEnd pd x w step Code.SEC_DIGEST_DESC []
              | some es =>
                match s.readRoles pd x es [[], [], [], []] with
                | (s, none) => s
                | (s, some (c, roles)) => s.digestEnd pd x w step c roles)))

/-- `DIGEST`. -/
def execDigest (pd l : Nat) (s : State) : Out := onDisp pd s (digestStep pd l)

/-! ## The end of a list (R272, R279) -/

/-- The completion record of a list (R279). -/
def completionRecord (code : BitVec 16) (idx : Nat) (tag now : Word) : List Byte :=
  leBytes 2 code.toNat ++ zeros 2 ++ leBytes 4 idx ++ leBytes 8 tag.toNat ++ leBytes 8 now.toNat ++ zeros 8

/-- The status of an ended list: the failed entry with the lowest index, or where it ended (R272). -/
def CmdList.outcome (x : CmdList) (code : BitVec 16) (idx : Nat) : BitVec 16 × Nat :=
  match x.failed with
  | some (c, i) => if code = 0 || i < idx then (c, i) else (code, idx)
  | none => (code, idx)

/-- Interrupt 0x22 at the core that posted the list with notify (R279, R327). -/
def State.notifyPost (s : State) (c : Nat) (record : Word) : State :=
  s.modSc c (fun x => { x with ipend := x.ipend ||| 4, postRec := record })

/-- Tell the submitter that its list has ended (R279). -/
def State.tellSubmitter (s : State) (x : CmdList) (rec_ : List Byte) : State :=
  match x.by_ with
  | .host f sess => s.eventTo f sess 0 rec_
  | .core c notify => if notify then s.notifyPost c x.record else s
  | .job => s

/-- List x has its record in memory, or its record was refused: the list goes, and its submitter hears of it (R279). A refusal is
recorded (log 32). -/
def State.listGone (s : State) (pd : Nat) (x : CmdList) (r : List Byte) (c : BitVec 16) : State :=
  let s := if c = 0 then s else s.raise { s.rec0 (4 + pd) uDsp pd c 0 with addr := wd (addrLocal x.record) }
  (s.setDsp pd { s.dsp pd with lists := (s.dsp pd).lists.filter (fun y => y.id != x.id) }).tellSubmitter x r

/-- `LIST_COMPLETE` (R279, R326): every entry that the list started has completed; the record, with the time at which the list
ended, is written, and the list goes once it stands in memory. -/
def listCompleteStep (pd l : Nat) (s : State) : State :=
  match s.cmdList pd l with
  | none => s
  | some x =>
    match x.state with
    | .ended code idx =>
      if !x.quiet then s
      else
        let o := x.outcome code idx
        let r := completionRecord o.1 o.2 x.tag x.endAt
        let s := if x.fin.isSome then s else s.dspPutStart pd l (addrLocal x.record) r 0
        match s.dspPut pd l with
        | (s, none) => s
        | (s, some c) => s.listGone pd x r c
    | _ => s

/-- `LIST_COMPLETE`. -/
def execListComplete (pd l : Nat) (s : State) : Out := onDisp pd s (listCompleteStep pd l)

/-! ## Lamplighters (R567 to R571) -/

/-- What an entry that fires starts (R275, R569). -/
def State.fireEntry (s : State) (e : LlEntry) : State :=
  match e.target with
  | .clusters ns args =>
    ns.foldl (fun s n =>
      if (s.cl n).st = .running then
        (s.modCl n (fun c => { c with pendingLl := false })).targetDone e.creator n Code.CL_OVERRUN
      else s.launchCluster n e.t args e.creator) s
  | .list pd l =>
    let isJob : Bool := match s.cmdList pd l with | some x => decide (x.by_ = .job) | none => false
    let s := s.modList pd l (fun x => if x.state = .waiting then { x with state := .running } else x)
    -- the start list of a job begins: the package is RUNNING (R624, R648)
    if isJob then s.setRfld (regAt .se 0 0x1000) 0 3 2 else s
  | .collective f => s.cuBegin f

/-- `LL_FIRE`: every armed entry of die d whose time has come fires, and frees itself (R568). -/
def llFireStep (d : Nat) (s : State) : State :=
  let due := fun (e : LlEntry) => e.armed && decide (e.t ≤ s.now d)
  let l := (s.lamp d).entries
  let s' := s.setEntries d (l.filter (fun e => !due e))
  let fired := l.filter due
  (fired.foldl (fun s e => s.fireEntry e) s').bump (llReg d 0x10) 0 48 fired.length

/-- `LL_FIRE`. -/
def execLlFire (d : Nat) (s : State) : Out := onDie d s (llFireStep d)

/-- `LL_RESERVATION_LAPSE`: a reservation that is not committed by T − 4,000 ticks frees itself (R567). -/
def llReservationLapseStep (d : Nat) (s : State) : State :=
  let lapsed := fun (e : LlEntry) => !e.armed && decide (e.t.toNat ≤ (s.now d).toNat + 4000)
  let l := (s.lamp d).entries
  ((l.filter lapsed).foldl (fun s e => s.unhold e) s).setEntries d (l.filter (fun e => !lapsed e))

/-- `LL_RESERVATION_LAPSE`. -/
def execLlReservationLapse (d : Nat) (s : State) : Out := onDie d s (llReservationLapseStep d)

/-- `LL_CANCEL`: a creator's cancel (R571). A list or launch so cancelled does not start. -/
def llCancelStep (d : Nat) (tag : Creator) (s : State) : State := (s.llCancel d tag).1

/-- `LL_CANCEL`. -/
def execLlCancel (d : Nat) (tag : Creator) (s : State) : Out := onDie d s (llCancelStep d tag)

end Sys2Proof.Machine
end

