-- ==== Sys2Proof/Machine/Lse.lean ====
section
/-! DEFINITION. The least-squares engine commands: `LSE_PHASE_END`, `LSE_POLL`, `LSE_DEADLINE`, `LSE_STOP`, `LSE_DROP`. -/

namespace Sys2Proof.Machine

/-- The phase that engine n is in ends (R373): LOAD, FORM, FACTOR, SOLVE and PUBLISH do their work, as far as memory lets them, and
the next begins. Request 0 names x₀, which stands in buffer 0 already (R404). -/
def lsePhaseStep (n : Nat) (s : State) : State :=
  let x := s.lse n
  if x.act ≠ .rest then s
  else
    (match x.phase with
    | .load => s.modLse n (fun y => { y with act := .image })
    | .form => s.lseForm n
    | .factor => s.lseFactor n
    | .solve => s.lseSolve n
    | .publish => if x.req = 0 then s.lseRequest n false else s.modLse n (fun y => { y with act := .point })
    | .idle | .wait | .test => s).lseRun n

/-- `LSE_PHASE_END`. -/
def execLsePhaseEnd (n : Nat) (s : State) : Out := onLse n s (lsePhaseStep n)

/-- A poll of the expected ring slot in WAIT (R408): a sample, then the priority read of the slot's header. -/
def lsePollStep (n : Nat) (s : State) : State :=
  if (s.lse n).phase = .wait && (s.lse n).act = .rest then
    let s := s.lseSample n
    (if (s.lse n).act = .rest then s.modLse n (fun y => { y with act := .poll }) else s).lseRun n
  else s

/-- `LSE_POLL`. -/
def execLsePoll (n : Nat) (s : State) : Out := onLse n s (lsePollStep n)

/-- A sample inside a phase (R411, R412). -/
def lseDeadlineStep (n : Nat) (s : State) : State := if sampled (s.lse n).phase then (s.lseSample n).lseRun n else s

/-- `LSE_DEADLINE`. -/
def execLseDeadline (n : Nat) (s : State) : Out := onLse n s (lseDeadlineStep n)

/-- `LSE_STOP`. -/
def execLseStop (n : Nat) (s : State) : Out := onLse n s (lseStopStep n)

/-- `LSE_DROP`. -/
def execLseDrop (n : Nat) (s : State) : Out := onLse n s (lseDropStep n)

end Sys2Proof.Machine
end

