-- ==== Sys2Proof/Machine/Memory.lean ====
section
/-! DEFINITION. The commands of the memory controllers: a request as it arrives, priority reads, copy-on-write, regulators
and the priority bucket, scrub, temperature, refresh, tenant retagging, and the registers with a behaviour of their own
(R453 to R495). -/

namespace Sys2Proof.Machine

/-! ## Requests (R459 to R470) -/

/-- A request that a memory controller can receive: it lies in one 64-byte unit of local HBM; none from outside the controller has
class 11, and one of class 12 carries tag 0 (R459, R461, R475). -/
def State.mcReqOk (s : State) (r : MemReq) : Bool :=
  decide (r.cls < 14 ∧ r.cls ≠ 11 ∧ (r.cls = 12 → r.tag = 0) ∧ r.act < 7 ∧ 1 ≤ r.len ∧ r.addr.toNat % 64 + r.len ≤ 64 ∧
    r.addr.toNat + r.len ≤ s.part.hbm) && (!r.write || r.data.length == r.len)

/-- Bytes of a unit found bad beside those known (R466). -/
def State.addFlips (s : State) (u n : Nat) : State := if n = 0 then s else { s with flips := s.flips.set u (s.flips.get 0 u + n) }

/-- A memory controller takes a request and answers it, or lets it wait (R461, R318): the answer stands in `answer`, and what the
stack reports of its own corrections is counted (R466). -/
def State.mcRequest (s : State) (r : MemReq) : State :=
  if !s.mcReqOk r then s
  else
    let a := r.addr.toNat
    let q : Req := ⟨r.cls, r.act, r.tag, r.prio, 9⟩
    let c := s.dirConflicts r.write a r.len
    let (k, off) := s.mapAddr a
    let t := s.addFlips (unitNo k off) r.flips
    let said := fun (s : State) (code : BitVec 16) (d : List Byte) =>
      let s := if code = 0 ∨ code = Code.MC_UNCORRECTABLE then s.onDie k r.onDie else s
      { s with answer := ⟨code, d⟩ }
    if !c.isEmpty then s.askRecall c
    else
      match (if r.write then t.pageWrite q a r.data .none else t.pageRead q a r.len) with
      | (_, .wait) => s
      | (s, .refused code) => said s code []
      | (s, .held) => s
      | (s, .done d) => said s 0 d

/-- `HBM_ACCESS`: a request without a priority mark of its own (R461). -/
def hbmAccessStep (r : MemReq) (s : State) : State := s.mcRequest r

/-- `HBM_ACCESS`. -/
def execHbmAccess (r : MemReq) (s : State) : Out := onPackage s (hbmAccessStep r)

/-- `PRIORITY_READ`: a read that its requester marks as priority (R463 to R465). -/
def priorityReadStep (r : MemReq) (s : State) : State := s.mcRequest { r with prio := true, write := false }

/-- `PRIORITY_READ`. -/
def execPriorityRead (r : MemReq) (s : State) : Out := onPackage s (priorityReadStep r)

/-- `COW_GRANULE_STAGED`: the snapshot engine has read granule g of stack k into staging (R483 to R487, R635). It is the
granule that comes next, and goes as far as its stack lets it. -/
def cowGranuleStagedStep (k g : Nat) (s : State) : State :=
  match s.job.snap with
  | some r =>
    if r.take && r.cutDone && r.phase == .copy && s.copyTurn k g then s.copyGranule r k g else s
  | none => s

/-- `COW_GRANULE_STAGED`. -/
def execCowGranuleStaged (k g : Nat) (s : State) : Out := onStack k s (cowGranuleStagedStep k g)

/-! ## Regulators and the priority bucket (R460, R465) -/

/-- `PARTITION_REFILL`: every active regulator of stack k gains `RATE` units, up to `BURST` (R460). -/
def partitionRefillStep (k : Nat) (s : State) : State :=
  (upTo 16).foldl (fun s p =>
    let w := s.reg (partReg k p)
    if bit w 63 then s.setReg (partReg k p) (setFld w 0 16 (min (fld w 0 16 + fld w 16 12) (fld w 32 16))) else s) s

/-- `PARTITION_REFILL`. -/
def execPartitionRefill (k : Nat) (s : State) : Out := onStack k s (partitionRefillStep k)

/-- `PRIORITY_BUCKET_REFILL`: 2 units, up to 64 (R465). -/
def priorityBucketRefillStep (k : Nat) (s : State) : State :=
  let m := s.mc k
  s.setMc k { m with prio := min (m.prio + 2) 64 }

/-- `PRIORITY_BUCKET_REFILL`. -/
def execPriorityBucketRefill (k : Nat) (s : State) : Out := onStack k s (priorityBucketRefillStep k)

/-! ## Scrub, temperature, refresh (R471, R472, R477 to R480) -/

/-- The scrub moves on by one unit; a sweep ends at the end of the stack (R471). -/
def State.scrubNext (s : State) (k : Nat) : State :=
  let m := s.mc k
  if m.scrubAt + 64 < stackSize then s.setMc k { m with scrubAt := m.scrubAt + 64 }
  else (s.setMc k { m with scrubAt := 0 }).bump (regAt .mc k 0x30) 48 16 1

/-- `PATROL_SCRUB`: the next unit of the sweep, of which `flips` says what is found (R466, R471, R472). A unit that a retag scrub is about to zero is passed over with the poisoned ones. -/
def patrolScrubStep (k : Nat) (flips : UnitErrs) (s : State) : State :=
  let off := (s.mc k).scrubAt
  let a := s.unmapAddr k off
  if s.rfld (regAt .mc k 0x30) 0 32 = 0 ∨ !bit (s.reg (regAt .mc k 0)) 0 then s
  else if s.poison.contains (unitNo k off) || s.retags.any (fun r => r.gran == granule a) then s.scrubNext k
  else if s.mayStart scrubReq k 1 then
    ((((s.chargeStart scrubReq k 1 64).addFlips (unitNo k off) flips.bad).eccRead k off a).1.onDie k flips.onDie).scrubNext k
  else s

/-- `PATROL_SCRUB`. -/
def execPatrolScrub (k : Nat) (flips : UnitErrs) (s : State) : Out := onStack k s (patrolScrubStep k flips)

/-- The heat level of a reading after level `old`: a level clears once a reading is 3 °C below its threshold (R478). -/
def heatLevel (old temp : Nat) : Nat :=
  if 95 < temp ∨ (old = 2 ∧ 92 < temp) then 2 else if 85 < temp ∨ (1 ≤ old ∧ 82 < temp) then 1 else 0

/-- A record of the heat of stack k (R478, R717): `KIND` 5. -/
def State.heatRec (s : State) (k : Nat) (c : BitVec 16) : Rec := s.rec0 (s.part.dieOfStack k) uMc k c 5

/-- `TEMP_SAMPLE`: a reading of the temperature sensor of stack k (R478 to R480). -/
def tempSampleStep (k temp : Nat) (s : State) : State :=
  let o := regAt .mc k 0
  let old := s.rfld o 8 2
  let new := heatLevel old temp
  let s := (s.setRfld o 16 8 temp).setRfld o 8 2 new
  let s := if old = 0 ∧ 1 ≤ new then
      (s.setRfld o 32 16 Code.MC_HOT_REFRESH.toNat).raise (s.heatRec k Code.MC_HOT_REFRESH) else s
  let s := if old < 2 ∧ new = 2 then
      (s.setRfld o 32 16 Code.MC_HOT_THROTTLE.toNat).raiseWarn 6 k (s.heatRec k Code.MC_HOT_THROTTLE) else s
  if 105 < temp then
    ((s.setRfld o 32 16 Code.MC_HOT_SHUTDOWN.toNat).raise (s.heatRec k Code.MC_HOT_SHUTDOWN)).protectiveShutdown
  else s

/-- `TEMP_SAMPLE`. -/
def execTempSample (k temp : Nat) (s : State) : Out := onStack k s (tempSampleStep k temp)

/-- `REFRESH`: the stack is refreshed; its contents stay (R477). -/
def refreshStep (k : Nat) (s : State) : State :=
  let m := s.mc k
  s.setMc k { m with refreshes := m.refreshes + 1 }

/-- `REFRESH`. -/
def execRefresh (k : Nat) (s : State) : Out := onStack k s (refreshStep k)

/-! ## Tenant tags (R473, R476) -/

/-- `TENANT_RETAG`: firmware changes the tag of granule g of local HBM, and the retag scrub runs as its stacks let
it (R476). -/
def tenantRetagStep (g : Nat) (tag : BitVec 12) (s : State) : State :=
  if (g + 1) * 2 ^ 21 ≤ s.part.hbm then (s.retag g tag).runRetags else s

/-- `TENANT_RETAG`. -/
def execTenantRetag (g : Nat) (tag : BitVec 12) (s : State) : Out := onPackage s (tenantRetagStep g tag)

/-! ## Registers (R456, R462, R477, R491, R493, R810) -/

/-- `MC_MAP_WRITE`. -/
def execMcMapWrite (k : Nat) (v : Word) (s : State) : Out := onStack k s (fun s => (s.writeMcMap k v).1)

/-- `MC_PART_WRITE`. -/
def execMcPartWrite (k p : Nat) (v : Word) (s : State) : Out :=
  onStack k s (fun s => if p < 16 then s.writeMcPart k p v else s)

/-- `MC_REFRESH_WRITE`. -/
def execMcRefreshWrite (k : Nat) (v : Word) (s : State) : Out := onStack k s (fun s => (s.writeMcRefresh k v).1)

end Sys2Proof.Machine
end

