-- ==== Sys2Proof/Machine/Power.lean ====
section
/-! DEFINITION. The commands of power, clocks and start-up (R753 to R782). -/

namespace Sys2Proof.Machine

/-! ## Resets (R753, R769, R773, R774) -/

/-- `PWROK_RISE`: a power-on reset that samples the strap (R770, R773). -/
def pwrokRiseStep (strap : Bool) (s : State) : State := s.powerOnReset strap

/-- `PWROK_RISE`. It acts whatever state the package is in. -/
def execPwrokRise (strap : Bool) (s : State) : Out := always s (pwrokRiseStep strap)

/-- `RESET_N`: held low for 1 µs it resets the package until it rises (R773). -/
def resetNStep (low : Bool) (s : State) : State :=
  if !s.power.powered || s.power.shutdown then s
  else if low then
    let s := s.packageReset
    { s with power := { s.power with pinReset := true } }
  else { s with power := { s.power with pinReset := false } }

/-- `RESET_N`. -/
def execResetN (low : Bool) (s : State) : Out := always s (resetNStep low)

/-- `POWER_REMOVED` (R753). -/
def execPowerRemoved (s : State) : Out := always s State.powerOff

/-- `PWR_CTRL_RESET` (R774). -/
def execPwrCtrlReset (s : State) : Out := onPackage s (fun s => (s.regWrite true .pwr 0 0x08 1).1)

/-- `PWR_CTRL_RELEASE` (R775). -/
def execPwrCtrlRelease (s : State) : Out := onPackage s (fun s => (s.regWrite true .pwr 0 0x08 2).1)

/-- `PLL_UNLOCK`: a record of the die, and the package resets (R769). -/
def pllUnlockStep (d : Nat) (s : State) : State :=
  ((s.pwrCode Code.CLK_PLL_UNLOCK).writeRec (s.pwrRec d Code.CLK_PLL_UNLOCK 0)).packageReset

/-- `PLL_UNLOCK`. -/
def execPllUnlock (d : Nat) (s : State) : Out := onDie d s (pllUnlockStep d)

/-- `REFCLK_LOST`: a reference clock has stopped for 1 µs, and the package resets (R769). -/
def refclkLostStep (i : Nat) (s : State) : State :=
  ((s.pwrCode Code.CLK_REF_LOST).writeRec (s.pwrRec (4 + i % 2) Code.CLK_REF_LOST 0)).packageReset

/-- `REFCLK_LOST`. -/
def execRefclkLost (i : Nat) (s : State) : Out := onUnit (decide (i < 2)) s (refclkLostStep i)

/-! ## Domains (R757 to R760) -/

/-- `PWR_DOMAIN_WRITE` (R758). -/
def execPwrDomainWrite (v : Word) (s : State) : Out := onPackage s (fun s => (s.regWrite true .pwr 0 0x10 v).1)

/-- `DOMAIN_ON_COMPLETE` (R760). -/
def execDomainOnComplete (k : Nat) (s : State) : Out := onUnit (decide (k < 44)) s (fun s => s.domainReady k)

/-! ## Frequency, current and heat (R755, R763 to R766) -/

/-- `FREQUENCY_STEP`: the junction of die d is read, and its level moves if it has one (R761, R763, R765). -/
def frequencyStepStep (d tj : Nat) (s : State) : State :=
  let s := s.junction d tj
  if s.power.shutdown || decide (6 ≤ d) then s else s.freqStep d

/-- `FREQUENCY_STEP`. -/
def execFrequencyStep (d tj : Nat) (s : State) : Out := onDie d s (frequencyStepStep d tj)

/-- `PMBUS_POLL` (R755, R763). -/
def execPmbusPoll (r : PmbusReadings) (s : State) : Out := onPackage s (fun s => s.pmbus r)

/-- `PMB_ALERT`: the current cause of an accelerator die is raised at once (R763). -/
def pmbAlertStep (d : Nat) (s : State) : State :=
  State.freqStep { s with power := { s.power with overI := setIn s.power.overI d true } } d

/-- `PMB_ALERT`. -/
def execPmbAlert (d : Nat) (s : State) : Out := onUnit (decide (d < 4)) s (pmbAlertStep d)

/-- `DROOP`: skipped edges are counted (R766). -/
def droopStep (edges : Nat) (s : State) : State := s.bump pwrStatus 0 32 edges

/-- `DROOP`. -/
def execDroop (d edges : Nat) (s : State) : Out := onUnit (decide (d < 4)) s (droopStep edges)

/-! ## Start (R775 to R778) -/

/-- `START_ATTEMPT`. -/
def execStartAttempt (s : State) : Out := onPackage s State.beginAttempt

/-- `BOOT_PHASE`. -/
def execBootPhase (r : BootResult) (s : State) : Out := onPackage s (fun s => s.bootPhase r)

/-- `NETWORK_BOOT_TIMEOUT`. -/
def execNetworkBootTimeout (s : State) : Out := onPackage s State.netTimeout

/-- `BOOT_WATCHDOG`. -/
def execBootWatchdog (s : State) : Out := onPackage s State.bootWatchdog

/-- `BACKOFF_EXPIRY`. -/
def execBackoffExpiry (s : State) : Out := onPackage s State.backoffEnd

end Sys2Proof.Machine
end

