-- ==== Sys2Proof/Machine/Scalar.lean ====
section
/-! DEFINITION. The scalar instructions of the solver cores (R292 to R295, R305 to R310, R323 to R330): integer arithmetic, loads
and stores, control flow, atomics, fences, system registers, posting, and the events of interrupts. -/

namespace Sys2Proof.Machine

/-! ## Integer arithmetic (R292, R293) -/

/-- Leading zeros of a word. -/
def leadingZeros (w : Word) : Nat := if w.toNat = 0 then 64 else 63 - Nat.log2 w.toNat

/-- The ones of a word. -/
def popCount (w : Word) : Nat := (List.range 64).foldl (fun n i => n + b2n (bit w i)) 0

/-- A signed quotient (R293). The rule does not say how one that is no whole number is rounded where an operand is negative:
the choice between its two neighbours is open (log 21). -/
def sdiv (a b : Word) : Word :=
  let x := a.toInt
  let y := b.toInt
  if y = 0 then BitVec.allOnes 64
  else
    let q := Int.fdiv x y
    if (0 ≤ x ∧ 0 ≤ y) ∨ q * y = x then wdInt q
    else if Config.roundUp x y then wdInt (q + 1) else wdInt q

/-- A signed remainder (R293): the dividend for a division by zero, else what the quotient leaves. -/
def srem (a b : Word) : Word := if b = 0 then a else a - b * sdiv a b

/-- An integer instruction of OP 0x01. -/
def State.scInt (s : State) (c fn : Nat) (f : Word → Word → Word) : State :=
  s.scAlu c (0x01 * 64 + fn) (fun x w => x.setG (hD w) (f (x.gr (hA w)) (x.gr (hB w))))

/-- An integer instruction with an immediate. -/
def State.scImm (s : State) (c op : Nat) (f : Word → Word → Word) : State :=
  s.scAlu c (op * 64) (fun x w => x.setG (hD w) (f (x.gr (hA w)) w))

/-- Shift by register or immediate, by a number below 64 (R293). -/
def shiftBy (kind n : Nat) (a : Word) : Word :=
  if kind = 0 then a <<< n else if kind = 1 then a >>> n else a.sshiftRight n

/-- `ADD`. -/
def execAddR (c : Nat) (s : State) : Out := onCore c s (fun s => s.scInt c 0 (fun a b => a + b))

/-- `SUB`. -/
def execSubR (c : Nat) (s : State) : Out := onCore c s (fun s => s.scInt c 1 (fun a b => a - b))

/-- `AND`. -/
def execAndR (c : Nat) (s : State) : Out := onCore c s (fun s => s.scInt c 2 (fun a b => a &&& b))

/-- `OR`. -/
def execOrR (c : Nat) (s : State) : Out := onCore c s (fun s => s.scInt c 3 (fun a b => a ||| b))

/-- `XOR`. -/
def execXorR (c : Nat) (s : State) : Out := onCore c s (fun s => s.scInt c 4 (fun a b => a ^^^ b))

/-- `SLL`: shift left by gB mod 64. -/
def execSll (c : Nat) (s : State) : Out := onCore c s (fun s => s.scInt c 5 (fun a b => shiftBy 0 (b.toNat % 64) a))

/-- `SRL`: logical shift right by gB mod 64. -/
def execSrl (c : Nat) (s : State) : Out := onCore c s (fun s => s.scInt c 6 (fun a b => shiftBy 1 (b.toNat % 64) a))

/-- `SRA`: arithmetic shift right by gB mod 64. -/
def execSra (c : Nat) (s : State) : Out := onCore c s (fun s => s.scInt c 7 (fun a b => shiftBy 2 (b.toNat % 64) a))

/-- `SLT`: 1 if gA < gB, signed. -/
def execSlt (c : Nat) (s : State) : Out := onCore c s (fun s => s.scInt c 8 (fun a b => wd (b2n (a.slt b))))

/-- `SLTU`: 1 if gA < gB, unsigned. -/
def execSltu (c : Nat) (s : State) : Out := onCore c s (fun s => s.scInt c 9 (fun a b => wd (b2n (a.ult b))))

/-- `MUL`. -/
def execMul (c : Nat) (s : State) : Out := onCore c s (fun s => s.scInt c 0xa (fun a b => a * b))

/-- `MULH`: high half of the signed product. -/
def execMulh (c : Nat) (s : State) : Out := onCore c s (fun s => s.scInt c 0xb (fun a b => wdInt (a.toInt * b.toInt / 2 ^ 64)))

/-- `MULHU`: high half of the unsigned product. -/
def execMulhu (c : Nat) (s : State) : Out := onCore c s (fun s => s.scInt c 0xc (fun a b => wd (a.toNat * b.toNat / 2 ^ 64)))

/-- `DIV` (R293). -/
def execDiv (c : Nat) (s : State) : Out := onCore c s (fun s => s.scInt c 0xd (fun a b => sdiv a b))

/-- `DIVU` (R293). -/
def execDivu (c : Nat) (s : State) : Out := onCore c s (fun s => s.scInt c 0xe (fun a b => if b = 0 then BitVec.allOnes 64 else wd (a.toNat / b.toNat)))

/-- `REM` (R293). -/
def execRem (c : Nat) (s : State) : Out := onCore c s (fun s => s.scInt c 0xf (fun a b => srem a b))

/-- `REMU` (R293). -/
def execRemu (c : Nat) (s : State) : Out := onCore c s (fun s => s.scInt c 0x10 (fun a b => if b = 0 then a else wd (a.toNat % b.toNat)))

/-- `CLZ`. -/
def execClz (c : Nat) (s : State) : Out := onCore c s (fun s => s.scInt c 0x11 (fun a _ => wd (leadingZeros a)))

/-- `POPC`. -/
def execPopc (c : Nat) (s : State) : Out := onCore c s (fun s => s.scInt c 0x12 (fun a _ => wd (popCount a)))

/-- `MIN`: signed minimum. -/
def execMinR (c : Nat) (s : State) : Out := onCore c s (fun s => s.scInt c 0x13 (fun a b => if b.slt a then b else a))

/-- `MAX`: signed maximum. -/
def execMaxR (c : Nat) (s : State) : Out := onCore c s (fun s => s.scInt c 0x14 (fun a b => if a.slt b then b else a))

/-! ## Immediates (R290, R292) -/

/-- `ADDI`. -/
def execAddi (c : Nat) (s : State) : Out := onCore c s (fun s => s.scImm c 0x02 (fun a w => a + hImm w))

/-- `ANDI`. -/
def execAndi (c : Nat) (s : State) : Out := onCore c s (fun s => s.scImm c 0x03 (fun a w => a &&& wd (hImmU w)))

/-- `ORI`. -/
def execOri (c : Nat) (s : State) : Out := onCore c s (fun s => s.scImm c 0x04 (fun a w => a ||| wd (hImmU w)))

/-- `XORI`. -/
def execXori (c : Nat) (s : State) : Out := onCore c s (fun s => s.scImm c 0x05 (fun a w => a ^^^ wd (hImmU w)))

/-- `SHI`. -/
def execShi (c : Nat) (s : State) : Out := onCore c s (fun s => s.scImm c 0x06 (fun a w => shiftBy (fld w 6 2) (fld w 0 6) a))

/-- `SLTI`. -/
def execSlti (c : Nat) (s : State) : Out := onCore c s (fun s => s.scImm c 0x07 (fun a w => wd (b2n (a.slt (hImm w)))))

/-- `LHI`. -/
def execLhi (c : Nat) (s : State) : Out := onCore c s (fun s => s.scImm c 0x08 (fun _ w => hImm w * 65536))

/-- `PCREL`: the PC plus IMM16 × 4. -/
def execPcrel (c : Nat) (s : State) : Out := onCore c s (fun s => s.scAlu c (0x09 * 64) (fun x w => x.setG (hD w) (x.pc + hImm w * 4)))

/-! ## Loads and stores (R292, R294) -/

/-- `LDB`. -/
def execLdb (c : Nat) (s : State) : Out := onCore c s (fun s => s.scLoad c 0x10)

/-- `LDBU`. -/
def execLdbu (c : Nat) (s : State) : Out := onCore c s (fun s => s.scLoad c 0x11)

/-- `LDH`. -/
def execLdh (c : Nat) (s : State) : Out := onCore c s (fun s => s.scLoad c 0x12)

/-- `LDHU`. -/
def execLdhu (c : Nat) (s : State) : Out := onCore c s (fun s => s.scLoad c 0x13)

/-- `LDW`. -/
def execLdw (c : Nat) (s : State) : Out := onCore c s (fun s => s.scLoad c 0x14)

/-- `LDWU`. -/
def execLdwu (c : Nat) (s : State) : Out := onCore c s (fun s => s.scLoad c 0x15)

/-- `LDD`. -/
def execLdd (c : Nat) (s : State) : Out := onCore c s (fun s => s.scLoad c 0x16)

/-- `FLD`. -/
def execFld (c : Nat) (s : State) : Out := onCore c s (fun s => s.scLoad c 0x17)

/-- `STB`. -/
def execStb (c : Nat) (s : State) : Out := onCore c s (fun s => s.scStore c 0x18)

/-- `STH`. -/
def execSth (c : Nat) (s : State) : Out := onCore c s (fun s => s.scStore c 0x19)

/-- `STW`. -/
def execStw (c : Nat) (s : State) : Out := onCore c s (fun s => s.scStore c 0x1A)

/-- `STD`. -/
def execStd (c : Nat) (s : State) : Out := onCore c s (fun s => s.scStore c 0x1B)

/-- `FST`. -/
def execFst (c : Nat) (s : State) : Out := onCore c s (fun s => s.scStore c 0x1C)

/-! ## Branches and jumps (R290, R295) -/

/-- `BEQ`. -/
def execBeq (c : Nat) (s : State) : Out := onCore c s (fun s => s.scBranch c 0x20 (fun a b => a == b))

/-- `BNE`. -/
def execBne (c : Nat) (s : State) : Out := onCore c s (fun s => s.scBranch c 0x21 (fun a b => a != b))

/-- `BLT`. -/
def execBlt (c : Nat) (s : State) : Out := onCore c s (fun s => s.scBranch c 0x22 (fun a b => a.slt b))

/-- `BGE`. -/
def execBge (c : Nat) (s : State) : Out := onCore c s (fun s => s.scBranch c 0x23 (fun a b => !a.slt b))

/-- `BLTU`. -/
def execBltu (c : Nat) (s : State) : Out := onCore c s (fun s => s.scBranch c 0x24 (fun a b => a.ult b))

/-- `BGEU`. -/
def execBgeu (c : Nat) (s : State) : Out := onCore c s (fun s => s.scBranch c 0x25 (fun a b => !a.ult b))

/-- A jump with link: gD takes the address of the next instruction; the target is read before gD is written. -/
def State.scLink (s : State) (c op : Nat) (target : Core → Word → Word) : State :=
  s.scRow c (op * 64) (fun s w =>
    let x := s.sc c
    (s.modSc c (fun y => y.setG (hD w) (x.pc + 4))).scJump c (target x w))

/-- `JAL`. -/
def execJal (c : Nat) (s : State) : Out := onCore c s (fun s => s.scLink c 0x26 (fun x w => x.pc + hOff21 w))

/-- `JALR`. -/
def execJalr (c : Nat) (s : State) : Out := onCore c s (fun s => s.scLink c 0x27 (fun x w => x.gr (hA w) + hImm w))

/-! ## Atomics and fences (R323, R324) -/

/-- `AADD`. -/
def execAadd (c : Nat) (s : State) : Out := onCore c s (fun s => s.scAtomic c 0)

/-- `AFADD`. -/
def execAfadd (c : Nat) (s : State) : Out := onCore c s (fun s => s.scAtomic c 1)

/-- `AMAX`. -/
def execAmax (c : Nat) (s : State) : Out := onCore c s (fun s => s.scAtomic c 2)

/-- `AMIN`. -/
def execAmin (c : Nat) (s : State) : Out := onCore c s (fun s => s.scAtomic c 3)

/-- `ASWAP`. -/
def execAswap (c : Nat) (s : State) : Out := onCore c s (fun s => s.scAtomic c 4)

/-- `ACAS`. -/
def execAcas (c : Nat) (s : State) : Out := onCore c s (fun s => s.scAtomic c 5)

/-- `FENCE` (R323): it waits while a posted store is not acknowledged; every other earlier access has completed. -/
def fenceStep (c : Nat) (s : State) : State :=
  s.scRow c (0x31 * 64) (fun t _ => if (t.sc c).posted ≠ 0 then s else t.scNext c)

/-- `FENCE`. -/
def execFence (c : Nat) (s : State) : Out := onCore c s (fenceStep c)

/-- `FENCEI`: the model fetches what memory holds, so nothing is left to do. -/
def execFencei (c : Nat) (s : State) : Out := onCore c s (fun s => s.scAlu c (0x31 * 64 + 1) (fun x _ => x))

/-! ## System instructions (R305 to R310) -/

/-- `SYS` (R306, R311). -/
def execSys (c : Nat) (s : State) : Out :=
  onCore c s (fun s => s.scRow c (0x38 * 64) (fun s _ => s.scTrap c (s.sc c).pc 0x09 0 0))

/-- `BRK` (R306, R311). -/
def execBrk (c : Nat) (s : State) : Out :=
  onCore c s (fun s => s.scRow c (0x38 * 64 + 1) (fun s _ => s.scTrap c (s.sc c).pc 0x0A 0 0))

/-- The level that `PPREV` of a status word names; the value 3 names none, and which level follows is open (log 33). -/
def levelOf (w : Word) : Nat := if stPprev w ≤ 2 then stPprev w else Config.openLevel w % 3

/-- `ERET` (R308). -/
def eretStep (c : Nat) (s : State) : State :=
  s.scRow c (0x38 * 64 + 2) (fun s w =>
    let x := s.sc c
    if x.level = 0 then s.scTrap c x.pc 0x01 0 w
    else if x.level = 1 then
      (s.modSc c (fun y => { y with level := levelOf x.status, status := stLeave x.status })).scJump c x.epc
    else (s.modSc c (fun y => { y with level := levelOf x.fwStatus, fwStatus := stLeave x.fwStatus })).scJump c x.fwEpc)

/-- `ERET`. -/
def execEret (c : Nat) (s : State) : Out := onCore c s (eretStep c)

/-- `WFE` (R309): it ends at once if an enabled interrupt is pending. -/
def wfeStep (c : Nat) (s : State) : State :=
  s.scRow c (0x38 * 64 + 3) (fun s _ => (s.scNext c).modSc c (fun x => { x with wfe := !s.scWakes c }))

/-- `WFE`. -/
def execWfe (c : Nat) (s : State) : Out := onCore c s (wfeStep c)

/-- `WFE_WAKE` (R309). -/
def execWfeWake (c : Nat) (s : State) : Out := onCore c s (fun s => s.scWake c)

/-- `SIG` (R310). -/
def sigStep (c : Nat) (s : State) : State :=
  s.scRow c (0x38 * 64 + 4) (fun s w =>
    let x := s.sc c
    let t := x.gr (hA w)
    if s.part.sc ≤ t.toNat then s.scTrap c x.pc 0x05 0 t
    else (s.modSc t.toNat (fun y => { y with ipend := y.ipend ||| 2, sigFrom := wd c })).scNext c)

/-- `SIG`. -/
def execSig (c : Nat) (s : State) : Out := onCore c s (sigStep c)

/-- `SRR` (R331): a number that is not listed reads as an open value (log 33). -/
def srrStep (c : Nat) (s : State) : State :=
  s.scRow c (0x39 * 64) (fun s w =>
    let x := s.sc c
    if x.level < srLevel (hImmU w) then s.scTrap c x.pc 0x02 0 w
    else
      (s.modSc c (fun y => y.setG (hD w) ((s.srRead c (hImmU w)).getD (Config.openSr (hImmU w))))).scNext c)

/-- `SRR`. -/
def execSrr (c : Nat) (s : State) : Out := onCore c s (srrStep c)

/-- `SRW` (R331, R333). -/
def srwStep (c : Nat) (s : State) : State :=
  s.scRow c (0x3A * 64) (fun s w =>
    let x := s.sc c
    if x.level < srLevel (hImmU w) then s.scTrap c x.pc 0x02 0 w
    else
      match x.srWrite (hImmU w) (x.gr (hA w)) with
      | some y => (s.setSc c y).scNext c
      | none => s.scTrap c x.pc 0x01 0 w)

/-- `SRW`. -/
def execSrw (c : Nat) (s : State) : Out := onCore c s (srwStep c)

/-- `POST` (R327 to R330). -/
def postStep (c : Nat) (s : State) : State :=
  s.scRow c (0x3C * 64) (fun t w =>
    let x := t.sc c
    let a := x.gr (hA w)
    if x.level = 0 && !bit x.status 11 then t.scTrap c x.pc 0x02 0 w
    else if x.posted ≠ 0 then s
    else t.scAfter c w a (t.scRead c a 32 false (.post w a)) (fun t b => t.postBlock c w b))

/-- `POST`. -/
def execPost (c : Nat) (s : State) : Out := onCore c s (postStep c)

/-- `INTERRUPT_TAKE` (R304, R307). -/
def execInterruptTake (c : Nat) (s : State) : Out := onCore c s (fun s => s.scInterrupt c)

/-- `TCMP_REACHED` (R309, R334): `TIME` is pending from now on, which ends a `WFE` that it is enabled for. -/
def tcmpStep (c : Nat) (s : State) : State := if bit (s.scPending c) 0 then s.scWake c else s

/-- `TCMP_REACHED`. -/
def execTcmpReached (c : Nat) (s : State) : Out := onCore c s (tcmpStep c)

end Sys2Proof.Machine
end

