-- ==== Sys2Proof/Machine/ScalarFp.lean ====
section
/-! DEFINITION. The FP64 instructions of the solver cores (R296 to R302). -/

namespace Sys2Proof.Machine

/-- The rounding direction of an OP 0x28 word (R296, R297). -/
def Core.rnd (x : Core) (w : Word) : Rnd := rndMode (hC w) x.fcsr

/-- An instruction of OP 0x28 that writes fD. -/
def State.fpF (s : State) (c fn : Nat) (f : Rnd → Nat → Nat → FpRes) : State :=
  s.scAlu c (0x28 * 64 + fn) (fun x w =>
    let r := f (x.rnd w) (x.fr (hA w)).toNat (x.fr (hB w)).toNat
    (x.setF (hD w) (wd r.1)).addFlags r.2)

/-- An instruction of OP 0x28 that writes gD. -/
def State.fpG (s : State) (c fn : Nat) (f : Rnd → Nat → Nat → Word × FpFlags) : State :=
  s.scAlu c (0x28 * 64 + fn) (fun x w =>
    let r := f (x.rnd w) (x.fr (hA w)).toNat (x.fr (hB w)).toNat
    (x.setG (hD w) r.1).addFlags r.2)

/-- A conversion of OP 0x28 from gA to fD. -/
def State.fpI (s : State) (c fn : Nat) (f : Rnd → Word → FpRes) : State :=
  s.scAlu c (0x28 * 64 + fn) (fun x w =>
    let r := f (x.rnd w) (x.gr (hA w))
    (x.setF (hD w) (wd r.1)).addFlags r.2)

/-- A comparison as gD takes it (R301). -/
def cmpG (r : Bool × FpFlags) : Word × FpFlags := (wd (b2n r.1), r.2)

/-- The code of fA with another sign bit (R299). -/
def withSign (a : Nat) (sign : Nat) : FpRes := (a % 2 ^ 63 + sign % 2 * 2 ^ 63, FpFlags.none)

/-- `FADD`. -/
def execFadd (c : Nat) (s : State) : Out := onCore c s (fun s => s.fpF c 0 (fun m a b => f64.fadd m a b))

/-- `FSUB`. -/
def execFsub (c : Nat) (s : State) : Out := onCore c s (fun s => s.fpF c 1 (fun m a b => f64.fsub m a b))

/-- `FMUL`. -/
def execFmul (c : Nat) (s : State) : Out := onCore c s (fun s => s.fpF c 2 (fun m a b => f64.fmul m a b))

/-- `FDIV`. -/
def execFdiv (c : Nat) (s : State) : Out := onCore c s (fun s => s.fpF c 3 (fun m a b => f64.fdiv m a b))

/-- `FSQRT`. -/
def execFsqrt (c : Nat) (s : State) : Out := onCore c s (fun s => s.fpF c 4 (fun m a _ => f64.fsqrt m a))

/-- `FMIN`. -/
def execFmin (c : Nat) (s : State) : Out := onCore c s (fun s => s.fpF c 5 (fun _ a b => f64.fmin a b))

/-- `FMAX`. -/
def execFmax (c : Nat) (s : State) : Out := onCore c s (fun s => s.fpF c 6 (fun _ a b => f64.fmax a b))

/-- `FCPS`. The magnitude of fA with the sign of fB. -/
def execFcps (c : Nat) (s : State) : Out := onCore c s (fun s => s.fpF c 7 (fun _ a b => withSign a (b / 2 ^ 63)))

/-- `FNEG`. -/
def execFneg (c : Nat) (s : State) : Out := onCore c s (fun s => s.fpF c 8 (fun _ a _ => withSign a (a / 2 ^ 63 + 1)))

/-- `FABS`. -/
def execFabs (c : Nat) (s : State) : Out := onCore c s (fun s => s.fpF c 9 (fun _ a _ => withSign a 0))

/-- `FEQ` (R301). -/
def execFeq (c : Nat) (s : State) : Out := onCore c s (fun s => s.fpG c 0x10 (fun _ a b => cmpG (f64.fcmp true Val.eqv a b)))

/-- `FLT` (R301). -/
def execFlt (c : Nat) (s : State) : Out := onCore c s (fun s => s.fpG c 0x11 (fun _ a b => cmpG (f64.fcmp false Val.lt a b)))

/-- `FLE` (R301). -/
def execFle (c : Nat) (s : State) : Out := onCore c s (fun s => s.fpG c 0x12 (fun _ a b => cmpG (f64.fcmp false Val.le a b)))

/-- An integer result as gD takes it (R302). -/
def intG (r : Int × FpFlags) : Word × FpFlags := (wdInt r.1, r.2)

/-- `FTOI` (R302). -/
def execFtoi (c : Nat) (s : State) : Out := onCore c s (fun s => s.fpG c 0x18 (fun m a _ => intG (f64.toInt m (-2 ^ 63) (2 ^ 63 - 1) a)))

/-- `FTOU` (R302). -/
def execFtou (c : Nat) (s : State) : Out := onCore c s (fun s => s.fpG c 0x19 (fun m a _ => intG (f64.toInt m 0 (2 ^ 64 - 1) a)))

/-- `ITOF`. -/
def execItof (c : Nat) (s : State) : Out := onCore c s (fun s => s.fpI c 0x1A (fun m a => f64.ofInt m a.toInt))

/-- `UTOF`. -/
def execUtof (c : Nat) (s : State) : Out := onCore c s (fun s => s.fpI c 0x1B (fun m a => f64.ofInt m a.toNat))

/-- `FMVG`. -/
def execFmvg (c : Nat) (s : State) : Out := onCore c s (fun s => s.fpG c 0x1C (fun _ a _ => (wd a, FpFlags.none)))

/-- `GMVF`. -/
def execGmvf (c : Nat) (s : State) : Out := onCore c s (fun s => s.fpI c 0x1D (fun _ a => (a.toNat, FpFlags.none)))

/-- `FCLS` (R302). -/
def execFcls (c : Nat) (s : State) : Out := onCore c s (fun s => s.fpG c 0x1E (fun _ a _ => (wd (f64.fclass a), FpFlags.none)))

/-- `FRND`: whether rounding a value that is not integral raises the inexact flag, IEEE 754 has operations of both kinds and the
spec names none: the flag is open (log 33). -/
def frndStep (c : Nat) (s : State) : State :=
  s.scRow c (0x28 * 64 + 0x1F) (fun s w =>
    let x := s.sc c
    let r := f64.rint (x.rnd w) (x.fr (hA w)).toNat
    let s := s.modSc c (fun x => (x.setF (hD w) (wd r.1.1)).addFlags r.1.2)
    let s := if r.2 && Config.rintInexact (x.fr (hA w)) then s.modSc c (fun x => x.addFlags { FpFlags.none with inx := true })
      else s
    s.scNext c)

/-- `FRND`. -/
def execFrnd (c : Nat) (s : State) : Out := onCore c s (frndStep c)

/-- A fused operation (R292): an invalid flag that IEEE 754 leaves open is a free value of the operands (log 33). -/
def State.scFma (s : State) (c op : Nat) (negP negC : Bool) : State :=
  s.scRow c (op * 64) (fun s w =>
    let x := s.sc c
    let a := (x.fr (hA w)).toNat
    let b := (x.fr (hB w)).toNat
    let e := (x.fr (hC w)).toNat
    let r := f64.ffma (rndMode (fld w 0 3) x.fcsr) negP negC a b e
    let s := s.modSc c (fun x => (x.setF (hD w) (wd r.1)).addFlags r.2)
    let s := if f64.fmaOpen a b e && Config.fmaInvalid a b e then s.modSc c (fun x => x.addFlags FpFlags.invalid) else s
    s.scNext c)

/-- `FMADD`: A × B + C. -/
def execFmadd (c : Nat) (s : State) : Out := onCore c s (fun s => s.scFma c 0x29 false false)

/-- `FMSUB`: A × B − C. -/
def execFmsub (c : Nat) (s : State) : Out := onCore c s (fun s => s.scFma c 0x2A false true)

/-- `FNMSUB`: −(A × B) + C. -/
def execFnmsub (c : Nat) (s : State) : Out := onCore c s (fun s => s.scFma c 0x2B true false)

/-- `FNMADD`: −(A × B) − C. -/
def execFnmadd (c : Nat) (s : State) : Out := onCore c s (fun s => s.scFma c 0x2C true true)

end Sys2Proof.Machine
end

