-- ==== Sys2Proof/Machine/Uu.lean ====
section
/-! DEFINITION. The update unit commands: `UU_LAYER_DONE` and `UU_STEP_WRITE`. -/

namespace Sys2Proof.Machine

/-- UU k takes the current layer of its entry to its end, as far as memory lets it (R427): descriptor, checks, rule, record. -/
def uuLayerStep (k : Nat) (s : State) : State :=
  let u := s.uu k
  if u.busy && u.act = .rest then (s.modUu k (fun u => { u with act := .read })).uuAct k else s

/-- `UU_LAYER_DONE`. -/
def execUuLayerDone (k : Nat) (s : State) : Out := onStack k s (uuLayerStep k)

/-- `UU_STEP_WRITE`. -/
def execUuStepWrite (k : Nat) (eta : BitVec 32) (s : State) : Out := onStack k s (uuStepWriteStep k eta)

end Sys2Proof.Machine
end

