-- ==== Sys2Proof/Machine/Vector.lean ====
section
/-! DEFINITION. The long-vector instructions of the solver cores (R342 to R368). -/

namespace Sys2Proof.Machine

/-! ## Control and masks (R342, R354, R355) -/

/-- `SETVL` (R342). -/
def setvlStep (c : Nat) (s : State) : State :=
  s.scAlu c (0x36 * 64) (fun x w =>
    let ew32 := hC w % 2 == 1
    let n := min (x.gr (hA w)).toNat (vlmax ew32)
    ({ x with vl := n, ew32 := ew32 } : Core).setG (hD w) (wd n))

/-- `SETVL`. -/
def execSetvl (c : Nat) (s : State) : Out := onCore c s (setvlStep c)

/-- `VEXT`. -/
def vextStep (c : Nat) (s : State) : State :=
  s.scAlu c (0x36 * 64 + 0x01) (fun x w =>
    let i := (x.gr (hB w)).toNat
    x.setG (hD w) (if vlmax x.ew32 ≤ i then 0 else wd (x.el (hA w) i)))

/-- `VEXT`. -/
def execVext (c : Nat) (s : State) : Out := onCore c s (vextStep c)

/-- `VINS`. -/
def vinsStep (c : Nat) (s : State) : State :=
  s.scAlu c (0x36 * 64 + 0x02) (fun x w =>
    let i := (x.gr (hB w)).toNat
    if vlmax x.ew32 ≤ i then x else x.setV (hD w) (putElem (ewBits x.ew32) (x.vr (hD w)) i (x.gr (hA w)).toNat))

/-- `VINS`. -/
def execVins (c : Nat) (s : State) : Out := onCore c s (vinsStep c)

/-- Elements 0 to `vl` − 1 of a register become one value (R355). -/
def Core.fillEl (x : Core) (r e : Nat) : Core :=
  x.setV r ((upTo x.vl).foldl (fun v i => putElem (ewBits x.ew32) v i e) (x.vr r))

/-- `VBCAST`. -/
def execVbcast (c : Nat) (s : State) : Out :=
  onCore c s (fun s => s.scAlu c (0x36 * 64 + 0x03) (fun x w => x.fillEl (hD w) (x.gr (hA w)).toNat))

/-- `VFBCAST`. -/
def execVfbcast (c : Nat) (s : State) : Out :=
  onCore c s (fun s => s.scAlu c (0x36 * 64 + 0x04) (fun x w => x.fillEl (hD w) (x.fr (hA w)).toNat))

/-- An operation on whole mask registers (R355). -/
def State.maskOp (s : State) (c fn : Nat) (f : Word → Word → Word) : State :=
  s.scAlu c (0x36 * 64 + fn) (fun x w => x.setM (hD w) (f (x.mr (hA w)) (x.mr (hB w))))

/-- `MAND`. -/
def execMand (c : Nat) (s : State) : Out := onCore c s (fun s => s.maskOp c 0x08 (fun a b => a &&& b))

/-- `MOR`. -/
def execMor (c : Nat) (s : State) : Out := onCore c s (fun s => s.maskOp c 0x09 (fun a b => a ||| b))

/-- `MXOR`. -/
def execMxor (c : Nat) (s : State) : Out := onCore c s (fun s => s.maskOp c 0x0A (fun a b => a ^^^ b))

/-- `MNOT`. -/
def execMnot (c : Nat) (s : State) : Out := onCore c s (fun s => s.maskOp c 0x0B (fun a _ => ~~~ a))

/-- The indices below `vl` whose bit of a mask register is set. -/
def Core.setBits (x : Core) (r : Nat) : List Nat := (upTo x.vl).filter (fun i => bit (x.mr r) i)

/-- `MPOP`. -/
def execMpop (c : Nat) (s : State) : Out :=
  onCore c s (fun s => s.scAlu c (0x36 * 64 + 0x0C) (fun x w => x.setG (hD w) (wd (x.setBits (hA w)).length)))

/-- `MFIRST`. -/
def mfirstStep (c : Nat) (s : State) : State :=
  s.scAlu c (0x36 * 64 + 0x0D) (fun x w =>
    x.setG (hD w) (match (x.setBits (hA w)).head? with | some i => wd i | none => BitVec.allOnes 64))

/-- `MFIRST`. -/
def execMfirst (c : Nat) (s : State) : Out := onCore c s (mfirstStep c)

/-- `MTOG`. -/
def execMtog (c : Nat) (s : State) : Out :=
  onCore c s (fun s => s.scAlu c (0x36 * 64 + 0x0E) (fun x w => x.setG (hD w) (x.mr (hA w))))

/-- `GTOM`. -/
def execGtom (c : Nat) (s : State) : Out :=
  onCore c s (fun s => s.scAlu c (0x36 * 64 + 0x0F) (fun x w => x.setM (hD w) (x.gr (hA w))))

/-! ## Element-wise FP operations (R350 to R352) -/

/-- `VFADD`. -/
def execVfadd (c : Nat) (s : State) : Out := onCore c s (fun s => s.vFp c 0 (fun t m a b _ => t.fadd m a b))

/-- `VFSUB`. -/
def execVfsub (c : Nat) (s : State) : Out := onCore c s (fun s => s.vFp c 1 (fun t m a b _ => t.fsub m a b))

/-- `VFMUL`. -/
def execVfmul (c : Nat) (s : State) : Out := onCore c s (fun s => s.vFp c 2 (fun t m a b _ => t.fmul m a b))

/-- `VFDIV`. -/
def execVfdiv (c : Nat) (s : State) : Out := onCore c s (fun s => s.vFp c 3 (fun t m a b _ => t.fdiv m a b))

/-- `VFSQRT`. -/
def execVfsqrt (c : Nat) (s : State) : Out := onCore c s (fun s => s.vFp c 4 (fun t m a _ _ => t.fsqrt m a))

/-- `VFMIN`. -/
def execVfmin (c : Nat) (s : State) : Out := onCore c s (fun s => s.vFp c 5 (fun t _ a b _ => t.fmin a b))

/-- `VFMAX`. -/
def execVfmax (c : Nat) (s : State) : Out := onCore c s (fun s => s.vFp c 6 (fun t _ a b _ => t.fmax a b))

/-- `VFMA`. -/
def execVfma (c : Nat) (s : State) : Out := onCore c s (fun s => s.vFma c 7 false false)

/-- `VFMS`. -/
def execVfms (c : Nat) (s : State) : Out := onCore c s (fun s => s.vFma c 8 false true)

/-- `VFNMA`. -/
def execVfnma (c : Nat) (s : State) : Out := onCore c s (fun s => s.vFma c 9 true false)

/-- An element with another sign bit (R350). -/
def elSign (ew32 : Bool) (a sign : Nat) : Nat :=
  let h := 2 ^ (ewBits ew32 - 1)
  a % h + sign % 2 * h

/-- An operation on the sign of each element (R350). -/
def State.vSign (s : State) (c fn : Nat) (f : Nat → Nat) : State :=
  s.scAlu c (0x34 * 64 + fn) (fun x w =>
    x.vMap w true (fun a _ _ => (elSign x.ew32 a (f (a / 2 ^ (ewBits x.ew32 - 1))), FpFlags.none)))

/-- `VFABS`. -/
def execVfabs (c : Nat) (s : State) : Out := onCore c s (fun s => s.vSign c 0x0A (fun _ => 0))

/-- `VFNEG`. -/
def execVfneg (c : Nat) (s : State) : Out := onCore c s (fun s => s.vSign c 0x0B (fun b => b + 1))

/-- `VFEQ` (R301, R353). -/
def execVfeq (c : Nat) (s : State) : Out := onCore c s (fun s => s.vFcmp c 0x0C true Val.eqv)

/-- `VFLT` (R301, R353). -/
def execVflt (c : Nat) (s : State) : Out := onCore c s (fun s => s.vFcmp c 0x0D false Val.lt)

/-- `VFLE` (R301, R353). -/
def execVfle (c : Nat) (s : State) : Out := onCore c s (fun s => s.vFcmp c 0x0E false Val.le)

/-- `VMERGE`: the mask chooses, and every element below `vl` is written (R350). -/
def vmergeStep (c : Nat) (s : State) : State :=
  s.scAlu c (0x34 * 64 + 0x0F) (fun x w =>
    let pick := fun i => if bit (x.mr (vM w)) i then x.el (hA w) i else x.opB w true i
    x.setV (hD w) ((upTo x.vl).foldl (fun v i => putElem (ewBits x.ew32) v i (pick i)) (x.vr (hD w))))

/-- `VMERGE`. -/
def execVmerge (c : Nat) (s : State) : Out := onCore c s (vmergeStep c)

/-- `VFTOI` (R302, R352). -/
def vftoiStep (c : Nat) (s : State) : State :=
  s.scAlu c (0x34 * 64 + 0x10) (fun x w =>
    let n := ewBits x.ew32
    x.vMap w true (fun a _ _ =>
      let r := (ewFmt x.ew32).toInt x.rm (-2 ^ (n - 1)) (2 ^ (n - 1) - 1) a
      ((wdInt r.1).toNat % 2 ^ n, r.2)))

/-- `VFTOI`. -/
def execVftoi (c : Nat) (s : State) : Out := onCore c s (vftoiStep c)

/-- `VITOF` (R352). -/
def vitofStep (c : Nat) (s : State) : State :=
  s.scAlu c (0x34 * 64 + 0x11) (fun x w =>
    x.vMap w true (fun a _ _ => (ewFmt x.ew32).ofInt x.rm (sext a (ewBits x.ew32))))

/-- `VITOF`. -/
def execVitof (c : Nat) (s : State) : Out := onCore c s (vitofStep c)

/-- The code of one format in another; a NaN is the canonical one (R352). -/
def convF (src dst : FFmt) (m : Rnd) (a : Nat) : FpRes :=
  match src.decode a with
  | .nan => (dst.nanC, if src.isSnan a then FpFlags.invalid else FpFlags.none)
  | v => dst.roundF m v

/-- `VFW`: FP32 elements widened (R350, R352). -/
def vfwStep (c : Nat) (s : State) : State :=
  s.scAlu c (0x34 * 64 + 0x12) (fun x w =>
    let r := (upTo x.vl).foldl (fun (acc : BitVec 2048 × FpFlags) i =>
      if x.active w i then
        let e := convF f32 f64 x.rm (elemOf 32 (x.vr (hA w)) i)
        (putElem 64 acc.1 i e.1, acc.2.or e.2)
      else acc) (x.vr (hD w), FpFlags.none)
    (x.setV (hD w) r.1).addFlags r.2)

/-- `VFW`. -/
def execVfw (c : Nat) (s : State) : Out := onCore c s (vfwStep c)

/-- `VFN`: FP64 elements narrowed (R350, R352). -/
def vfnStep (c : Nat) (s : State) : State :=
  s.scAlu c (0x34 * 64 + 0x13) (fun x w =>
    let r := (upTo x.vl).foldl (fun (acc : BitVec 2048 × FpFlags) i =>
      if x.active w i then
        let e := convF f64 f32 x.rm (elemOf 64 (x.vr (hA w)) i)
        (putElem 32 acc.1 i e.1, acc.2.or e.2)
      else acc) (x.vr (hD w), FpFlags.none)
    (x.setV (hD w) r.1).addFlags r.2)

/-- `VFN`. -/
def execVfn (c : Nat) (s : State) : Out := onCore c s (vfnStep c)

/-! ## Element-wise integer operations (R350, R351) -/

/-- `VADD`. -/
def execVadd (c : Nat) (s : State) : Out := onCore c s (fun s => s.vInt c 0x20 (fun n a b => (a + b) % 2 ^ n))

/-- `VSUB`. -/
def execVsub (c : Nat) (s : State) : Out := onCore c s (fun s => s.vInt c 0x21 (fun n a b => (a + 2 ^ n - b) % 2 ^ n))

/-- `VMUL`. -/
def execVmul (c : Nat) (s : State) : Out := onCore c s (fun s => s.vInt c 0x22 (fun n a b => a * b % 2 ^ n))

/-- `VAND`. -/
def execVand (c : Nat) (s : State) : Out := onCore c s (fun s => s.vInt c 0x23 (fun _ a b => a &&& b))

/-- `VOR`. -/
def execVor (c : Nat) (s : State) : Out := onCore c s (fun s => s.vInt c 0x24 (fun _ a b => a ||| b))

/-- `VXOR`. -/
def execVxor (c : Nat) (s : State) : Out := onCore c s (fun s => s.vInt c 0x25 (fun _ a b => a ^^^ b))

/-- `VSLL`. -/
def execVsll (c : Nat) (s : State) : Out := onCore c s (fun s => s.vInt c 0x26 (fun n a b => a * 2 ^ (b % n) % 2 ^ n))

/-- `VSRL`. -/
def execVsrl (c : Nat) (s : State) : Out := onCore c s (fun s => s.vInt c 0x27 (fun n a b => a / 2 ^ (b % n)))

/-- `VSRA`. -/
def execVsra (c : Nat) (s : State) : Out := onCore c s (fun s => s.vInt c 0x28 (fun n a b => (wdInt (sext a n / 2 ^ (b % n))).toNat % 2 ^ n))

/-- `VMIN`. -/
def execVmin (c : Nat) (s : State) : Out := onCore c s (fun s => s.vInt c 0x29 (fun n a b => if sext b n < sext a n then b else a))

/-- `VMAX`. -/
def execVmax (c : Nat) (s : State) : Out := onCore c s (fun s => s.vInt c 0x2A (fun n a b => if sext a n < sext b n then b else a))

/-- `VSEQ` (R353). -/
def execVseq (c : Nat) (s : State) : Out := onCore c s (fun s => s.vIcmp c 0x2B (fun _ a b => a == b))

/-- `VSLT` (R353). -/
def execVslt (c : Nat) (s : State) : Out := onCore c s (fun s => s.vIcmp c 0x2C (fun n a b => decide (sext a n < sext b n)))

/-- The active elements of vD become `f i`. -/
def Core.vIdx (x : Core) (w : Word) (f : Nat → Nat) : Core :=
  x.setV (hD w) ((upTo x.vl).foldl (fun v i => if x.active w i then putElem (ewBits x.ew32) v i (f i) else v) (x.vr (hD w)))

/-- `VIDX`. -/
def execVidx (c : Nat) (s : State) : Out := onCore c s (fun s => s.scAlu c (0x34 * 64 + 0x2D) (fun x w => x.vIdx w (fun i => i)))

/-! ## Permutes and reductions (R356 to R358) -/

/-- Element i of vA, or 0 beyond `VLMAX`. -/
def Core.elOr0 (x : Core) (r i : Nat) : Nat := if vlmax x.ew32 ≤ i then 0 else x.el r i

/-- `VPERM`. -/
def execVperm (c : Nat) (s : State) : Out :=
  onCore c s (fun s => s.scAlu c (0x37 * 64) (fun x w => x.vIdx w (fun i => x.elOr0 (hA w) (x.el (hB w) i))))

/-- `VSHUP`: an active element below gB keeps its value. -/
def vshupStep (c : Nat) (s : State) : State :=
  s.scAlu c (0x37 * 64 + 0x01) (fun x w =>
    let k := (x.gr (hB w)).toNat
    x.vIdx w (fun i => if i < k then x.el (hD w) i else x.el (hA w) (i - k)))

/-- `VSHUP`. -/
def execVshup (c : Nat) (s : State) : Out := onCore c s (vshupStep c)

/-- `VSHDN`. -/
def execVshdn (c : Nat) (s : State) : Out :=
  onCore c s (fun s => s.scAlu c (0x37 * 64 + 0x02) (fun x w => x.vIdx w (fun i => x.elOr0 (hA w) (i + (x.gr (hB w)).toNat))))

/-- `VPACK`. -/
def vpackStep (c : Nat) (s : State) : State :=
  s.scAlu c (0x37 * 64 + 0x03) (fun x w =>
    let act := ((upTo x.vl).filter (fun i => x.active w i)).map (fun i => x.el (hA w) i)
    x.setV (hD w) ((List.range act.length).foldl (fun v j => putElem (ewBits x.ew32) v j (nth act 0 j)) (x.vr (hD w))))

/-- `VPACK`. -/
def execVpack (c : Nat) (s : State) : Out := onCore c s (vpackStep c)

/-- `VFSUMT` (R357). -/
def execVfsumt (c : Nat) (s : State) : Out := onCore c s (fun s => s.vTree c 0x08 (fun t m a b => t.fadd m a b))

/-- `VFSUMS` (R358). -/
def execVfsums (c : Nat) (s : State) : Out := onCore c s (fun s => s.scAlu c (0x37 * 64 + 0x09) (fun x w => x.seqSum w))

/-- `VFMAXT` (R357). -/
def execVfmaxt (c : Nat) (s : State) : Out := onCore c s (fun s => s.vTree c 0x0A (fun t _ a b => t.fmax a b))

/-- `VFMINT` (R357). -/
def execVfmint (c : Nat) (s : State) : Out := onCore c s (fun s => s.vTree c 0x0B (fun t _ a b => t.fmin a b))

/-- `VSUMT` (R356). -/
def vsumtStep (c : Nat) (s : State) : State :=
  s.scAlu c (0x37 * 64 + 0x0C) (fun x w =>
    let sum := (upTo x.vl).foldl (fun n i => if x.active w i then n + x.el (hA w) i else n) (x.gr (hB w)).toNat
    x.setG (hD w) (wdInt (sext sum (ewBits x.ew32))))

/-- `VSUMT`. -/
def execVsumt (c : Nat) (s : State) : Out := onCore c s (vsumtStep c)

/-! ## Loads and stores (R360 to R368) -/

/-- `VLD`. -/
def execVld (c : Nat) (s : State) : Out := onCore c s (fun s => s.vmemRow c 0)

/-- `VLDS`. -/
def execVlds (c : Nat) (s : State) : Out := onCore c s (fun s => s.vmemRow c 1)

/-- `VLDX`. -/
def execVldx (c : Nat) (s : State) : Out := onCore c s (fun s => s.vmemRow c 2)

/-- `VST`. -/
def execVst (c : Nat) (s : State) : Out := onCore c s (fun s => s.vmemRow c 4)

/-- `VSTS`. -/
def execVsts (c : Nat) (s : State) : Out := onCore c s (fun s => s.vmemRow c 5)

/-- `VSTX`. -/
def execVstx (c : Nat) (s : State) : Out := onCore c s (fun s => s.vmemRow c 6)

end Sys2Proof.Machine
end

