-- ==== Sys2Proof/Machine/Dispatch.lean ====
section
/-! DEFINITION. The meaning of every command: one arm for each constructor of `Instr`, each a direct call. -/

namespace Sys2Proof.Machine

/-- The effect of one command on the package, everything but the queue of waiting commands. -/
def exec (i : Instr) (s : State) : Host.Outcome State Fault Refusal :=
  match i with
  | .ccNop n => Sys2Proof.Machine.execCcNop n s
  | .ccAdd n => Sys2Proof.Machine.execCcAdd n s
  | .ccSub n => Sys2Proof.Machine.execCcSub n s
  | .ccAnd n => Sys2Proof.Machine.execCcAnd n s
  | .ccOr n => Sys2Proof.Machine.execCcOr n s
  | .ccXor n => Sys2Proof.Machine.execCcXor n s
  | .ccShl n => Sys2Proof.Machine.execCcShl n s
  | .ccShr n => Sys2Proof.Machine.execCcShr n s
  | .ccSra n => Sys2Proof.Machine.execCcSra n s
  | .ccMul n => Sys2Proof.Machine.execCcMul n s
  | .ccAddi n => Sys2Proof.Machine.execCcAddi n s
  | .ccLi n => Sys2Proof.Machine.execCcLi n s
  | .ccMovhi n => Sys2Proof.Machine.execCcMovhi n s
  | .ccFcmp n => Sys2Proof.Machine.execCcFcmp n s
  | .movu n => Sys2Proof.Machine.execMovu n s
  | .movlc n => Sys2Proof.Machine.execMovlc n s
  | .wrlc n => Sys2Proof.Machine.execWrlc n s
  | .rdtime n => Sys2Proof.Machine.execRdtime n s
  | .ccLd n => Sys2Proof.Machine.execCcLd n s
  | .ccSt n => Sys2Proof.Machine.execCcSt n s
  | .ccBr n => Sys2Proof.Machine.execCcBr n s
  | .ccJal n => Sys2Proof.Machine.execCcJal n s
  | .jr n => Sys2Proof.Machine.execJr n s
  | .loop n => Sys2Proof.Machine.execLoop n s
  | .lexit n => Sys2Proof.Machine.execLexit n s
  | .halt n => Sys2Proof.Machine.execHalt n s
  | .mark n e => Sys2Proof.Machine.execMark n e s
  | .wait n e => Sys2Proof.Machine.execWait n e s
  | .waitsum n => Sys2Proof.Machine.execWaitsum n s
  | .echk n => Sys2Proof.Machine.execEchk n s
  | .qpush n => Sys2Proof.Machine.execQpush n s
  | .engineIssue n => Sys2Proof.Machine.execEngineIssue n s
  | .ccWatchdog n => Sys2Proof.Machine.execCcWatchdog n s
  | .mma n => Sys2Proof.Machine.execMma n s
  | .msave n => Sys2Proof.Machine.execMsave n s
  | .mrest n => Sys2Proof.Machine.execMrest n s
  | .mdrop n => Sys2Proof.Machine.execMdrop n s
  | .meDecision n b => Sys2Proof.Machine.execMeDecision n b s
  | .meCommit n b => Sys2Proof.Machine.execMeCommit n b s
  | .wick n => Sys2Proof.Machine.execWick n s
  | .eload n => Sys2Proof.Machine.execEload n s
  | .estore n => Sys2Proof.Machine.execEstore n s
  | .eparam n => Sys2Proof.Machine.execEparam n s
  | .wload n => Sys2Proof.Machine.execWload n s
  | .eeCommit n => Sys2Proof.Machine.execEeCommit n s
  | .srclr n => Sys2Proof.Machine.execSrclr n s
  | .sread n => Sys2Proof.Machine.execSread n s
  | .sreadComplete n => Sys2Proof.Machine.execSreadComplete n s
  | .dload n => Sys2Proof.Machine.execDload n s
  | .dstore n => Sys2Proof.Machine.execDstore n s
  | .dcopy n => Sys2Proof.Machine.execDcopy n s
  | .dmComplete n j => Sys2Proof.Machine.execDmComplete n j s
  | .cmdEnd pd l => Sys2Proof.Machine.execCmdEnd pd l s
  | .cmdNop pd l => Sys2Proof.Machine.execCmdNop pd l s
  | .cmdFence pd l => Sys2Proof.Machine.execCmdFence pd l s
  | .fenceTime pd l => Sys2Proof.Machine.execFenceTime pd l s
  | .loadProgram pd l => Sys2Proof.Machine.execLoadProgram pd l s
  | .bindQueues pd l => Sys2Proof.Machine.execBindQueues pd l s
  | .launchAt pd l => Sys2Proof.Machine.execLaunchAt pd l s
  | .setRegionKey pd l => Sys2Proof.Machine.execSetRegionKey pd l s
  | .collective pd l => Sys2Proof.Machine.execCollective pd l s
  | .lseSolve pd l => Sys2Proof.Machine.execLseSolve pd l s
  | .uuApply pd l => Sys2Proof.Machine.execUuApply pd l s
  | .snapshotDeclare pd l => Sys2Proof.Machine.execSnapshotDeclare pd l s
  | .snapshotTake pd l => Sys2Proof.Machine.execSnapshotTake pd l s
  | .snapshotCancel pd l => Sys2Proof.Machine.execSnapshotCancel pd l s
  | .snapshotRestore pd l => Sys2Proof.Machine.execSnapshotRestore pd l s
  | .digest pd l => Sys2Proof.Machine.execDigest pd l s
  | .listComplete pd l => Sys2Proof.Machine.execListComplete pd l s
  | .llFire d => Sys2Proof.Machine.execLlFire d s
  | .llReservationLapse d => Sys2Proof.Machine.execLlReservationLapse d s
  | .llCancel d tag => Sys2Proof.Machine.execLlCancel d tag s
  | .addR c => Sys2Proof.Machine.execAddR c s
  | .subR c => Sys2Proof.Machine.execSubR c s
  | .andR c => Sys2Proof.Machine.execAndR c s
  | .orR c => Sys2Proof.Machine.execOrR c s
  | .xorR c => Sys2Proof.Machine.execXorR c s
  | .sll c => Sys2Proof.Machine.execSll c s
  | .srl c => Sys2Proof.Machine.execSrl c s
  | .sra c => Sys2Proof.Machine.execSra c s
  | .slt c => Sys2Proof.Machine.execSlt c s
  | .sltu c => Sys2Proof.Machine.execSltu c s
  | .mul c => Sys2Proof.Machine.execMul c s
  | .mulh c => Sys2Proof.Machine.execMulh c s
  | .mulhu c => Sys2Proof.Machine.execMulhu c s
  | .div c => Sys2Proof.Machine.execDiv c s
  | .divu c => Sys2Proof.Machine.execDivu c s
  | .rem c => Sys2Proof.Machine.execRem c s
  | .remu c => Sys2Proof.Machine.execRemu c s
  | .clz c => Sys2Proof.Machine.execClz c s
  | .popc c => Sys2Proof.Machine.execPopc c s
  | .minR c => Sys2Proof.Machine.execMinR c s
  | .maxR c => Sys2Proof.Machine.execMaxR c s
  | .addi c => Sys2Proof.Machine.execAddi c s
  | .andi c => Sys2Proof.Machine.execAndi c s
  | .ori c => Sys2Proof.Machine.execOri c s
  | .xori c => Sys2Proof.Machine.execXori c s
  | .shi c => Sys2Proof.Machine.execShi c s
  | .slti c => Sys2Proof.Machine.execSlti c s
  | .lhi c => Sys2Proof.Machine.execLhi c s
  | .pcrel c => Sys2Proof.Machine.execPcrel c s
  | .ldb c => Sys2Proof.Machine.execLdb c s
  | .ldbu c => Sys2Proof.Machine.execLdbu c s
  | .ldh c => Sys2Proof.Machine.execLdh c s
  | .ldhu c => Sys2Proof.Machine.execLdhu c s
  | .ldw c => Sys2Proof.Machine.execLdw c s
  | .ldwu c => Sys2Proof.Machine.execLdwu c s
  | .ldd c => Sys2Proof.Machine.execLdd c s
  | .fld c => Sys2Proof.Machine.execFld c s
  | .stb c => Sys2Proof.Machine.execStb c s
  | .sth c => Sys2Proof.Machine.execSth c s
  | .stw c => Sys2Proof.Machine.execStw c s
  | .std c => Sys2Proof.Machine.execStd c s
  | .fst c => Sys2Proof.Machine.execFst c s
  | .beq c => Sys2Proof.Machine.execBeq c s
  | .bne c => Sys2Proof.Machine.execBne c s
  | .blt c => Sys2Proof.Machine.execBlt c s
  | .bge c => Sys2Proof.Machine.execBge c s
  | .bltu c => Sys2Proof.Machine.execBltu c s
  | .bgeu c => Sys2Proof.Machine.execBgeu c s
  | .jal c => Sys2Proof.Machine.execJal c s
  | .jalr c => Sys2Proof.Machine.execJalr c s
  | .fadd c => Sys2Proof.Machine.execFadd c s
  | .fsub c => Sys2Proof.Machine.execFsub c s
  | .fmul c => Sys2Proof.Machine.execFmul c s
  | .fdiv c => Sys2Proof.Machine.execFdiv c s
  | .fsqrt c => Sys2Proof.Machine.execFsqrt c s
  | .fmin c => Sys2Proof.Machine.execFmin c s
  | .fmax c => Sys2Proof.Machine.execFmax c s
  | .fcps c => Sys2Proof.Machine.execFcps c s
  | .fneg c => Sys2Proof.Machine.execFneg c s
  | .fabs c => Sys2Proof.Machine.execFabs c s
  | .feq c => Sys2Proof.Machine.execFeq c s
  | .flt c => Sys2Proof.Machine.execFlt c s
  | .fle c => Sys2Proof.Machine.execFle c s
  | .ftoi c => Sys2Proof.Machine.execFtoi c s
  | .ftou c => Sys2Proof.Machine.execFtou c s
  | .itof c => Sys2Proof.Machine.execItof c s
  | .utof c => Sys2Proof.Machine.execUtof c s
  | .fmvg c => Sys2Proof.Machine.execFmvg c s
  | .gmvf c => Sys2Proof.Machine.execGmvf c s
  | .fcls c => Sys2Proof.Machine.execFcls c s
  | .frnd c => Sys2Proof.Machine.execFrnd c s
  | .fmadd c => Sys2Proof.Machine.execFmadd c s
  | .fmsub c => Sys2Proof.Machine.execFmsub c s
  | .fnmsub c => Sys2Proof.Machine.execFnmsub c s
  | .fnmadd c => Sys2Proof.Machine.execFnmadd c s
  | .aadd c => Sys2Proof.Machine.execAadd c s
  | .afadd c => Sys2Proof.Machine.execAfadd c s
  | .amax c => Sys2Proof.Machine.execAmax c s
  | .amin c => Sys2Proof.Machine.execAmin c s
  | .aswap c => Sys2Proof.Machine.execAswap c s
  | .acas c => Sys2Proof.Machine.execAcas c s
  | .fence c => Sys2Proof.Machine.execFence c s
  | .fencei c => Sys2Proof.Machine.execFencei c s
  | .sys c => Sys2Proof.Machine.execSys c s
  | .brk c => Sys2Proof.Machine.execBrk c s
  | .eret c => Sys2Proof.Machine.execEret c s
  | .wfe c => Sys2Proof.Machine.execWfe c s
  | .wfeWake c => Sys2Proof.Machine.execWfeWake c s
  | .sig c => Sys2Proof.Machine.execSig c s
  | .srr c => Sys2Proof.Machine.execSrr c s
  | .srw c => Sys2Proof.Machine.execSrw c s
  | .post c => Sys2Proof.Machine.execPost c s
  | .interruptTake c => Sys2Proof.Machine.execInterruptTake c s
  | .tcmpReached c => Sys2Proof.Machine.execTcmpReached c s
  | .setvl c => Sys2Proof.Machine.execSetvl c s
  | .vext c => Sys2Proof.Machine.execVext c s
  | .vins c => Sys2Proof.Machine.execVins c s
  | .vbcast c => Sys2Proof.Machine.execVbcast c s
  | .vfbcast c => Sys2Proof.Machine.execVfbcast c s
  | .mand c => Sys2Proof.Machine.execMand c s
  | .mor c => Sys2Proof.Machine.execMor c s
  | .mxor c => Sys2Proof.Machine.execMxor c s
  | .mnot c => Sys2Proof.Machine.execMnot c s
  | .mpop c => Sys2Proof.Machine.execMpop c s
  | .mfirst c => Sys2Proof.Machine.execMfirst c s
  | .mtog c => Sys2Proof.Machine.execMtog c s
  | .gtom c => Sys2Proof.Machine.execGtom c s
  | .vfadd c => Sys2Proof.Machine.execVfadd c s
  | .vfsub c => Sys2Proof.Machine.execVfsub c s
  | .vfmul c => Sys2Proof.Machine.execVfmul c s
  | .vfdiv c => Sys2Proof.Machine.execVfdiv c s
  | .vfsqrt c => Sys2Proof.Machine.execVfsqrt c s
  | .vfmin c => Sys2Proof.Machine.execVfmin c s
  | .vfmax c => Sys2Proof.Machine.execVfmax c s
  | .vfma c => Sys2Proof.Machine.execVfma c s
  | .vfms c => Sys2Proof.Machine.execVfms c s
  | .vfnma c => Sys2Proof.Machine.execVfnma c s
  | .vfabs c => Sys2Proof.Machine.execVfabs c s
  | .vfneg c => Sys2Proof.Machine.execVfneg c s
  | .vfeq c => Sys2Proof.Machine.execVfeq c s
  | .vflt c => Sys2Proof.Machine.execVflt c s
  | .vfle c => Sys2Proof.Machine.execVfle c s
  | .vmerge c => Sys2Proof.Machine.execVmerge c s
  | .vftoi c => Sys2Proof.Machine.execVftoi c s
  | .vitof c => Sys2Proof.Machine.execVitof c s
  | .vfw c => Sys2Proof.Machine.execVfw c s
  | .vfn c => Sys2Proof.Machine.execVfn c s
  | .vadd c => Sys2Proof.Machine.execVadd c s
  | .vsub c => Sys2Proof.Machine.execVsub c s
  | .vmul c => Sys2Proof.Machine.execVmul c s
  | .vand c => Sys2Proof.Machine.execVand c s
  | .vor c => Sys2Proof.Machine.execVor c s
  | .vxor c => Sys2Proof.Machine.execVxor c s
  | .vsll c => Sys2Proof.Machine.execVsll c s
  | .vsrl c => Sys2Proof.Machine.execVsrl c s
  | .vsra c => Sys2Proof.Machine.execVsra c s
  | .vmin c => Sys2Proof.Machine.execVmin c s
  | .vmax c => Sys2Proof.Machine.execVmax c s
  | .vseq c => Sys2Proof.Machine.execVseq c s
  | .vslt c => Sys2Proof.Machine.execVslt c s
  | .vidx c => Sys2Proof.Machine.execVidx c s
  | .vperm c => Sys2Proof.Machine.execVperm c s
  | .vshup c => Sys2Proof.Machine.execVshup c s
  | .vshdn c => Sys2Proof.Machine.execVshdn c s
  | .vpack c => Sys2Proof.Machine.execVpack c s
  | .vfsumt c => Sys2Proof.Machine.execVfsumt c s
  | .vfsums c => Sys2Proof.Machine.execVfsums c s
  | .vfmaxt c => Sys2Proof.Machine.execVfmaxt c s
  | .vfmint c => Sys2Proof.Machine.execVfmint c s
  | .vsumt c => Sys2Proof.Machine.execVsumt c s
  | .vld c => Sys2Proof.Machine.execVld c s
  | .vlds c => Sys2Proof.Machine.execVlds c s
  | .vldx c => Sys2Proof.Machine.execVldx c s
  | .vst c => Sys2Proof.Machine.execVst c s
  | .vsts c => Sys2Proof.Machine.execVsts c s
  | .vstx c => Sys2Proof.Machine.execVstx c s
  | .lsePhaseEnd n => Sys2Proof.Machine.execLsePhaseEnd n s
  | .lsePoll n => Sys2Proof.Machine.execLsePoll n s
  | .lseDeadline n => Sys2Proof.Machine.execLseDeadline n s
  | .lseStop n => Sys2Proof.Machine.execLseStop n s
  | .lseDrop n => Sys2Proof.Machine.execLseDrop n s
  | .uuLayerDone k => Sys2Proof.Machine.execUuLayerDone k s
  | .uuStepWrite k eta => Sys2Proof.Machine.execUuStepWrite k eta s
  | .hbmAccess r => Sys2Proof.Machine.execHbmAccess r s
  | .priorityRead r => Sys2Proof.Machine.execPriorityRead r s
  | .cowGranuleStaged k g => Sys2Proof.Machine.execCowGranuleStaged k g s
  | .partitionRefill k => Sys2Proof.Machine.execPartitionRefill k s
  | .priorityBucketRefill k => Sys2Proof.Machine.execPriorityBucketRefill k s
  | .patrolScrub k flips => Sys2Proof.Machine.execPatrolScrub k flips s
  | .tempSample k temp => Sys2Proof.Machine.execTempSample k temp s
  | .refresh k => Sys2Proof.Machine.execRefresh k s
  | .tenantRetag g tag => Sys2Proof.Machine.execTenantRetag g tag s
  | .mcMapWrite k v => Sys2Proof.Machine.execMcMapWrite k v s
  | .mcPartWrite k p v => Sys2Proof.Machine.execMcPartWrite k p v s
  | .mcRefreshWrite k v => Sys2Proof.Machine.execMcRefreshWrite k v s
  | .linkTrained p peer => Sys2Proof.Machine.execLinkTrained p peer s
  | .linkKeyed p x => Sys2Proof.Machine.execLinkKeyed p x s
  | .laneFail p => Sys2Proof.Machine.execLaneFail p s
  | .flStateEnWrite p v => Sys2Proof.Machine.execFlStateEnWrite p v s
  | .rekey p => Sys2Proof.Machine.execRekey p s
  | .frameReceive p x => Sys2Proof.Machine.execFrameReceive p x s
  | .frameAgeDrop f j => Sys2Proof.Machine.execFrameAgeDrop f j s
  | .resendTimeout seq => Sys2Proof.Machine.execResendTimeout seq s
  | .busyRetry seq => Sys2Proof.Machine.execBusyRetry seq s
  | .jonathRead f => Sys2Proof.Machine.execJonathRead f s
  | .get f => Sys2Proof.Machine.execGet f s
  | .jonathWrite f => Sys2Proof.Machine.execJonathWrite f s
  | .jonathAadd f => Sys2Proof.Machine.execJonathAadd f s
  | .jonathAfadd f => Sys2Proof.Machine.execJonathAfadd f s
  | .jonathAmax f => Sys2Proof.Machine.execJonathAmax f s
  | .jonathAmin f => Sys2Proof.Machine.execJonathAmin f s
  | .jonathAswap f => Sys2Proof.Machine.execJonathAswap f s
  | .jonathAcas f => Sys2Proof.Machine.execJonathAcas f s
  | .jonathResp f => Sys2Proof.Machine.execJonathResp f s
  | .nak f => Sys2Proof.Machine.execNak f s
  | .getdata f => Sys2Proof.Machine.execGetdata f s
  | .haApply f => Sys2Proof.Machine.execHaApply f s
  | .haEntryExpiry f spkg seq => Sys2Proof.Machine.execHaEntryExpiry f spkg seq s
  | .crd f => Sys2Proof.Machine.execCrd f s
  | .crdx f => Sys2Proof.Machine.execCrdx f s
  | .cupg f => Sys2Proof.Machine.execCupg f s
  | .cwb f => Sys2Proof.Machine.execCwb f s
  | .cevict f => Sys2Proof.Machine.execCevict f s
  | .cinv f => Sys2Proof.Machine.execCinv f s
  | .cfwd f => Sys2Proof.Machine.execCfwd f s
  | .cdata f => Sys2Proof.Machine.execCdata f s
  | .frEpochCurWrite f e => Sys2Proof.Machine.execFrEpochCurWrite f e s
  | .frEpochBankWrite f b e => Sys2Proof.Machine.execFrEpochBankWrite f b e s
  | .frEpochRetire f => Sys2Proof.Machine.execFrEpochRetire f s
  | .epochBankInvalidate f => Sys2Proof.Machine.execEpochBankInvalidate f s
  | .frRtDataWrite f v => Sys2Proof.Machine.execFrRtDataWrite f v s
  | .tmExchange => Sys2Proof.Machine.execTmExchange s
  | .treq f => Sys2Proof.Machine.execTreq f s
  | .tresp f => Sys2Proof.Machine.execTresp f s
  | .packageTimeCompare d => Sys2Proof.Machine.execPackageTimeCompare d s
  | .tmLockTimeout => Sys2Proof.Machine.execTmLockTimeout s
  | .tmCtrlWrite v => Sys2Proof.Machine.execTmCtrlWrite v s
  | .ptpMessage f m => Sys2Proof.Machine.execPtpMessage f m s
  | .ppsEdge => Sys2Proof.Machine.execPpsEdge s
  | .ppsLost => Sys2Proof.Machine.execPpsLost s
  | .syncPulse => Sys2Proof.Machine.execSyncPulse s
  | .cpart f => Sys2Proof.Machine.execCpart f s
  | .cgath f => Sys2Proof.Machine.execCgath f s
  | .cring f => Sys2Proof.Machine.execCring f s
  | .cdone f => Sys2Proof.Machine.execCdone f s
  | .cabort f => Sys2Proof.Machine.execCabort f s
  | .cuTimeout f => Sys2Proof.Machine.execCuTimeout f s
  | .jstart f sender => Sys2Proof.Machine.execJstart f sender s
  | .jack f => Sys2Proof.Machine.execJack f s
  | .jackDeadline => Sys2Proof.Machine.execJackDeadline s
  | .jobDecision => Sys2Proof.Machine.execJobDecision s
  | .jcancel f => Sys2Proof.Machine.execJcancel f s
  | .jmread f => Sys2Proof.Machine.execJmread f s
  | .teardownDone => Sys2Proof.Machine.execTeardownDone s
  | .jobMapping => Sys2Proof.Machine.execJobMapping s
  | .snapshotCut => Sys2Proof.Machine.execSnapshotCut s
  | .snapshotCommit => Sys2Proof.Machine.execSnapshotCommit s
  | .snapshotWant => Sys2Proof.Machine.execSnapshotWant s
  | .attestReport h nonce => Sys2Proof.Machine.execAttestReport h nonce s
  | .attestKeypkg h pkg => Sys2Proof.Machine.execAttestKeypkg h pkg s
  | .attestNonce h => Sys2Proof.Machine.execAttestNonce h s
  | .attestToken h tok => Sys2Proof.Machine.execAttestToken h tok s
  | .secSvnAdvance => Sys2Proof.Machine.execSecSvnAdvance s
  | .buwenAck h => Sys2Proof.Machine.execBuwenAck h s
  | .hello h body => Sys2Proof.Machine.execHello h body s
  | .launchList h pd list start record tag => Sys2Proof.Machine.execLaunchList h pd list start record tag s
  | .launchJobStart h pd body => Sys2Proof.Machine.execLaunchJobStart h pd body s
  | .launchTeardown h pd job pkg => Sys2Proof.Machine.execLaunchTeardown h pd job pkg s
  | .launchBoot h pd len => Sys2Proof.Machine.execLaunchBoot h pd len s
  | .launchReset h pd pkg => Sys2Proof.Machine.execLaunchReset h pd pkg s
  | .launchSnuff h pd pkg => Sys2Proof.Machine.execLaunchSnuff h pd pkg s
  | .buwenWrite h addr data => Sys2Proof.Machine.execBuwenWrite h addr data s
  | .buwenRead h addr len => Sys2Proof.Machine.execBuwenRead h addr len s
  | .buwenRegWrite h addr val => Sys2Proof.Machine.execBuwenRegWrite h addr val s
  | .buwenRegRead h addr => Sys2Proof.Machine.execBuwenRegRead h addr s
  | .buwenRto f sess => Sys2Proof.Machine.execBuwenRto f sess s
  | .ackTimer f sess => Sys2Proof.Machine.execAckTimer f sess s
  | .sessionIdle f sess => Sys2Proof.Machine.execSessionIdle f sess s
  | .announce f => Sys2Proof.Machine.execAnnounce f s
  | .pfcPause f prio on => Sys2Proof.Machine.execPfcPause f prio on s
  | .hostControlFrame f x => Sys2Proof.Machine.execHostControlFrame f x s
  | .mregRead f => Sys2Proof.Machine.execMregRead f s
  | .mregWrite f => Sys2Proof.Machine.execMregWrite f s
  | .mreset f => Sys2Proof.Machine.execMreset f s
  | .mtear f => Sys2Proof.Machine.execMtear f s
  | .snuff f => Sys2Proof.Machine.execSnuff f s
  | .snuffN => Sys2Proof.Machine.execSnuffN s
  | .selfTest j => Sys2Proof.Machine.execSelfTest j s
  | .selfTestDone j lasting => Sys2Proof.Machine.execSelfTestDone j lasting s
  | .warningWindow => Sys2Proof.Machine.execWarningWindow s
  | .budgetPeriod => Sys2Proof.Machine.execBudgetPeriod s
  | .extest bits => Sys2Proof.Machine.execExtest bits s
  | .samplePreload bits => Sys2Proof.Machine.execSamplePreload bits s
  | .idcode => Sys2Proof.Machine.execIdcode s
  | .scanSel v => Sys2Proof.Machine.execScanSel v s
  | .scanDr bits => Sys2Proof.Machine.execScanDr bits s
  | .memAddr a => Sys2Proof.Machine.execMemAddr a s
  | .memData wr data => Sys2Proof.Machine.execMemData wr data s
  | .regData wr v => Sys2Proof.Machine.execRegData wr v s
  | .bypass bit => Sys2Proof.Machine.execBypass bit s
  | .dbgHalt c => Sys2Proof.Machine.execDbgHalt c s
  | .dbgResume c => Sys2Proof.Machine.execDbgResume c s
  | .dbgStep c => Sys2Proof.Machine.execDbgStep c s
  | .dbgScregWrite v => Sys2Proof.Machine.execDbgScregWrite v s
  | .dbgRingBaseWrite d v => Sys2Proof.Machine.execDbgRingBaseWrite d v s
  | .wickMemoryWrite n off v => Sys2Proof.Machine.execWickMemoryWrite n off v s
  | .pwrokRise strap => Sys2Proof.Machine.execPwrokRise strap s
  | .resetN low => Sys2Proof.Machine.execResetN low s
  | .pwrCtrlReset => Sys2Proof.Machine.execPwrCtrlReset s
  | .pwrCtrlRelease => Sys2Proof.Machine.execPwrCtrlRelease s
  | .pwrDomainWrite v => Sys2Proof.Machine.execPwrDomainWrite v s
  | .domainOnComplete k => Sys2Proof.Machine.execDomainOnComplete k s
  | .frequencyStep d tj => Sys2Proof.Machine.execFrequencyStep d tj s
  | .pmbusPoll r => Sys2Proof.Machine.execPmbusPoll r s
  | .pmbAlert d => Sys2Proof.Machine.execPmbAlert d s
  | .droop d edges => Sys2Proof.Machine.execDroop d edges s
  | .pllUnlock d => Sys2Proof.Machine.execPllUnlock d s
  | .refclkLost j => Sys2Proof.Machine.execRefclkLost j s
  | .startAttempt => Sys2Proof.Machine.execStartAttempt s
  | .bootPhase r => Sys2Proof.Machine.execBootPhase r s
  | .networkBootTimeout => Sys2Proof.Machine.execNetworkBootTimeout s
  | .bootWatchdog => Sys2Proof.Machine.execBootWatchdog s
  | .backoffExpiry => Sys2Proof.Machine.execBackoffExpiry s
  | .rcRead addr => Sys2Proof.Machine.execRcRead addr s
  | .registerWrite addr val => Sys2Proof.Machine.execRegisterWrite addr val s
  | .syncWord p ctr => Sys2Proof.Machine.execSyncWord p ctr s
  | .uncorrectableCodeword p frames => Sys2Proof.Machine.execUncorrectableCodeword p frames s
  | .hostLinkUp f => Sys2Proof.Machine.execHostLinkUp f s
  | .hostLinkDown f => Sys2Proof.Machine.execHostLinkDown f s
  | .powerRemoved => Sys2Proof.Machine.execPowerRemoved s
  | .trackedCountRelease seq => Sys2Proof.Machine.execTrackedCountRelease seq s

end Sys2Proof.Machine
end

