-- ==== Sys2Proof/Machine/Tick.lean ====
section
/-! DEFINITION. What one cycle of UCLK does without a command (log 14): the time bases and the cycle counters advance, ports that
may train start to, every port sends a frame, and what had to wait goes on. -/

namespace Sys2Proof.Machine

/-- The time bases advance by their rates; one that is held stands still (R558, R562). -/
def State.advanceTime (s : State) : State :=
  { s with time := (upTo 8).foldl (fun t d => if s.tm.holds.contains d then t else t.set d (t.get 0 d + s.rate d)) s.time }

/-- Sixteenths of a core cycle of die d in a UCLK cycle: its clock runs at 2.4 GHz − L × 100 MHz (R761), UCLK at 1.6 GHz. -/
def State.clockStep (s : State) (d : Nat) : Nat := 24 - s.level d

/-- The cycle count of a running cluster, and its watchdog while no request of it is outstanding (R252, R283). -/
def Cluster.tick (c : Cluster) (k : Nat) : Cluster :=
  if c.st = .running then { c with cyc := c.cyc + k, wdog := if c.outstanding then 0 else c.wdog + k } else c

/-- The cycle count of a core out of reset (R331). -/
def Core.tick (x : Core) (k : Nat) : Core := if x.run then { x with cyc := x.cyc + k } else x

/-- The cycle counters of clusters and cores. -/
def State.countCycles (s : State) : State :=
  { s with
    clusters := s.clusters.map (fun e => (e.1, e.2.tick (s.clockStep (s.part.dieOfCl e.1))))
    cores := s.cores.map (fun e => (e.1, e.2.tick (s.clockStep (s.part.dieOfSc e.1)))) }

/-- A port that has left UP trains again while it is enabled (R500). -/
def State.trainPorts (s : State) : State :=
  (upTo 36).foldl (fun s p => if s.portState p = 0 ∧ s.mayTrain p then s.setPortState p 1 else s) s

/-- Every session of the host ports runs what may run and sends what waits (R688, R689). -/
def State.runHosts (s : State) : State :=
  [0, 1].foldl (fun s f => ((s.he f).sessions.map (·.id)).foldl (fun s i => (s.runSession f i).pump f i) s) s

/-- What waits for memory goes on as far as memory lets it: the held writes of every stack, the retag scrubs and what follows them,
and what the engines, the collective units, the job agent and the error rings have under way (R461, R476, R484, R625, R670). -/
def State.runWaiting (s : State) : State :=
  let s := ((upTo s.part.stacks).foldl (fun s k => s.runHeld k) s).runRetags.unlockEnd.tearStep.jobFetchRun
  let s := (s.cuRun 0).cuRun 1
  let s := (upTo s.part.clusters).foldl (fun s n => s.loadRun n) s
  let s := (upTo s.part.lse).foldl (fun s n => s.lseRun n) s
  let s := (upTo s.part.stacks).foldl (fun s k => s.uuAct k) s
  (upTo 8).foldl (fun s d => s.runRing d) s

/-- The dies that have not yet taken the cut of a `TAKE` under way take it once their own time bases have reached it (R636). -/
def State.runCut (s : State) : State :=
  match s.job.snap with
  | some r => if r.take && !r.cutDone && !r.cuts.isEmpty then s.takeCut r else s.armCheck
  | none => s

/-- One UCLK cycle of a package that can act. -/
def State.cycle (s : State) : State :=
  s.advanceTime.countCycles.trainPorts.releaseHeld.runWaiting.sendAll.runHosts.runCut.ptpMaster.runAfter

/-- One UCLK cycle. -/
def State.tick (s : State) : State := if s.alive then s.leave s.cycle.settle else s

end Sys2Proof.Machine
end

