-- ==== Sys2Proof/Safety.lean ====
section
/-! DEFINITION. What counts as a safe run: a run of steps that neither faults nor is refused, from states whose memory
is in canonical form. -/

namespace Sys2Proof.Machine

/-- The machine goes on from `s` for `k` steps: no step of them faults or is refused. -/
def goesOn (k : Nat) (s : State) : Prop := ∃ t, Sys2Proof.core.run k s = .next t

/-- The memory of a state is in canonical form. -/
def State.memOk (s : State) : Prop := memWf s.mem = true

end Sys2Proof.Machine
end

