-- ==== Sys2Proof/WellFormed.lean ====
section
/-! DEFINITION. Which commands are well formed: every unit that a command names is one that the largest part has (R3, R5, R33), and
the numbers that a command carries fit the fields that the spec gives them. -/

namespace Sys2Proof

/-- A request at a memory controller is well formed: a class and an activity of four and three bits, a range of bytes within one
64-byte unit, and in a write as many bytes as it says (R459, R461, R507). -/
def MemReq.wf (r : MemReq) : Bool :=
  decide (r.cls < 16 ∧ r.act < 8 ∧ 0 < r.len ∧ r.addr.toNat % 64 + r.len ≤ 64) && (!r.write || r.data.length == r.len)

/-- A Buwen header is well formed: one of the two host ports, and fields of 32 bits (R685). -/
def BHdr.wf (h : BHdr) : Bool :=
  decide (h.port < 2 ∧ h.session < 2 ^ 32 ∧ h.seq < 2 ^ 32 ∧ h.ack < 2 ^ 32 ∧ h.nctr < 2 ^ 32)

/-- A command is well formed. -/
def Instr.wf (i : Instr) : Bool :=
  match i with
  | .ccNop n | .ccAdd n | .ccSub n | .ccAnd n | .ccOr n | .ccXor n | .ccShl n | .ccShr n | .ccSra n | .ccMul n | .ccAddi n
  | .ccLi n | .ccMovhi n | .ccFcmp n | .movu n | .movlc n | .wrlc n | .rdtime n | .ccLd n | .ccSt n | .ccBr n | .ccJal n
  | .jr n | .loop n | .lexit n | .halt n | .waitsum n | .echk n | .qpush n | .engineIssue n | .ccWatchdog n | .mma n
  | .msave n | .mrest n | .mdrop n | .wick n | .eload n | .estore n | .eparam n | .wload n | .eeCommit n | .srclr n
  | .sread n | .sreadComplete n | .dload n | .dstore n | .dcopy n | .dmComplete n _ | .wickMemoryWrite n _ _ => decide (n < 832)
  | .mark n e | .wait n e => decide (n < 832 ∧ e < 5)
  | .meDecision n b | .meCommit n b => decide (n < 832 ∧ b < 2)
  | .cmdEnd pd _ | .cmdNop pd _ | .cmdFence pd _ | .fenceTime pd _ | .loadProgram pd _ | .bindQueues pd _ | .launchAt pd _
  | .setRegionKey pd _ | .collective pd _ | .lseSolve pd _ | .uuApply pd _ | .snapshotDeclare pd _ | .snapshotTake pd _
  | .snapshotCancel pd _ | .snapshotRestore pd _ | .digest pd _ | .listComplete pd _ => decide (pd < 2)
  | .llFire d | .llReservationLapse d | .packageTimeCompare d | .dbgRingBaseWrite d _ | .frequencyStep d _ | .pllUnlock d => decide (d < 8)
  | .llCancel d t => decide (d < 8) && decide (t.unit < 4)
  | .addR c | .subR c | .andR c | .orR c | .xorR c | .sll c | .srl c | .sra c | .slt c | .sltu c | .mul c | .mulh c
  | .mulhu c | .div c | .divu c | .rem c | .remu c | .clz c | .popc c | .minR c | .maxR c | .addi c | .andi c | .ori c
  | .xori c | .shi c | .slti c | .lhi c | .pcrel c | .ldb c | .ldbu c | .ldh c | .ldhu c | .ldw c | .ldwu c | .ldd c
  | .fld c | .stb c | .sth c | .stw c | .std c | .fst c | .beq c | .bne c | .blt c | .bge c | .bltu c | .bgeu c | .jal c
  | .jalr c | .fadd c | .fsub c | .fmul c | .fdiv c | .fsqrt c | .fmin c | .fmax c | .fcps c | .fneg c | .fabs c | .feq c
  | .flt c | .fle c | .ftoi c | .ftou c | .itof c | .utof c | .fmvg c | .gmvf c | .fcls c | .frnd c | .fmadd c | .fmsub c
  | .fnmsub c | .fnmadd c | .aadd c | .afadd c | .amax c | .amin c | .aswap c | .acas c | .fence c | .fencei c | .sys c
  | .brk c | .eret c | .wfe c | .wfeWake c | .sig c | .srr c | .srw c | .post c | .interruptTake c | .tcmpReached c
  | .setvl c | .vext c | .vins c | .vbcast c | .vfbcast c | .mand c | .mor c | .mxor c | .mnot c | .mpop c | .mfirst c
  | .mtog c | .gtom c | .vfadd c | .vfsub c | .vfmul c | .vfdiv c | .vfsqrt c | .vfmin c | .vfmax c | .vfma c | .vfms c
  | .vfnma c | .vfabs c | .vfneg c | .vfeq c | .vflt c | .vfle c | .vmerge c | .vftoi c | .vitof c | .vfw c | .vfn c
  | .vadd c | .vsub c | .vmul c | .vand c | .vor c | .vxor c | .vsll c | .vsrl c | .vsra c | .vmin c | .vmax c | .vseq c
  | .vslt c | .vidx c | .vperm c | .vshup c | .vshdn c | .vpack c | .vfsumt c | .vfsums c | .vfmaxt c | .vfmint c
  | .vsumt c | .vld c | .vlds c | .vldx c | .vst c | .vsts c | .vstx c | .dbgHalt c | .dbgResume c | .dbgStep c => decide (c < 96)
  | .lsePhaseEnd n | .lsePoll n | .lseDeadline n | .lseStop n | .lseDrop n => decide (n < 8)
  | .uuLayerDone k | .uuStepWrite k _ | .cowGranuleStaged k _ | .partitionRefill k | .priorityBucketRefill k
  | .patrolScrub k _ | .tempSample k _ | .refresh k | .mcMapWrite k _ | .mcRefreshWrite k _ => decide (k < 16)
  | .hbmAccess r | .priorityRead r => r.wf
  | .tenantRetag _ _ | .tmExchange | .tmLockTimeout | .tmCtrlWrite _ | .ppsEdge | .ppsLost | .syncPulse | .jackDeadline
  | .jobDecision | .teardownDone | .jobMapping | .snapshotCut | .snapshotCommit | .snapshotWant | .secSvnAdvance | .snuffN
  | .selfTest _ | .selfTestDone _ _ | .warningWindow | .budgetPeriod | .extest _ | .samplePreload _ | .idcode | .scanSel _
  | .scanDr _ | .memAddr _ | .memData _ _ | .regData _ _ | .bypass _ | .dbgScregWrite _ | .pwrokRise _ | .resetN _
  | .pwrCtrlReset | .pwrCtrlRelease | .pwrDomainWrite _ | .pmbusPoll _ | .startAttempt | .bootPhase _ | .networkBootTimeout
  | .bootWatchdog | .backoffExpiry | .rcRead _ | .registerWrite _ _ | .powerRemoved => true
  | .mcPartWrite k p _ => decide (k < 16 ∧ p < 16)
  | .linkTrained p _ | .linkKeyed p _ | .laneFail p | .flStateEnWrite p _ | .rekey p | .frameReceive p _ | .syncWord p _
  | .uncorrectableCodeword p _ => decide (p < 36)
  | .frameAgeDrop f _ | .jonathRead f | .get f | .jonathWrite f | .jonathAadd f | .jonathAfadd f | .jonathAmax f
  | .jonathAmin f | .jonathAswap f | .jonathAcas f | .jonathResp f | .nak f | .getdata f | .haApply f | .crd f | .crdx f
  | .cupg f | .cwb f | .cevict f | .cinv f | .cfwd f | .cdata f | .frEpochCurWrite f _ | .frEpochBankWrite f _ _
  | .frEpochRetire f | .epochBankInvalidate f | .frRtDataWrite f _ | .treq f | .tresp f | .ptpMessage f _ | .cpart f
  | .cgath f | .cring f | .cdone f | .cabort f | .cuTimeout f | .jstart f _ | .jack f | .jcancel f | .jmread f
  | .buwenRto f _ | .ackTimer f _ | .sessionIdle f _ | .announce f | .hostControlFrame f _ | .mregRead f | .mregWrite f
  | .mreset f | .mtear f | .snuff f | .hostLinkUp f | .hostLinkDown f => decide (f < 2)
  | .resendTimeout seq | .busyRetry seq | .trackedCountRelease seq => decide (seq < 2 ^ 24)
  | .haEntryExpiry f spkg seq => decide (f < 2 ∧ spkg < 2 ^ 14 ∧ seq < 2 ^ 24)
  | .attestReport h _ | .attestKeypkg h _ | .attestNonce h | .attestToken h _ | .buwenAck h | .hello h _
  | .launchJobStart h _ _ | .launchTeardown h _ _ _ | .launchBoot h _ _ | .launchReset h _ _ | .launchSnuff h _ _
  | .buwenWrite h _ _ | .buwenRead h _ _ | .buwenRegWrite h _ _ | .buwenRegRead h _ => h.wf
  | .launchList h pd _ _ _ _ => h.wf && decide (pd < 2)
  | .pfcPause f prio _ => decide (f < 2 ∧ prio < 8)
  | .domainOnComplete k => decide (k < 44)
  | .pmbAlert d | .droop d _ => decide (d < 4)
  | .refclkLost i => decide (i < 2)

end Sys2Proof
end

