-- ==== Sys2Proof/Certificates/Slice0/Obligations.lean ====
section
/-! DEFINITION. The statements for the provers. Those about a unit's instructions have one shape: from conditions on the state and
the operands alone, `exec` answers a next state, and which. `s.leave t` is t with the queue of s and memory in its canonical form,
so a frame stands in every equation: what it does not name is as it was. -/

namespace Sys2Proof.Claims

open Sys2Proof.Machine

/-! ## What the statements speak of -/

/-- What every command leaves true, and every command may rely on: the memory is in canonical form, and the commands that wait are
well formed. -/
def Inv (s : State) : Prop := memWf s.mem = true ∧ ∀ c ∈ s.pending, c.wf = true

/-- The number of bytes of memory that a state lists at an address (0 or 1). -/
def listed (s : State) (a : Nat) : Nat := (s.mem.filter (fun c => c.1 == a)).length

/-- Solver core c of a package that can act executes: it fetches the legal word w of a row, which leaves state u (the fetch is charged
to its memory controller) and nothing else to be done. -/
structure ScRuns (s : State) (c row : Nat) (u : State) (w : Word) : Prop where
  present : c < s.part.sc
  alive   : s.alive = true
  can     : (s.sc c).canRun = true
  fetch   : s.scFetch c = (u, .word w)
  same    : u.sc c = s.sc c
  legal   : hcLegal w (s.sc c).ew32 (s.sc c).vstart = true
  row     : hcRow w = row
  quiet   : u.settled = true

/-- A core after an instruction that completes with its PC at `pc` (R337, R747): one more instruction has completed, nothing is
waited for, and a core under single step halts. -/
def completes (x : Core) (pc : Word) : Core :=
  let y : Core := { x with pc := pc, retired := x.retired + 1, wait := none, fetched := none }
  if x.stepping then { y with stepping := false, halted := true } else y

/-- The same with the PC at the next instruction. -/
def completesNext (x : Core) : Core := completes x (x.pc + 4)

/-- What the instruction w of core c, in state s, comes to where its access at a, with outcome r, is not done at once (R294, R314 to R316,
R318, R322, R483): the exception; the wait for the answer to what has been sent; the wait for a store that memory holds; or the
same again later, with what was asked back from the twin asked. None where the access is done. -/
def notDone (s : State) (c : Nat) (w a : Word) (r : State × ScRes) : Option State :=
  match r.2 with
  | .done _ => none
  | .trap cause code => some (r.1.scTrap c (s.sc c).pc cause code a)
  | .sent => some r.1
  | .held => some (r.1.setSc c { r.1.sc c with wait := some (.store a) })
  | .wait => some (({ s with recalls := r.1.recalls } : State).setSc c { s.sc c with fetched := some ((s.sc c).pc, w) })

/-! ## Integer instructions (R292, R293) -/

/-- The integer instructions of OP 0x01 whose result R292 and R293 give for all operands: command, FN, result from gA and gB. -/
def intRows : List ((Nat → Instr) × Nat × (Word → Word → Word)) :=
  [(.addR, 0x00, fun a b => a + b), (.subR, 0x01, fun a b => a - b), (.andR, 0x02, fun a b => a &&& b),
   (.orR, 0x03, fun a b => a ||| b), (.xorR, 0x04, fun a b => a ^^^ b),
   (.sll, 0x05, fun a b => a <<< (b.toNat % 64)), (.srl, 0x06, fun a b => a >>> (b.toNat % 64)),
   (.sra, 0x07, fun a b => a.sshiftRight (b.toNat % 64)),
   (.slt, 0x08, fun a b => if a.toInt < b.toInt then 1 else 0), (.sltu, 0x09, fun a b => if a.toNat < b.toNat then 1 else 0),
   (.mul, 0x0A, fun a b => a * b), (.mulh, 0x0B, fun a b => BitVec.ofInt 64 (a.toInt * b.toInt / 2 ^ 64)),
   (.mulhu, 0x0C, fun a b => BitVec.ofNat 64 (a.toNat * b.toNat / 2 ^ 64)),
   (.divu, 0x0E, fun a b => if b = 0 then BitVec.allOnes 64 else BitVec.ofNat 64 (a.toNat / b.toNat)),
   (.remu, 0x10, fun a b => if b = 0 then a else BitVec.ofNat 64 (a.toNat % b.toNat)),
   (.clz, 0x11, fun a _ => BitVec.ofNat 64 (leadingZeros a)), (.popc, 0x12, fun a _ => BitVec.ofNat 64 (popCount a)),
   (.minR, 0x13, fun a b => if a.toInt ≤ b.toInt then a else b), (.maxR, 0x14, fun a b => if a.toInt ≤ b.toInt then b else a)]

/-- The instructions with an immediate, and `PCREL`: command, OP, result from gA, the PC and the word (R290, R292). -/
def immRows : List ((Nat → Instr) × Nat × (Word → Word → Word → Word)) :=
  [(.addi, 0x02, fun a _ w => a + hImm w), (.andi, 0x03, fun a _ w => a &&& wd (hImmU w)), (.ori, 0x04, fun a _ w => a ||| wd (hImmU w)),
   (.xori, 0x05, fun a _ w => a ^^^ wd (hImmU w)),
   (.shi, 0x06, fun a _ w =>
     if fld w 6 2 = 0 then a <<< fld w 0 6 else if fld w 6 2 = 1 then a >>> fld w 0 6 else a.sshiftRight (fld w 0 6)),
   (.slti, 0x07, fun a _ w => if a.toInt < (hImm w).toInt then 1 else 0), (.lhi, 0x08, fun _ _ w => hImm w * 65536),
   (.pcrel, 0x09, fun _ p w => p + hImm w * 4)]

/-! ## Loads, stores, branches -/

/-- The loads: command, OP, bytes, whether the instruction is one that reaches registers (R25), and the value from the bytes
(R292). -/
def loadRows : List ((Nat → Instr) × Nat × Nat × Bool × (List Byte → Word)) :=
  [(.ldb, 0x10, 1, false, fun d => wdInt (sext (leNat d) 8)), (.ldbu, 0x11, 1, false, fun d => wd (leNat d)),
   (.ldh, 0x12, 2, false, fun d => wdInt (sext (leNat d) 16)), (.ldhu, 0x13, 2, false, fun d => wd (leNat d)),
   (.ldw, 0x14, 4, false, fun d => wdInt (sext (leNat d) 32)), (.ldwu, 0x15, 4, false, fun d => wd (leNat d)),
   (.ldd, 0x16, 8, true, fun d => wd (leNat d)), (.fld, 0x17, 8, false, fun d => wd (leNat d))]

/-- The stores: command, OP, bytes, whether the instruction is one that reaches registers (R25). -/
def storeRows : List ((Nat → Instr) × Nat × Nat × Bool) :=
  [(.stb, 0x18, 1, false), (.sth, 0x19, 2, false), (.stw, 0x1A, 4, false), (.std, 0x1B, 8, true), (.fst, 0x1C, 8, false)]

/-- The conditional branches: command, OP, condition on gA and gB (R292). -/
def branchRows : List ((Nat → Instr) × Nat × (Word → Word → Bool)) :=
  [(.beq, 0x20, fun a b => decide (a = b)), (.bne, 0x21, fun a b => decide (a ≠ b)), (.blt, 0x22, fun a b => decide (a.toInt < b.toInt)),
   (.bge, 0x23, fun a b => decide (b.toInt ≤ a.toInt)), (.bltu, 0x24, fun a b => decide (a.toNat < b.toNat)),
   (.bgeu, 0x25, fun a b => decide (b.toNat ≤ a.toNat))]

/-! ## FP64 (R296 to R302) -/

/-- The integer r is n / d rounded in a direction of R298, for d > 0: a tie goes to the even integer, or away from zero. -/
def roundsTo (mode : Rnd) (n d r : Int) : Prop :=
  match mode with
  | .towardZero => r = n.tdiv d
  | .down => r = n / d
  | .up => r = -((-n) / d)
  | .nearestEven => (2 * (n - r * d)).natAbs ≤ d.natAbs ∧ ((2 * (n - r * d)).natAbs = d.natAbs → r % 2 = 0)
  | .nearestAway => (2 * (n - r * d)).natAbs ≤ d.natAbs ∧ ((2 * (n - r * d)).natAbs = d.natAbs → n.natAbs < (r * d).natAbs)

/-- The operations of OP 0x28 from fA and fB to fD (R296, R298 to R300): command, FN, result and flags. -/
def fpRows : List ((Nat → Instr) × Nat × (Rnd → Nat → Nat → FpRes)) :=
  [(.fadd, 0x00, fun m a b => f64.fadd m a b), (.fsub, 0x01, fun m a b => f64.fsub m a b), (.fmul, 0x02, fun m a b => f64.fmul m a b),
   (.fdiv, 0x03, fun m a b => f64.fdiv m a b), (.fsqrt, 0x04, fun m a _ => f64.fsqrt m a), (.fmin, 0x05, fun _ a b => f64.fmin a b),
   (.fmax, 0x06, fun _ a b => f64.fmax a b),
   (.fcps, 0x07, fun _ a b => (a % 2 ^ 63 + b / 2 ^ 63 % 2 * 2 ^ 63, FpFlags.none)),
   (.fneg, 0x08, fun _ a _ => (a % 2 ^ 63 + (a / 2 ^ 63 + 1) % 2 * 2 ^ 63, FpFlags.none)), (.fabs, 0x09, fun _ a _ => (a % 2 ^ 63, FpFlags.none))]

/-- The operations of OP 0x28 from fA and fB to gD (R296, R301, R302). -/
def fpIntRows : List ((Nat → Instr) × Nat × (Rnd → Nat → Nat → Word × FpFlags)) :=
  [(.feq, 0x10, fun _ a b => ((if (f64.fcmp true Val.eqv a b).1 then 1 else 0), (f64.fcmp true Val.eqv a b).2)),
   (.flt, 0x11, fun _ a b => ((if (f64.fcmp false Val.lt a b).1 then 1 else 0), (f64.fcmp false Val.lt a b).2)),
   (.fle, 0x12, fun _ a b => ((if (f64.fcmp false Val.le a b).1 then 1 else 0), (f64.fcmp false Val.le a b).2)),
   (.ftoi, 0x18, fun m a _ => (BitVec.ofInt 64 (f64.toInt m (-2 ^ 63) (2 ^ 63 - 1) a).1, (f64.toInt m (-2 ^ 63) (2 ^ 63 - 1) a).2)),
   (.ftou, 0x19, fun m a _ => (BitVec.ofInt 64 (f64.toInt m 0 (2 ^ 64 - 1) a).1, (f64.toInt m 0 (2 ^ 64 - 1) a).2)),
   (.fmvg, 0x1C, fun _ a _ => (wd a, FpFlags.none)), (.fcls, 0x1E, fun _ a _ => (wd (f64.fclass a), FpFlags.none))]

/-- The operations of OP 0x28 from gA to fD (R296). -/
def intFpRows : List ((Nat → Instr) × Nat × (Rnd → Word → FpRes)) :=
  [(.itof, 0x1A, fun m a => f64.ofInt m a.toInt), (.utof, 0x1B, fun m a => f64.ofInt m a.toNat), (.gmvf, 0x1D, fun _ a => (a.toNat, FpFlags.none))]

/-- The fused operations: command, OP, whether the product and the addend are negated (R292). -/
def fmaRows : List ((Nat → Instr) × Nat × Bool × Bool) :=
  [(.fmadd, 0x29, false, false), (.fmsub, 0x2A, false, true), (.fnmsub, 0x2B, true, false), (.fnmadd, 0x2C, true, true)]

/-- The atomics: command, FN, what is written from the old word, gB and gC (R324); none writes nothing. -/
def atomicRows : List ((Nat → Instr) × Nat × (Word → Word → Word → Option Word)) :=
  [(.aadd, 0, fun o b _ => some (o + b)), (.afadd, 1, fun o b _ => some (wd (f64.round .nearestEven ((f64.decode o.toNat).add (f64.decode b.toNat))).1)),
   (.amax, 2, fun o b _ => some (if o.toInt < b.toInt then b else o)), (.amin, 3, fun o b _ => some (if b.toInt < o.toInt then b else o)),
   (.aswap, 4, fun _ b _ => some b), (.acas, 5, fun o b e => if o = e then some b else none)]

end Sys2Proof.Claims

open Sys2Proof Sys2Proof.Machine Sys2Proof.Claims

/-! # The block -/

/-- A step takes the command at the front of the queue and runs exec on it with the queue's rest. -/
def Obligations.StepRunsFront : Prop :=
  ∀ (c : Instr) (rest : List Instr) (s : State),
    Sys2Proof.Machine.step { s with pending := c :: rest } = Sys2Proof.Machine.exec c { s with pending := rest }

/-- The invariant holds after reset. -/
def Obligations.ResetInv : Prop := Inv Sys2Proof.Machine.State.reset

/-- Every step keeps the invariant: whatever the command and whatever units it touches, memory stays in canonical form and the
queue holds well-formed commands. -/
def Obligations.StepKeepsInv : Prop :=
  ∀ s t : State, Inv s → Sys2Proof.Machine.step s = .next t → Inv t

/-- A command takes nothing from the queue and adds nothing: what a step leaves waiting is the queue without its front. -/
def Sys2Proof.Claims.QueueFifo : Prop :=
  ∀ (c : Instr) (rest : List Instr) (s t : State),
    Sys2Proof.Machine.step { s with pending := c :: rest } = .next t → t.pending = rest

/-- No command faults and none is refused: every command answers a next state in every state. -/
def Obligations.NoFault : Prop := ∀ (c : Instr) (s : State), ∃ t, Sys2Proof.Machine.exec c s = .next t

/-! # Solver cores: scalar -/

/-- The integer instructions of OP 0x01: gD takes the result, the next instruction follows, nothing else of the core changes. -/
def Sys2Proof.Claims.ScInteger : Prop :=
  ∀ e ∈ intRows, ∀ (s u : State) (c : Nat) (w : Word), ScRuns s c (0x01 * 64 + e.2.1) u w →
    Sys2Proof.Machine.exec (e.1 c) s = .next (s.leave (u.setSc c (completesNext
      ((s.sc c).setG (hD w) (e.2.2 ((s.sc c).gr (hA w)) ((s.sc c).gr (hB w)))))))

/-- `DIV` and `REM` (R293): by zero all ones and the dividend; else a quotient next to the exact one, the exact one where there is
one, and what it leaves; of −2⁶³ by −1, −2⁶³ and 0. -/
def Sys2Proof.Claims.ScDivide : Prop :=
  ∀ (s u : State) (c : Nat) (w : Word) (rem : Bool), ScRuns s c (0x01 * 64 + (if rem then 0x0F else 0x0D)) u w →
    ∃ v, Sys2Proof.Machine.exec ((if rem then Instr.rem else Instr.div) c) s = .next (s.leave (u.setSc c (completesNext ((s.sc c).setG (hD w) v)))) ∧
      let a := (s.sc c).gr (hA w)
      let b := (s.sc c).gr (hB w)
      (b = 0 → v = if rem then a else BitVec.allOnes 64) ∧
      (b ≠ 0 → ∃ q : Int, (a.toInt - q * b.toInt).natAbs < b.toInt.natAbs ∧ (a.toInt % b.toInt = 0 → q * b.toInt = a.toInt) ∧
        (0 ≤ a.toInt → 0 < b.toInt → q = a.toInt / b.toInt) ∧
        v = if rem then BitVec.ofInt 64 (a.toInt - q * b.toInt) else BitVec.ofInt 64 q) ∧
      (a = BitVec.intMin 64 → b = BitVec.allOnes 64 → v = if rem then 0 else BitVec.intMin 64)

/-- The instructions with an immediate, and `PCREL`. -/
def Sys2Proof.Claims.ScImmediate : Prop :=
  ∀ e ∈ immRows, ∀ (s u : State) (c : Nat) (w : Word), ScRuns s c (e.2.1 * 64) u w →
    Sys2Proof.Machine.exec (e.1 c) s = .next (s.leave (u.setSc c (completesNext
      ((s.sc c).setG (hD w) (e.2.2 ((s.sc c).gr (hA w)) (s.sc c).pc w)))))

/-- R293: an integer instruction never traps. Whatever the operands, the level, the cause registers and the handler bases are as
they were and the next instruction follows; shifts by register use gB mod 64; division by zero and of −2⁶³ by −1 give what the
rule says. -/
def Obligations.IntegerNeverTraps : Prop :=
  (∀ (i : Nat → Instr) (fn : Nat), (i, fn) ∈ (intRows.map (fun e => (e.1, e.2.1)) ++ [(Instr.div, 0x0D), (Instr.rem, 0x0F)]) →
    ∀ (s u : State) (c : Nat) (w : Word), ScRuns s c (0x01 * 64 + fn) u w →
      let a := (s.sc c).gr (hA w)
      let b := (s.sc c).gr (hB w)
      ∃ v, Sys2Proof.Machine.exec (i c) s = .next (s.leave (u.setSc c (completesNext ((s.sc c).setG (hD w) v)))) ∧
        (fn = 0x05 → v = a <<< (b.toNat % 64)) ∧ (fn = 0x06 → v = a >>> (b.toNat % 64)) ∧
        (fn = 0x07 → v = a.sshiftRight (b.toNat % 64)) ∧
        ((fn = 0x0D ∨ fn = 0x0E) → b = 0 → v = BitVec.allOnes 64) ∧ ((fn = 0x0F ∨ fn = 0x10) → b = 0 → v = a) ∧
        (fn = 0x0D → a = BitVec.intMin 64 → b = BitVec.allOnes 64 → v = BitVec.intMin 64) ∧
        (fn = 0x0F → a = BitVec.intMin 64 → b = BitVec.allOnes 64 → v = 0)) ∧
  (∀ e ∈ immRows, ∀ (s u : State) (c : Nat) (w : Word), ScRuns s c (e.2.1 * 64) u w →
    ∃ v, Sys2Proof.Machine.exec (e.1 c) s = .next (s.leave (u.setSc c (completesNext ((s.sc c).setG (hD w) v)))))

/-- The loads: where the access is done at once, gD or fD takes the value, sign- or zero-extended; else the exception or the wait; and what an
answer that is waited for brings is loaded in the same way. -/
def Sys2Proof.Claims.ScLoads : Prop :=
  (∀ e ∈ loadRows, ∀ (s u : State) (c : Nat) (w : Word), ScRuns s c (e.2.1 * 64) u w →
    let a := (s.sc c).gr (hA w) + hImm w
    let r := u.scRead c a e.2.2.1 e.2.2.2.1 (.load e.2.1 (hD w) a)
    let y := r.1.sc c
    (∀ d, r.2 = .done d → y.run = true → Sys2Proof.Machine.exec (e.1 c) s = .next (s.leave (r.1.setSc c (completesNext
      (if e.2.1 = 0x17 then y.setF (hD w) (e.2.2.2.2 d) else y.setG (hD w) (e.2.2.2.2 d)))).settle)) ∧
    (∀ t, notDone u c w a r = some t → Sys2Proof.Machine.exec (e.1 c) s = .next (s.leave t.settle))) ∧
  (∀ e ∈ loadRows, ∀ (s : State) (c k : Nat) (a : Word) (d : List Byte), (s.sc c).wait = some (.load e.2.1 k a) → (s.sc c).run = true →
    s.scDone c 0 d = s.setSc c (completesNext
      (if e.2.1 = 0x17 then (s.sc c).setF k (e.2.2.2.2 d) else (s.sc c).setG k (e.2.2.2.2 d))))

/-- The stores: the low bytes of gD, or fD, are stored at gA + IMM16; where the access is done at once the next instruction
follows, else the exception or the wait; and where a held store is done the next instruction follows. -/
def Sys2Proof.Claims.ScStores : Prop :=
  (∀ e ∈ storeRows, ∀ (s u : State) (c : Nat) (w : Word), ScRuns s c (e.2.1 * 64) u w →
    let a := (s.sc c).gr (hA w) + hImm w
    let x := if e.2.1 = 0x1C then (s.sc c).fr (hD w) else (s.sc c).gr (hD w)
    let r := u.scWrite c a (leBytes e.2.2.1 x.toNat) e.2.2.2
    (∀ d, r.2 = .done d → (r.1.sc c).run = true →
      Sys2Proof.Machine.exec (e.1 c) s = .next (s.leave (r.1.setSc c (completesNext (r.1.sc c))).settle)) ∧
    (∀ d, r.2 = .done d → (r.1.sc c).run = false → Sys2Proof.Machine.exec (e.1 c) s = .next (s.leave r.1.settle)) ∧
    (∀ t, notDone u c w a r = some t → Sys2Proof.Machine.exec (e.1 c) s = .next (s.leave t.settle))) ∧
  (∀ (s : State) (c : Nat) (a : Word) (d : List Byte), (s.sc c).wait = some (.store a) → (s.sc c).run = true →
    s.scDone c 0 d = s.setSc c (completesNext (s.sc c)))

/-- R294: an address that is no multiple of the access size raises exception 0x04, whatever the memory, and nothing is read or
written; an aligned access lies in one unit of memory and is one access. -/
def Obligations.MisalignedAccess : Prop :=
  (∀ e ∈ loadRows, ∀ (s u : State) (c : Nat) (w : Word), ScRuns s c (e.2.1 * 64) u w →
    let a := (s.sc c).gr (hA w) + hImm w
    a.toNat % e.2.2.1 ≠ 0 →
    Sys2Proof.Machine.exec (e.1 c) s = .next (s.leave (u.scTrap c (s.sc c).pc 0x04 0 a).settle)) ∧
  (∀ e ∈ storeRows, ∀ (s u : State) (c : Nat) (w : Word), ScRuns s c (e.2.1 * 64) u w →
    let a := (s.sc c).gr (hA w) + hImm w
    a.toNat % e.2.2.1 ≠ 0 →
    Sys2Proof.Machine.exec (e.1 c) s = .next (s.leave (u.scTrap c (s.sc c).pc 0x04 0 a).settle)) ∧
  (∀ a len : Nat, len ∈ [1, 2, 4, 8] → a % len = 0 → pieces a len = [(a, 0, len)])

/-- The conditional branches: taken to PC + OFF16 × 4 where the condition holds, else the next instruction follows. -/
def Sys2Proof.Claims.ScBranches : Prop :=
  ∀ e ∈ branchRows, ∀ (s u : State) (c : Nat) (w : Word), ScRuns s c (e.2.1 * 64) u w → (s.sc c).pc.toNat % 4 = 0 →
    Sys2Proof.Machine.exec (e.1 c) s = .next (s.leave (u.setSc c (completes (s.sc c)
      (if e.2.2 ((s.sc c).gr (hD w)) ((s.sc c).gr (hA w)) then (s.sc c).pc + hOff16 w else (s.sc c).pc + 4))))

/-- R295 and the jumps: `JAL` and `JALR` write the address of the next instruction into gD and go to their target; a `JALR` target
that is no multiple of 4 raises exception 0x03 at the target, with the jump completed. -/
def Sys2Proof.Claims.ScJumps : Prop :=
  ∀ (jalr : Bool) (s u : State) (c : Nat) (w : Word), ScRuns s c ((if jalr then 0x27 else 0x26) * 64) u w →
    let x := s.sc c
    let target := if jalr then x.gr (hA w) + hImm w else x.pc + hOff21 w
    let t := u.setSc c (completes (x.setG (hD w) (x.pc + 4)) target)
    (target.toNat % 4 = 0 → Sys2Proof.Machine.exec ((if jalr then Instr.jalr else Instr.jal) c) s = .next (s.leave t)) ∧
    (target.toNat % 4 ≠ 0 →
      Sys2Proof.Machine.exec ((if jalr then Instr.jalr else Instr.jal) c) s = .next (s.leave (t.scTrap c target 0x03 0 target).settle))

/-! # Solver cores: FP64 -/

/-- The FP64 operations that write fD, under the rounding direction of the word or of `SC_FCSR`; their flags are added to
`SC_FCSR`. -/
def Sys2Proof.Claims.ScFp : Prop :=
  (∀ e ∈ fpRows, ∀ (s u : State) (c : Nat) (w : Word), ScRuns s c (0x28 * 64 + e.2.1) u w →
    let x := s.sc c
    let r := e.2.2 (rndMode (hC w) x.fcsr) (x.fr (hA w)).toNat (x.fr (hB w)).toNat
    Sys2Proof.Machine.exec (e.1 c) s = .next (s.leave (u.setSc c (completesNext ((x.setF (hD w) (wd r.1)).addFlags r.2))))) ∧
  (∀ e ∈ fpIntRows, ∀ (s u : State) (c : Nat) (w : Word), ScRuns s c (0x28 * 64 + e.2.1) u w →
    let x := s.sc c
    let r := e.2.2 (rndMode (hC w) x.fcsr) (x.fr (hA w)).toNat (x.fr (hB w)).toNat
    Sys2Proof.Machine.exec (e.1 c) s = .next (s.leave (u.setSc c (completesNext ((x.setG (hD w) r.1).addFlags r.2))))) ∧
  (∀ e ∈ intFpRows, ∀ (s u : State) (c : Nat) (w : Word), ScRuns s c (0x28 * 64 + e.2.1) u w →
    let x := s.sc c
    let r := e.2.2 (rndMode (hC w) x.fcsr) (x.gr (hA w))
    Sys2Proof.Machine.exec (e.1 c) s = .next (s.leave (u.setSc c (completesNext ((x.setF (hD w) (wd r.1)).addFlags r.2)))))

/-- `FRND` and the fused operations: one rounding, and the flag that the spec leaves open is a free value (log 33): the inexact flag
of `FRND` on a value that is not integral, the invalid flag of infinity times zero plus a quiet NaN. -/
def Sys2Proof.Claims.ScFused : Prop :=
  (∀ (s u : State) (c : Nat) (w : Word), ScRuns s c (0x28 * 64 + 0x1F) u w →
    let x := s.sc c
    let r := f64.rint (rndMode (hC w) x.fcsr) (x.fr (hA w)).toNat
    let y := (x.setF (hD w) (wd r.1.1)).addFlags r.1.2
    (r.2 = false → Sys2Proof.Machine.exec (.frnd c) s = .next (s.leave (u.setSc c (completesNext y)))) ∧
    (r.2 = true → ∃ inx : Bool, Sys2Proof.Machine.exec (.frnd c) s =
      .next (s.leave (u.setSc c (completesNext (y.addFlags { FpFlags.none with inx := inx })))))) ∧
  (∀ e ∈ fmaRows, ∀ (s u : State) (c : Nat) (w : Word), ScRuns s c (e.2.1 * 64) u w →
    let x := s.sc c
    let r := f64.ffma (rndMode (fld w 0 3) x.fcsr) e.2.2.1 e.2.2.2 (x.fr (hA w)).toNat (x.fr (hB w)).toNat (x.fr (hC w)).toNat
    let opn := f64.fmaOpen (x.fr (hA w)).toNat (x.fr (hB w)).toNat (x.fr (hC w)).toNat
    let y := (x.setF (hD w) (wd r.1)).addFlags r.2
    (opn = false → Sys2Proof.Machine.exec (e.1 c) s = .next (s.leave (u.setSc c (completesNext y)))) ∧
    (opn = true → ∃ iv : Bool, Sys2Proof.Machine.exec (e.1 c) s =
      .next (s.leave (u.setSc c (completesNext (if iv then y.addFlags FpFlags.invalid else y))))))

/-- R301: where either operand is NaN, `FEQ`, `FLT` and `FLE` write 0; `FEQ` raises the invalid flag only for a signalling NaN, `FLT` and
`FLE` for any NaN. -/
def Obligations.CompareNan : Prop :=
  ∀ e ∈ [(Instr.feq, 0x10), (Instr.flt, 0x11), (Instr.fle, 0x12)], ∀ (s u : State) (c : Nat) (w : Word),
    ScRuns s c (0x28 * 64 + e.2) u w →
    let x := s.sc c
    let a := (x.fr (hA w)).toNat
    let b := (x.fr (hB w)).toNat
    let nan := fun (k : Nat) => k / 2 ^ 52 % 2 ^ 11 = 2047 ∧ k % 2 ^ 52 ≠ 0
    let snan := fun (k : Nat) => nan k ∧ k / 2 ^ 51 % 2 = 0
    (nan a ∨ nan b) →
      ((e.2 = 0x10 ∧ ¬ snan a ∧ ¬ snan b) →
        Sys2Proof.Machine.exec (e.1 c) s = .next (s.leave (u.setSc c (completesNext (x.setG (hD w) 0))))) ∧
      ((e.2 ≠ 0x10 ∨ snan a ∨ snan b) →
        Sys2Proof.Machine.exec (e.1 c) s = .next (s.leave (u.setSc c (completesNext ((x.setG (hD w) 0).addFlags FpFlags.invalid)))))

/-- R302: `FTOI` and `FTOU` round the exact value of fA under the instruction's mode; a result outside the range saturates to the nearer
bound and a NaN gives 0, both with the invalid and not the inexact flag; `FCLS` writes the one bit that the rule lists for the class of
fA. -/
def Obligations.ConvertSaturates : Prop :=
  (∀ e ∈ [(Instr.ftoi, 0x18, -2 ^ 63, 2 ^ 63 - 1), (Instr.ftou, 0x19, (0 : Int), (2 ^ 64 - 1 : Int))], ∀ (s u : State) (c : Nat) (w : Word),
    ScRuns s c (0x28 * 64 + e.2.1) u w →
    let x := s.sc c
    let a := (x.fr (hA w)).toNat
    let lo := e.2.2.1
    let hi := e.2.2.2
    let neg : Bool := a / 2 ^ 63 % 2 = 1
    let ex := a / 2 ^ 52 % 2 ^ 11
    let writes := fun (v : Int) (f : FpFlags) => Sys2Proof.Machine.exec (e.1 c) s =
      .next (s.leave (u.setSc c (completesNext ((x.setG (hD w) (BitVec.ofInt 64 v)).addFlags f))))
    (ex = 2047 → a % 2 ^ 52 ≠ 0 → writes 0 FpFlags.invalid) ∧
    (ex = 2047 → a % 2 ^ 52 = 0 → writes (if neg then lo else hi) FpFlags.invalid) ∧
    (ex < 2047 →
      let m := (if ex = 0 then 0 else 2 ^ 52) + a % 2 ^ 52
      let sh := max ex 1
      let n : Int := (if neg then -1 else 1) * (m * 2 ^ (sh - 1075) : Nat)
      let d : Nat := 2 ^ (1075 - sh)
      ∃ r : Int, roundsTo (rndMode (hC w) x.fcsr) n d r ∧ (r < lo → writes lo FpFlags.invalid) ∧ (hi < r → writes hi FpFlags.invalid) ∧
        (lo ≤ r → r ≤ hi → writes r { FpFlags.none with inx := decide (r * d ≠ n) }))) ∧
  (∀ (s u : State) (c : Nat) (w : Word), ScRuns s c (0x28 * 64 + 0x1E) u w →
    let x := s.sc c
    let a := (x.fr (hA w)).toNat
    let neg : Bool := a / 2 ^ 63 % 2 = 1
    let ex := a / 2 ^ 52 % 2 ^ 11
    let fr := a % 2 ^ 52
    let k : Nat :=
      if ex = 2047 then if fr = 0 then (if neg then 3 else 2) else if fr / 2 ^ 51 = 1 then 0 else 1
      else if ex = 0 then if fr = 0 then (if neg then 9 else 8) else if neg then 7 else 6
      else if neg then 5 else 4
    Sys2Proof.Machine.exec (.fcls c) s = .next (s.leave (u.setSc c (completesNext (x.setG (hD w) (wd (2 ^ k)))))))
/-! # Solver cores: atomics, order, traps -/

/-- The atomics (R324): once no posted store is out, an atomic that is done at once gives gD the old word, and one that is not takes its
exception or waits; the answer that is waited for gives gD the old word; and what the home writes is what R324 says for each. -/
def Sys2Proof.Claims.ScAtomics : Prop :=
  (∀ e ∈ atomicRows, ∀ (s u : State) (c : Nat) (w : Word), ScRuns s c (0x30 * 64 + e.2.1) u w →
    let x := s.sc c
    let a := x.gr (hA w)
    let r := u.scAtomicAt c e.2.1 (hD w) a (x.gr (hB w)) (x.gr (hC w))
    (∀ d, x.posted = 0 → r.2 = .done d → (r.1.sc c).run = true →
      Sys2Proof.Machine.exec (e.1 c) s = .next (s.leave (r.1.setSc c (completesNext ((r.1.sc c).setG (hD w) (word64 d 0)))).settle)) ∧
    (∀ t, x.posted = 0 → notDone u c w a r = some t → Sys2Proof.Machine.exec (e.1 c) s = .next (s.leave t.settle))) ∧
  (∀ (s : State) (c k : Nat) (a : Word) (d : List Byte), (s.sc c).wait = some (.atomic k a) → (s.sc c).run = true →
    s.scDone c 0 d = s.setSc c (completesNext ((s.sc c).setG k (word64 d 0)))) ∧
  (∀ e ∈ atomicRows, ∀ o b k : Word, atomicNew (jonathOp e.2.1) o b k = e.2.2 o b k)

/-- `FENCE` and the atomics wait while a posted store is not acknowledged, and then change nothing; with none out `FENCE` completes,
and `FENCEI` always does (R323, R324). -/
def Sys2Proof.Claims.ScFences : Prop :=
  (∀ (s u : State) (c : Nat) (w : Word), ScRuns s c (0x31 * 64) u w →
    (u.sc c).posted = 0 → Sys2Proof.Machine.exec (.fence c) s = .next (s.leave (u.setSc c (completesNext (s.sc c))))) ∧
  (∀ (s u : State) (c : Nat) (w : Word), ScRuns s c (0x31 * 64) u w → s.settled = true →
    (u.sc c).posted ≠ 0 → Sys2Proof.Machine.exec (.fence c) s = .next (s.leave s)) ∧
  (∀ e ∈ atomicRows, ∀ (s u : State) (c : Nat) (w : Word), ScRuns s c (0x30 * 64 + e.2.1) u w → s.settled = true →
    (s.sc c).posted ≠ 0 → Sys2Proof.Machine.exec (e.1 c) s = .next (s.leave s)) ∧
  (∀ (s u : State) (c : Nat) (w : Word), ScRuns s c (0x31 * 64 + 1) u w →
    Sys2Proof.Machine.exec (.fencei c) s = .next (s.leave (u.setSc c (completesNext (s.sc c)))))

/-- R304 and R306: the system call of user code enters the supervisor, that of the supervisor firmware, and `BRK` of user code the
supervisor. `EPC`, `CAUSE` and `TVAL` of the target are written, the level goes to `PPREV` and `IE` to `PIE`, `EXL` is set and `IE`
cleared, and the PC goes to `TVEC`. -/
def Obligations.SystemCalls : Prop :=
  ∀ (brk : Bool) (s u : State) (c : Nat) (w : Word), ScRuns s c (0x38 * 64 + (if brk then 1 else 0)) u w →
    let x := s.sc c
    let cw : Word := if brk then 0x0A else 0x09
    x.stepping = false →
    (x.level = 0 →
      ∃ st, Sys2Proof.Machine.exec ((if brk then Instr.brk else Instr.sys) c) s = .next (s.leave (u.setSc c
        { x with wait := none, wfe := false, fetched := none, last := cw, level := 1, epc := x.pc, cause := cw, tval := 0,
                 status := st, pc := x.tvec })) ∧
      fld st 6 2 = 0 ∧ bit st 4 = bit x.status 3 ∧ bit st 5 = true ∧ bit st 3 = false ∧ fld st 8 56 = fld x.status 8 56) ∧
    (x.level = 1 → brk = false → bit x.status 5 = false →
      ∃ st, Sys2Proof.Machine.exec (Instr.sys c) s = .next (s.leave (u.setSc c
        { x with wait := none, wfe := false, fetched := none, last := cw, level := 2, fwEpc := x.pc, fwCause := cw, fwTval := 0,
                 fwStatus := st, pc := x.fwTvec })) ∧
      fld st 6 2 = 1 ∧ bit st 4 = bit x.fwStatus 3 ∧ bit st 5 = true ∧ bit st 3 = false)

/-- R308: `ERET` sets the PC from `EPC` and the level from `PPREV`, restores `IE` from `PIE` and clears `EXL`, and every other bit of the status
stands; an `EPC` that is no multiple of 4 then raises exception 0x03 there (R295); at user level `ERET` is illegal. A `PPREV` of 3 names no
level: the level that follows is a free value (log 33). -/
def Obligations.TrapReturn : Prop :=
  (∀ (s u : State) (c : Nat) (w : Word) (fw : Bool), ScRuns s c (0x38 * 64 + 2) u w → (s.sc c).level = (if fw then 2 else 1) →
    let x := s.sc c
    let old := if fw then x.fwStatus else x.status
    let pc := if fw then x.fwEpc else x.epc
    ∃ (lv : Nat) (st : Word),
      (fld old 6 2 ≤ 2 → lv = fld old 6 2) ∧ lv ≤ 2 ∧
      bit st 3 = bit old 4 ∧ bit st 5 = false ∧ (∀ i, i < 64 → i ≠ 3 → i ≠ 5 → bit st i = bit old i) ∧
      let t := u.setSc c (completes (if fw then { x with level := lv, fwStatus := st } else { x with level := lv, status := st }) pc)
      (pc.toNat % 4 = 0 → Sys2Proof.Machine.exec (.eret c) s = .next (s.leave t)) ∧
      (pc.toNat % 4 ≠ 0 → Sys2Proof.Machine.exec (.eret c) s = .next (s.leave (t.scTrap c pc 0x03 0 pc).settle))) ∧
  (∀ (s u : State) (c : Nat) (w : Word), ScRuns s c (0x38 * 64 + 2) u w → (s.sc c).level = 0 →
    Sys2Proof.Machine.exec (.eret c) s = .next (s.leave (u.scTrap c (s.sc c).pc 0x01 0 w).settle))

/-- R307: of the interrupts that the core may take, that with the lowest cause is taken, at its level, at `TVEC` + 0x80, whether or
not the core waits in a `WFE`; and an interrupt of the supervisor is takeable exactly if it is pending and enabled in `SC_IEN`, and
the level is below supervisor, or is supervisor with `IE`. -/
def Sys2Proof.Claims.Interrupts : Prop :=
  (∀ (s : State) (c cause : Nat) (code : BitVec 16) (tval : Word) (rest : List (Nat × BitVec 16 × Word)),
    c < s.part.sc → s.alive = true → s.settled = true → (s.sc c).run = true → (s.sc c).stopped = false → (s.sc c).halted = false →
    (s.sc c).wait = none → s.scTakeable c = (cause, code, tval) :: rest →
    let x := s.sc c
    let cw := causeWord true cause code
    let l := wd (fld cw 16 16 * 2 ^ 16 + fld cw 0 8)
    (cause = 0x28 → Sys2Proof.Machine.exec (.interruptTake c) s = .next (s.leave (s.setSc c
      { x with wfe := false, fetched := none, last := l, level := 2, fwEpc := x.pc, fwCause := cw, fwTval := tval,
               fwStatus := stEnter x.fwStatus x.level, pc := x.fwTvec + 0x80 }))) ∧
    (cause ≠ 0x28 → Sys2Proof.Machine.exec (.interruptTake c) s = .next (s.leave (s.setSc c
      { x with wfe := false, fetched := none, last := l, level := 1, epc := x.pc, cause := cw, tval := tval,
               status := stEnter x.status x.level, pc := x.tvec + 0x80 })))) ∧
  (∀ (s : State) (c : Nat), ((s.scTakeable c).map (fun e => e.1)).Pairwise (· < ·)) ∧
  (∀ (s : State) (c : Nat), (0x21 ∈ (s.scTakeable c).map (fun e => e.1)) ↔
    (bit (s.scPending c) 1 = true ∧ bit (s.sc c).ien 1 = true ∧
      ((s.sc c).level < 1 ∨ ((s.sc c).level = 1 ∧ bit (s.sc c).status 3 = true))))

/-- R309: `WFE` completes and stalls the core unless an interrupt is pending with its enable bit set; the stall ends when one is. The
time interrupt is pending while node time has reached `SC_TCMP` (R334). -/
def Sys2Proof.Claims.WaitForEvent : Prop :=
  (∀ (s u : State) (c : Nat) (w : Word), ScRuns s c (0x38 * 64 + 3) u w →
    Sys2Proof.Machine.exec (.wfe c) s = .next (s.leave ((u.setSc c (completesNext (s.sc c))).setSc c
      { completesNext (s.sc c) with wfe := !(u.setSc c (completesNext (s.sc c))).scWakes c }))) ∧
  (∀ (s : State) (c : Nat), c < s.part.sc → s.alive = true → s.settled = true →
    Sys2Proof.Machine.exec (.wfeWake c) s =
      .next (s.leave (if s.scWakes c then s.setSc c { s.sc c with wfe := false } else s))) ∧
  (∀ (s : State) (c : Nat), c < s.part.sc → s.alive = true → s.settled = true →
    (s.sc c).tcmp.toNat ≤ (s.now (s.part.dieOfSc c)).toNat → bit (s.sc c).ien 0 = true →
    Sys2Proof.Machine.exec (.tcmpReached c) s = .next (s.leave (s.setSc c { s.sc c with wfe := false })))

/-- R310: `SIG` makes interrupt 0x21 pending at the core whose number is in gA; a number at or beyond `SYS_SIZE.SC` is an access
fault. -/
def Sys2Proof.Claims.Signal : Prop :=
  ∀ (s u : State) (c : Nat) (w : Word), ScRuns s c (0x38 * 64 + 4) u w →
    let n := ((s.sc c).gr (hA w)).toNat
    (n < u.part.sc → n ≠ c → Sys2Proof.Machine.exec (.sig c) s = .next (s.leave
      ((u.setSc n { u.sc n with ipend := (u.sc n).ipend ||| 2, sigFrom := wd c }).setSc c (completesNext (s.sc c))))) ∧
    (n < u.part.sc → n = c → Sys2Proof.Machine.exec (.sig c) s = .next (s.leave
      ((u.setSc c { s.sc c with ipend := (s.sc c).ipend ||| 2, sigFrom := wd c }).setSc c
        (completesNext { s.sc c with ipend := (s.sc c).ipend ||| 2, sigFrom := wd c })))) ∧
    (u.part.sc ≤ n → Sys2Proof.Machine.exec (.sig c) s =
      .next (s.leave (u.scTrap c (s.sc c).pc 0x05 0 ((s.sc c).gr (hA w))).settle))

/-- R331: `SRR` and `SRW` reach a register whose number's bits [15:14] are at most the level; from a lower level they are exception
0x02; a write that the register does not take is exception 0x01; and what a number that is not listed reads as is a free value (log
33). -/
def Sys2Proof.Claims.SystemRegisters : Prop :=
  (∀ (s u : State) (c : Nat) (w : Word) (v : Word), ScRuns s c (0x39 * 64) u w → hImmU w / 0x4000 ≤ (s.sc c).level →
    u.srRead c (hImmU w) = some v →
    Sys2Proof.Machine.exec (.srr c) s = .next (s.leave (u.setSc c (completesNext ((s.sc c).setG (hD w) v))))) ∧
  (∀ (s u : State) (c : Nat) (w : Word), ScRuns s c (0x39 * 64) u w → hImmU w / 0x4000 ≤ (s.sc c).level →
    u.srRead c (hImmU w) = none →
    ∃ v, Sys2Proof.Machine.exec (.srr c) s = .next (s.leave (u.setSc c (completesNext ((s.sc c).setG (hD w) v))))) ∧
  (∀ (s u : State) (c : Nat) (w : Word) (y : Core), ScRuns s c (0x3A * 64) u w → hImmU w / 0x4000 ≤ (s.sc c).level →
    (s.sc c).srWrite (hImmU w) ((s.sc c).gr (hA w)) = some y → y.run = true →
    Sys2Proof.Machine.exec (.srw c) s = .next (s.leave (u.setSc c (completesNext y)))) ∧
  (∀ (s u : State) (c : Nat) (w : Word) (wr : Bool), ScRuns s c ((if wr then 0x3A else 0x39) * 64) u w →
    (s.sc c).level < hImmU w / 0x4000 →
    Sys2Proof.Machine.exec ((if wr then Instr.srw else Instr.srr) c) s = .next (s.leave (u.scTrap c (s.sc c).pc 0x02 0 w).settle)) ∧
  (∀ (s u : State) (c : Nat) (w : Word), ScRuns s c (0x3A * 64) u w → hImmU w / 0x4000 ≤ (s.sc c).level →
    (s.sc c).srWrite (hImmU w) ((s.sc c).gr (hA w)) = none →
    Sys2Proof.Machine.exec (.srw c) s = .next (s.leave (u.scTrap c (s.sc c).pc 0x01 0 w).settle)) ∧
  (∀ (x : Core) (v : Word), (fld v 8 3 = 0 ∨ fld v 8 3 = 6 ∨ fld v 8 3 = 7) → x.srWrite 0x0000 v = none)

/-- `POST` (R328 to R330): at user level without `UPOST` a privilege exception; while a posted store is out it waits; else the block is
read, which may end in an exception or a wait; a misaligned address of it is exception 0x04 and one outside local HBM 0x05; and then
the list is submitted, and gD takes the dispatcher's answer. -/
def Sys2Proof.Claims.Post : Prop :=
  (∀ (s u : State) (c : Nat) (w : Word), ScRuns s c (0x3C * 64) u w → (s.sc c).level = 0 → bit (s.sc c).status 11 = false →
    Sys2Proof.Machine.exec (.post c) s = .next (s.leave (u.scTrap c (s.sc c).pc 0x02 0 w).settle)) ∧
  (∀ (s u : State) (c : Nat) (w : Word), ScRuns s c (0x3C * 64) u w → s.settled = true →
    ((s.sc c).level = 0 → bit (s.sc c).status 11 = true) → (s.sc c).posted ≠ 0 → Sys2Proof.Machine.exec (.post c) s = .next (s.leave s)) ∧
  (∀ (s u : State) (c : Nat) (w : Word), ScRuns s c (0x3C * 64) u w →
    ((s.sc c).level = 0 → bit (s.sc c).status 11 = true) → (s.sc c).posted = 0 →
    let a := (s.sc c).gr (hA w)
    let r := u.scRead c a 32 false (.post w a)
    let v := r.1
    let traps := fun (cause : Nat) (x : Word) =>
      Sys2Proof.Machine.exec (.post c) s = .next (s.leave (v.scTrap c (v.sc c).pc cause 0 x).settle)
    (∀ t, notDone u c w a r = some t → Sys2Proof.Machine.exec (.post c) s = .next (s.leave t.settle)) ∧
    (∀ b, r.2 = .done b →
      let list := word64 b 0
      let record := word64 b 16
      (list.toNat % 64 ≠ 0 → traps 0x04 list) ∧
      (list.toNat % 64 = 0 → record.toNat % 32 ≠ 0 → traps 0x04 record) ∧
      (list.toNat % 64 = 0 → record.toNat % 32 = 0 → v.inHbm list 64 = false → traps 0x05 list) ∧
      (list.toNat % 64 = 0 → record.toNat % 32 = 0 → v.inHbm list 64 = true → v.inHbm record 32 = false → traps 0x05 record) ∧
      (list.toNat % 64 = 0 → record.toNat % 32 = 0 → v.inHbm list 64 = true → v.inHbm record 32 = true →
        ∀ z code n, v.submit (hImmU w % 2) list (word64 b 8) record (word64 b 24) (.core c (bit w 1)) = (z, code, n) →
        (z.sc c).run = true → Sys2Proof.Machine.exec (.post c) s =
          .next (s.leave (z.setSc c (completesNext ((z.sc c).setG (hD w) (wd code.toNat)))).settle))))

/-! # Solver cores: the long-vector extension -/

namespace Sys2Proof.Claims

/-- The vector control operations that write gD (R354): command, FN, result. -/
def vctlRows : List ((Nat → Instr) × Nat × (Core → Word → Word)) :=
  [(.vext, 0x01, fun x w => if vlmax x.ew32 ≤ (x.gr (hB w)).toNat then 0 else wd (x.el (hA w) (x.gr (hB w)).toNat)),
   (.mpop, 0x0C, fun x w => wd ((List.range x.vl).countP (fun i => bit (x.mr (hA w)) i))),
   (.mfirst, 0x0D, fun x w =>
     match (List.range x.vl).find? (fun i => bit (x.mr (hA w)) i) with | some i => wd i | none => BitVec.allOnes 64),
   (.mtog, 0x0E, fun x w => x.mr (hA w))]

/-- The operations on whole masks (R354, R355): command, FN, what mD takes. -/
def vmaskRows : List ((Nat → Instr) × Nat × (Core → Word → Word)) :=
  [(.mand, 0x08, fun x w => x.mr (hA w) &&& x.mr (hB w)), (.mor, 0x09, fun x w => x.mr (hA w) ||| x.mr (hB w)),
   (.mxor, 0x0A, fun x w => x.mr (hA w) ^^^ x.mr (hB w)), (.mnot, 0x0B, fun x w => ~~~ x.mr (hA w)), (.gtom, 0x0F, fun x w => x.gr (hA w))]

/-- The FP operations of OP 0x34 with one result for each element (R350, R352): command, FN, and result with flags from the
format, the rounding direction, its largest integer bits, a and b. -/
def vfpRows : List ((Nat → Instr) × Nat × (FFmt → Rnd → Nat → Nat → Nat → FpRes)) :=
  [(.vfadd, 0x00, fun t m _ a b => t.fadd m a b), (.vfsub, 0x01, fun t m _ a b => t.fsub m a b), (.vfmul, 0x02, fun t m _ a b => t.fmul m a b),
   (.vfdiv, 0x03, fun t m _ a b => t.fdiv m a b), (.vfsqrt, 0x04, fun t m _ a _ => t.fsqrt m a), (.vfmin, 0x05, fun t _ _ a b => t.fmin a b),
   (.vfmax, 0x06, fun t _ _ a b => t.fmax a b),
   (.vfabs, 0x0A, fun _ _ n a _ => (a % 2 ^ (n - 1), FpFlags.none)),
   (.vfneg, 0x0B, fun _ _ n a _ => ((a + 2 ^ (n - 1)) % 2 ^ n, FpFlags.none)),
   (.vftoi, 0x10, fun t m n a _ =>
     let r := t.toInt m (-2 ^ (n - 1)) (2 ^ (n - 1) - 1) a
     ((r.1 % 2 ^ n).toNat, r.2)),
   (.vitof, 0x11, fun t m n a _ => t.ofInt m (sext a n))]

/-- The integer operations of OP 0x34 (R350): command, FN, result at n bits from a and b. -/
def vintRows : List ((Nat → Instr) × Nat × (Nat → Nat → Nat → Nat)) :=
  [(.vadd, 0x20, fun n a b => (a + b) % 2 ^ n), (.vsub, 0x21, fun n a b => (((a : Int) - b) % 2 ^ n).toNat),
   (.vmul, 0x22, fun n a b => a * b % 2 ^ n), (.vand, 0x23, fun _ a b => a &&& b), (.vor, 0x24, fun _ a b => a ||| b),
   (.vxor, 0x25, fun _ a b => a ^^^ b), (.vsll, 0x26, fun n a b => a * 2 ^ (b % n) % 2 ^ n), (.vsrl, 0x27, fun n a b => a / 2 ^ (b % n)),
   (.vsra, 0x28, fun n a b => ((sext a n / 2 ^ (b % n)) % 2 ^ n).toNat),
   (.vmin, 0x29, fun n a b => if sext a n ≤ sext b n then a else b), (.vmax, 0x2A, fun n a b => if sext b n ≤ sext a n then a else b)]

/-- The comparisons of OP 0x34 (R301, R350): command, FN, whether FP, answer and flags from the width (32 bits or not), a and b. -/
def vcmpRows : List ((Nat → Instr) × Nat × Bool × (Bool → Nat → Nat → Bool × FpFlags)) :=
  [(.vfeq, 0x0C, true, fun e a b => (ewFmt e).fcmp true Val.eqv a b), (.vflt, 0x0D, true, fun e a b => (ewFmt e).fcmp false Val.lt a b),
   (.vfle, 0x0E, true, fun e a b => (ewFmt e).fcmp false Val.le a b), (.vseq, 0x2B, false, fun _ a b => (decide (a = b), FpFlags.none)),
   (.vslt, 0x2C, false, fun e a b => (decide (sext a (ewBits e) < sext b (ewBits e)), FpFlags.none))]

/-- The permutes and `VIDX` whose active element i becomes a value of its own (R350, R356); none leaves it: command, row, value. -/
def vpermRows : List ((Nat → Instr) × Nat × (Core → Word → Nat → Option Nat)) :=
  [(.vidx, 0x34 * 64 + 0x2D, fun _ _ i => some i),
   (.vperm, 0x37 * 64, fun x w i => some (if x.el (hB w) i < vlmax x.ew32 then x.el (hA w) (x.el (hB w) i) else 0)),
   (.vshup, 0x37 * 64 + 0x01, fun x w i => if (x.gr (hB w)).toNat ≤ i then some (x.el (hA w) (i - (x.gr (hB w)).toNat)) else none),
   (.vshdn, 0x37 * 64 + 0x02, fun x w i =>
     some (if i + (x.gr (hB w)).toNat < vlmax x.ew32 then x.el (hA w) (i + (x.gr (hB w)).toNat) else 0))]

/-- The flags that the active elements of an instruction raise together. -/
def flagsOf (x : Core) (w : Word) (f : Nat → FpFlags) : FpFlags :=
  ((List.range x.vl).filter (x.active w)).foldl (fun g i => g.or (f i)) FpFlags.none

/-- The pairwise tree of R357: the node of a level at a place, from the active elements. -/
def treeNode (f : Nat → Nat → FpRes) (leaf : Nat → Option Nat) : Nat → Nat → Option Nat × FpFlags
  | 0, i => (leaf i, FpFlags.none)
  | k + 1, i =>
    let l := treeNode f leaf k (2 * i)
    let r := treeNode f leaf k (2 * i + 1)
    match l.1, r.1 with
    | some a, some b => (some (f a b).1, (l.2.or r.2).or (f a b).2)
    | some a, none => (some a, l.2.or r.2)
    | none, b => (b, l.2.or r.2)

/-- The tree reductions (R356, R357): command, FN, combination. -/
def treeRows : List ((Nat → Instr) × Nat × (FFmt → Rnd → Nat → Nat → FpRes)) :=
  [(.vfsumt, 0x08, fun t m a b => t.fadd m a b), (.vfmaxt, 0x0A, fun t _ a b => t.fmax a b), (.vfmint, 0x0B, fun t _ a b => t.fmin a b)]

/-- The vector loads and stores: command, the row's number (`ST` and `MODE`). -/
def vmemRows : List ((Nat → Instr) × Nat) :=
  [(.vld, 0), (.vlds, 1), (.vldx, 2), (.vst, 4), (.vsts, 5), (.vstx, 6)]

/-- The access of active element i of a vector load or store, which leaves i in `VSTART` (R361, R366). -/
def vecAccess (s : State) (c : Nat) (w : Word) (i : Nat) : State × ScRes :=
  let x := s.sc c
  let n := ewBits x.ew32 / 8
  let t := s.setSc c { x with vstart := i }
  if vST w then t.scWrite c (x.vAddr w i) (leBytes n (x.el (hD w) i)) false
  else t.scRead c (x.vAddr w i) n false (.vload w i (x.vAddr w i))

/-- What a vector access that is done has brought, in its element of vD. -/
def vecTaken (t : State) (c : Nat) (w : Word) (i : Nat) (d : List Byte) : State :=
  let x := t.sc c
  if vST w then t else t.setSc c (x.setV (hD w) (putElem (ewBits x.ew32) (x.vr (hD w)) i (leNat d)))

/-- The elements of a vector load or store from i up to j are performed at once, in ascending order, from state s to state t (R361,
R366, R367): an inactive element makes no access. -/
inductive VecDone (c : Nat) (w : Word) : Nat → State → Nat → State → Prop
  | none (i : Nat) (s : State) : VecDone c w i s i s
  | skip (i j : Nat) (s t : State) (h : i < (s.sc c).vl) (ha : (s.sc c).active w i = false) (r : VecDone c w (i + 1) s j t) : VecDone c w i s j t
  | done (i j : Nat) (s u t : State) (d : List Byte) (h : i < (s.sc c).vl) (ha : (s.sc c).active w i = true)
      (ho : vecAccess s c w i = (u, .done d)) (hv : (u.sc c).vl = (s.sc c).vl) (r : VecDone c w (i + 1) (vecTaken u c w i d) j t) :
      VecDone c w i s j t

/-- What a vector access comes to at element j, in state t, whose access is not done at once (R322, R364 to R366): an exception of the element,
with j in `VSTART` and its cause in `SC_VXCAUSE`; a wait for the answer, for the line, or for the store that memory holds; or the
same again later from element j on. -/
inductive VecStops (c : Nat) (w : Word) (j : Nat) (t : State) : State → Prop
  | trap (v : State) (cause : Nat) (code : BitVec 16) (h : vecAccess t c w j = (v, .trap cause code)) :
      VecStops c w j t ((v.setSc c { v.sc c with vstart := j, vxcause := wd (code.toNat * 2 ^ 16 + cause) }).scTrap c (v.sc c).pc
        (if cause = 0x08 then 0x08 else 0x0B) 0 ((t.sc c).vAddr w j))
  | line (v : State) (a : Word) (h : vecAccess t c w j = (v, .sent)) (hl : (v.sc c).wait = some (.line a)) :
      VecStops c w j t (v.setSc c { v.sc c with wait := some (.vline j a) })
  | sent (v : State) (h : vecAccess t c w j = (v, .sent)) (hl : ∀ a, (v.sc c).wait ≠ some (.line a)) : VecStops c w j t (v.setSc c (v.sc c))
  | held (v : State) (h : vecAccess t c w j = (v, .held)) :
      VecStops c w j t (v.setSc c { v.sc c with wait := some (.vstore w j ((t.sc c).vAddr w j)) })
  | wait (v : State) (h : vecAccess t c w j = (v, .wait)) :
      VecStops c w j t (({ t with recalls := v.recalls } : State).setSc c
        { t.sc c with vstart := j, fetched := some ((t.sc c).pc, w) })

/-- The rows of the solver cores: each command of an instruction, and its row. -/
inductive CoreRow : (Nat → Instr) → Nat → Prop
  | int (e) (h : e ∈ intRows) : CoreRow e.1 (0x01 * 64 + e.2.1)
  | imm (e) (h : e ∈ immRows) : CoreRow e.1 (e.2.1 * 64)
  | load (e) (h : e ∈ loadRows) : CoreRow e.1 (e.2.1 * 64)
  | store (e) (h : e ∈ storeRows) : CoreRow e.1 (e.2.1 * 64)
  | branch (e) (h : e ∈ branchRows) : CoreRow e.1 (e.2.1 * 64)
  | fp (e) (h : e ∈ fpRows) : CoreRow e.1 (0x28 * 64 + e.2.1)
  | fpInt (e) (h : e ∈ fpIntRows) : CoreRow e.1 (0x28 * 64 + e.2.1)
  | intFp (e) (h : e ∈ intFpRows) : CoreRow e.1 (0x28 * 64 + e.2.1)
  | fma (e) (h : e ∈ fmaRows) : CoreRow e.1 (e.2.1 * 64)
  | atomic (e) (h : e ∈ atomicRows) : CoreRow e.1 (0x30 * 64 + e.2.1)
  | vctl (e) (h : e ∈ vctlRows) : CoreRow e.1 (0x36 * 64 + e.2.1)
  | vmask (e) (h : e ∈ vmaskRows) : CoreRow e.1 (0x36 * 64 + e.2.1)
  | vfp (e) (h : e ∈ vfpRows) : CoreRow e.1 (0x34 * 64 + e.2.1)
  | vint (e) (h : e ∈ vintRows) : CoreRow e.1 (0x34 * 64 + e.2.1)
  | vcmp (e) (h : e ∈ vcmpRows) : CoreRow e.1 (0x34 * 64 + e.2.1)
  | vperm (e) (h : e ∈ vpermRows) : CoreRow e.1 e.2.1
  | tree (e) (h : e ∈ treeRows) : CoreRow e.1 (0x37 * 64 + e.2.1)
  | vmem (e) (h : e ∈ vmemRows) : CoreRow e.1 (0x35 * 64 + e.2)
  | div : CoreRow .div (0x01 * 64 + 0x0D)
  | rem : CoreRow .rem (0x01 * 64 + 0x0F)
  | jal : CoreRow .jal (0x26 * 64)
  | jalr : CoreRow .jalr (0x27 * 64)
  | frnd : CoreRow .frnd (0x28 * 64 + 0x1F)
  | fence : CoreRow .fence (0x31 * 64)
  | fencei : CoreRow .fencei (0x31 * 64 + 1)
  | sys : CoreRow .sys (0x38 * 64)
  | brk : CoreRow .brk (0x38 * 64 + 1)
  | eret : CoreRow .eret (0x38 * 64 + 2)
  | wfe : CoreRow .wfe (0x38 * 64 + 3)
  | sig : CoreRow .sig (0x38 * 64 + 4)
  | srr : CoreRow .srr (0x39 * 64)
  | srw : CoreRow .srw (0x3A * 64)
  | post : CoreRow .post (0x3C * 64)
  | vfw : CoreRow .vfw (0x34 * 64 + 0x12)
  | vfn : CoreRow .vfn (0x34 * 64 + 0x13)
  | vfma : CoreRow .vfma (0x34 * 64 + 0x07)
  | vfms : CoreRow .vfms (0x34 * 64 + 0x08)
  | vfnma : CoreRow .vfnma (0x34 * 64 + 0x09)
  | vmerge : CoreRow .vmerge (0x34 * 64 + 0x0F)
  | setvl : CoreRow .setvl (0x36 * 64)
  | vins : CoreRow .vins (0x36 * 64 + 0x02)
  | vbcast : CoreRow .vbcast (0x36 * 64 + 0x03)
  | vfbcast : CoreRow .vfbcast (0x36 * 64 + 0x04)
  | vpack : CoreRow .vpack (0x37 * 64 + 0x03)
  | vfsums : CoreRow .vfsums (0x37 * 64 + 0x09)
  | vsumt : CoreRow .vsumt (0x37 * 64 + 0x0C)

end Sys2Proof.Claims

/-- Vector control and masks (R342, R354, R355): `SETVL` grants the smaller of gA and `VLMAX` of the width that C names, to `vl` and
gD; `VINS`, `VBCAST` and `VFBCAST` write elements whatever the masks, and the mask operations act on all 64 bits. -/
def Obligations.VectorControl : Prop :=
  (∀ (s u : State) (c : Nat) (w : Word), ScRuns s c (0x36 * 64) u w →
    let x := s.sc c
    let n := min (x.gr (hA w)).toNat (if hC w % 2 = 1 then 64 else 32)
    Sys2Proof.Machine.exec (.setvl c) s = .next (s.leave (u.setSc c (completesNext
      (({ x with vl := n, ew32 := hC w % 2 == 1 } : Core).setG (hD w) (wd n)))))) ∧
  (∀ e ∈ vctlRows, ∀ (s u : State) (c : Nat) (w : Word), ScRuns s c (0x36 * 64 + e.2.1) u w →
    Sys2Proof.Machine.exec (e.1 c) s = .next (s.leave (u.setSc c (completesNext ((s.sc c).setG (hD w) (e.2.2 (s.sc c) w)))))) ∧
  (∀ e ∈ vmaskRows, ∀ (s u : State) (c : Nat) (w : Word), ScRuns s c (0x36 * 64 + e.2.1) u w →
    Sys2Proof.Machine.exec (e.1 c) s = .next (s.leave (u.setSc c (completesNext ((s.sc c).setM (hD w) (e.2.2 (s.sc c) w)))))) ∧
  (∀ (s u : State) (c : Nat) (w : Word), ScRuns s c (0x36 * 64 + 0x02) u w →
    let x := s.sc c
    let k := (x.gr (hB w)).toNat
    (vlmax x.ew32 ≤ k → Sys2Proof.Machine.exec (.vins c) s = .next (s.leave (u.setSc c (completesNext x)))) ∧
    (k < vlmax x.ew32 → ∃ v, Sys2Proof.Machine.exec (.vins c) s = .next (s.leave (u.setSc c (completesNext (x.setV (hD w) v)))) ∧
      ∀ i < vlmax x.ew32, elemOf (ewBits x.ew32) v i = if i = k then (x.gr (hA w)).toNat % 2 ^ ewBits x.ew32 else x.el (hD w) i)) ∧
  (∀ (fp : Bool) (s u : State) (c : Nat) (w : Word), ScRuns s c (0x36 * 64 + (if fp then 0x04 else 0x03)) u w →
    let x := s.sc c
    ∃ v, Sys2Proof.Machine.exec ((if fp then Instr.vfbcast else Instr.vbcast) c) s =
        .next (s.leave (u.setSc c (completesNext (x.setV (hD w) v)))) ∧
      ∀ i < vlmax x.ew32, elemOf (ewBits x.ew32) v i =
        if i < x.vl then (if fp then x.fr (hA w) else x.gr (hA w)).toNat % 2 ^ ewBits x.ew32 else x.el (hD w) i)

/-- The element-wise FP operations (R344, R350 to R352): each active element takes its result, each other keeps its value, and the
flags of the active elements are added to `SC_FCSR`; `VFW` and `VFN` read and write elements of two widths. -/
def Sys2Proof.Claims.VectorFp : Prop :=
  (∀ e ∈ vfpRows, ∀ (s u : State) (c : Nat) (w : Word), ScRuns s c (0x34 * 64 + e.2.1) u w →
    let x := s.sc c
    let n := ewBits x.ew32
    let r := fun i => e.2.2 (ewFmt x.ew32) (rndMode 0 x.fcsr) n (x.el (hA w) i) (x.opB w true i)
    ∃ v, Sys2Proof.Machine.exec (e.1 c) s =
        .next (s.leave (u.setSc c (completesNext ((x.setV (hD w) v).addFlags (flagsOf x w (fun i => (r i).2)))))) ∧
      ∀ i < vlmax x.ew32, elemOf n v i = if x.active w i then (r i).1 % 2 ^ n else x.el (hD w) i) ∧
  (∀ (s u : State) (c : Nat) (w : Word), ScRuns s c (0x34 * 64 + 0x12) u w →
    let x := s.sc c
    let r := fun i => convF f32 f64 (rndMode 0 x.fcsr) (elemOf 32 (x.vr (hA w)) i)
    ∃ v, Sys2Proof.Machine.exec (.vfw c) s =
        .next (s.leave (u.setSc c (completesNext ((x.setV (hD w) v).addFlags (flagsOf x w (fun i => (r i).2)))))) ∧
      ∀ i < 32, elemOf 64 v i = if x.active w i then (r i).1 % 2 ^ 64 else elemOf 64 (x.vr (hD w)) i) ∧
  (∀ (s u : State) (c : Nat) (w : Word), ScRuns s c (0x34 * 64 + 0x13) u w →
    let x := s.sc c
    let r := fun i => convF f64 f32 (rndMode 0 x.fcsr) (elemOf 64 (x.vr (hA w)) i)
    ∃ v, Sys2Proof.Machine.exec (.vfn c) s =
        .next (s.leave (u.setSc c (completesNext ((x.setV (hD w) v).addFlags (flagsOf x w (fun i => (r i).2)))))) ∧
      ∀ i < 64, elemOf 32 v i = if x.active w i then (r i).1 % 2 ^ 32 else elemOf 32 (x.vr (hD w)) i)

/-- `VFMA`, `VFMS` and `VFNMA`: one rounding (R350); where infinity times zero meets a quiet NaN in an active element, the invalid flag
is a free value (log 33). -/
def Sys2Proof.Claims.VectorFused : Prop :=
  ∀ e ∈ [(Instr.vfma, 0x07, false, false), (Instr.vfms, 0x08, false, true), (Instr.vfnma, 0x09, true, false)],
    ∀ (s u : State) (c : Nat) (w : Word), ScRuns s c (0x34 * 64 + e.2.1) u w →
    let x := s.sc c
    let n := ewBits x.ew32
    let t := ewFmt x.ew32
    let r := fun i => t.ffma (rndMode 0 x.fcsr) e.2.2.1 e.2.2.2 (x.el (hA w) i) (x.opB w true i) (x.el (hD w) i)
    let opn := fun i => t.fmaOpen (x.el (hA w) i) (x.opB w true i) (x.el (hD w) i)
    ∃ v, (∀ i < vlmax x.ew32, elemOf n v i = if x.active w i then (r i).1 % 2 ^ n else x.el (hD w) i) ∧
      let y := (x.setV (hD w) v).addFlags (flagsOf x w (fun i => (r i).2))
      ((∀ i < x.vl, x.active w i = true → opn i = false) →
        Sys2Proof.Machine.exec (e.1 c) s = .next (s.leave (u.setSc c (completesNext y)))) ∧
      ((∃ i < x.vl, x.active w i = true ∧ opn i = true) → ∃ iv : Bool, Sys2Proof.Machine.exec (e.1 c) s =
        .next (s.leave (u.setSc c (completesNext (if iv then y.addFlags FpFlags.invalid else y)))))

/-- The element-wise integer operations at EW bits (R350, R351) and `VMERGE`: each active element takes its result, each other keeps
its value. -/
def Sys2Proof.Claims.VectorInteger : Prop :=
  (∀ e ∈ vintRows, ∀ (s u : State) (c : Nat) (w : Word), ScRuns s c (0x34 * 64 + e.2.1) u w →
    let x := s.sc c
    let n := ewBits x.ew32
    ∃ v, Sys2Proof.Machine.exec (e.1 c) s = .next (s.leave (u.setSc c (completesNext ((x.setV (hD w) v).addFlags FpFlags.none)))) ∧
      ∀ i < vlmax x.ew32, elemOf n v i = if x.active w i then e.2.2 n (x.el (hA w) i) (x.opB w false i) else x.el (hD w) i) ∧
  (∀ (s u : State) (c : Nat) (w : Word), ScRuns s c (0x34 * 64 + 0x0F) u w →
    let x := s.sc c
    ∃ v, Sys2Proof.Machine.exec (.vmerge c) s = .next (s.leave (u.setSc c (completesNext (x.setV (hD w) v)))) ∧
      ∀ i < vlmax x.ew32, elemOf (ewBits x.ew32) v i =
        if i < x.vl then (if bit (x.mr (vM w)) i then x.el (hA w) i else x.opB w true i) else x.el (hD w) i)

/-- R353, the comparisons: a mask-writing operation writes only the bits of active elements; every other bit of mD keeps its
value. -/
def Obligations.MaskWrites : Prop :=
  ∀ e ∈ vcmpRows, ∀ (s u : State) (c : Nat) (w : Word), ScRuns s c (0x34 * 64 + e.2.1) u w →
    let x := s.sc c
    let r := fun i => e.2.2.2 x.ew32 (x.el (hA w) i) (x.opB w e.2.2.1 i)
    ∃ m, Sys2Proof.Machine.exec (e.1 c) s =
        .next (s.leave (u.setSc c (completesNext ((x.setM (hD w) m).addFlags (flagsOf x w (fun i => (r i).2)))))) ∧
      ∀ i < 64, bit m i = if x.active w i then (r i).1 else bit (x.mr (hD w)) i

/-- The permutes (R356): each active element takes the element of vA that its row names, 0 beyond `VLMAX`; `VPACK` lists the active
elements from element 0 up. -/
def Sys2Proof.Claims.VectorPermute : Prop :=
  (∀ e ∈ vpermRows, ∀ (s u : State) (c : Nat) (w : Word), ScRuns s c e.2.1 u w →
    let x := s.sc c
    ∃ v, Sys2Proof.Machine.exec (e.1 c) s = .next (s.leave (u.setSc c (completesNext (x.setV (hD w) v)))) ∧
      ∀ i < vlmax x.ew32, elemOf (ewBits x.ew32) v i =
        if x.active w i then ((e.2.2 x w i).getD (x.el (hD w) i)) % 2 ^ ewBits x.ew32 else x.el (hD w) i) ∧
  (∀ (s u : State) (c : Nat) (w : Word), ScRuns s c (0x37 * 64 + 0x03) u w →
    let x := s.sc c
    let act := (List.range x.vl).filter (x.active w)
    ∃ v, Sys2Proof.Machine.exec (.vpack c) s = .next (s.leave (u.setSc c (completesNext (x.setV (hD w) v)))) ∧
      ∀ j < vlmax x.ew32, elemOf (ewBits x.ew32) v j =
        match act[j]? with | some i => x.el (hA w) i | none => x.el (hD w) j)

/-- The reductions (R356 to R358): the tree over the positions 0 to `VLMAX` − 1 combined with fB, which stands alone where no
element is active; the sequential sum in ascending order; and the integer sum, sign-extended. -/
def Sys2Proof.Claims.VectorReduce : Prop :=
  (∀ e ∈ treeRows, ∀ (s u : State) (c : Nat) (w : Word), ScRuns s c (0x37 * 64 + e.2.1) u w →
    let x := s.sc c
    let g := e.2.2 (ewFmt x.ew32) (rndMode 0 x.fcsr)
    let start := (x.fr (hB w)).toNat % 2 ^ ewBits x.ew32
    let root := treeNode g (fun i => if x.active w i then some (x.el (hA w) i) else none) (if x.ew32 then 6 else 5) 0
    Sys2Proof.Machine.exec (e.1 c) s = .next (s.leave (u.setSc c (completesNext
      (match root.1 with
       | none => x.setF (hD w) (wd start)
       | some r => (x.setF (hD w) (wd (g start r).1)).addFlags (root.2.or (g start r).2)))))) ∧
  (∀ (s u : State) (c : Nat) (w : Word), ScRuns s c (0x37 * 64 + 0x09) u w →
    let x := s.sc c
    let r := ((List.range x.vl).filter (x.active w)).foldl (fun (acc : FpRes) i =>
      let e := (ewFmt x.ew32).fadd (rndMode 0 x.fcsr) acc.1 (x.el (hA w) i)
      (e.1, acc.2.or e.2)) ((x.fr (hB w)).toNat % 2 ^ ewBits x.ew32, FpFlags.none)
    Sys2Proof.Machine.exec (.vfsums c) s = .next (s.leave (u.setSc c (completesNext ((x.setF (hD w) (wd r.1)).addFlags r.2))))) ∧
  (∀ (s u : State) (c : Nat) (w : Word), ScRuns s c (0x37 * 64 + 0x0C) u w →
    let x := s.sc c
    let n := ewBits x.ew32
    let sum := (x.gr (hB w)).toNat + (((List.range x.vl).filter (x.active w)).map (fun i => x.el (hA w) i)).sum
    Sys2Proof.Machine.exec (.vsumt c) s = .next (s.leave (u.setSc c (completesNext ((x.setG (hD w) (BitVec.ofInt 64 (sext sum n))))))))

/-- The vector loads and stores (R363 to R367): where no element is of device type, the elements from `VSTART` on are performed in ascending
order, up to the first whose access is not done at once; where there is none, `VSTART` becomes 0 and the next instruction follows; an
element of device type traps at the lowest active element with nothing performed; with `VSTART` at or above `vl` nothing is
performed; and an element whose answer is waited for goes on from there. -/
def Obligations.VectorMemory : Prop :=
  (∀ e ∈ vmemRows, ∀ (s u t : State) (c j : Nat) (w : Word), ScRuns s c (0x35 * 64 + e.2) u w →
    u.vecDevice c w = none → VecDone c w (s.sc c).vstart u j t →
    ((t.sc c).vl ≤ j → (t.sc c).run = true →
      Sys2Proof.Machine.exec (e.1 c) s = .next (s.leave (t.setSc c (completesNext { t.sc c with vstart := 0 })).settle)) ∧
    (∀ v, j < (t.sc c).vl → (t.sc c).active w j = true → VecStops c w j t v → Sys2Proof.Machine.exec (e.1 c) s = .next (s.leave v.settle))) ∧
  (∀ e ∈ vmemRows, ∀ (s u : State) (c i : Nat) (w : Word), ScRuns s c (0x35 * 64 + e.2) u w → u.vecDevice c w = some i →
    let v := u.setSc c { s.sc c with vstart := i, vxcause := 0x05 }
    Sys2Proof.Machine.exec (e.1 c) s = .next (s.leave (v.scTrap c (s.sc c).pc 0x0B 0 ((s.sc c).vAddr w i)).settle)) ∧
  (∀ e ∈ vmemRows, ∀ (s u : State) (c : Nat) (w : Word), ScRuns s c (0x35 * 64 + e.2) u w → (s.sc c).vl ≤ (s.sc c).vstart →
    Sys2Proof.Machine.exec (e.1 c) s = .next (s.leave (u.setSc c (completesNext { s.sc c with vstart := 0 })))) ∧
  (∀ (s t : State) (c i j : Nat) (w a : Word) (d : List Byte), (s.sc c).wait = some (.vload w i a) → vST w = false → (s.sc c).run = true →
    VecDone c w (i + 1) (vecTaken (s.setSc c { s.sc c with wait := none }) c w i d) j t → (t.sc c).vl ≤ j → (t.sc c).run = true →
    s.scDone c 0 d = t.setSc c (completesNext { t.sc c with vstart := 0 }))

/-- Fetching (R24, R25, R289, R290, R305, R312): a command of an instruction acts only on a core that runs and does not wait; a fetch that
memory does not answer at once is waited for; one that is refused, and a word that is no legal instruction, are exceptions; and where
the word at the PC belongs to another row, the command names no event of the core and nothing happens. -/
def Sys2Proof.Claims.CoreFetch : Prop :=
  ∀ (i : Nat → Instr) (row : Nat), CoreRow i row → ∀ (s : State) (c : Nat),
    let x := s.sc c
    ((s.part.sc ≤ c ∨ s.alive = false) → Sys2Proof.Machine.exec (i c) s = .next s) ∧
    (c < s.part.sc → s.alive = true →
      (x.canRun = false → Sys2Proof.Machine.exec (i c) s = .next (s.leave s.settle)) ∧
      (∀ t, x.canRun = true → s.scFetch c = (t, .wait) → Sys2Proof.Machine.exec (i c) s = .next (s.leave t.settle)) ∧
      (∀ t cause code, x.canRun = true → s.scFetch c = (t, .trap cause code) →
        Sys2Proof.Machine.exec (i c) s = .next (s.leave (t.scTrap c x.pc cause code x.pc).settle)) ∧
      (∀ t w, x.canRun = true → s.scFetch c = (t, .word w) → hcLegal w x.ew32 x.vstart = false →
        Sys2Proof.Machine.exec (i c) s = .next (s.leave (t.scTrap c x.pc 0x01 0 w).settle)) ∧
      (∀ t w, x.canRun = true → s.scFetch c = (t, .word w) → hcLegal w x.ew32 x.vstart = true → hcRow w ≠ row →
        Sys2Proof.Machine.exec (i c) s = .next (s.leave s.settle)))

/-! # Clusters: the control core -/

namespace Sys2Proof.Claims

/-- The control core of cluster n of a package that can act executes: its program runs, it waits for no load or store, and at its PC
stands a legal word w of an opcode; nothing else is left to be done. -/
structure CcRuns (s : State) (n op pc : Nat) (w : Word) : Prop where
  present : n < s.part.clusters
  alive   : s.alive = true
  running : (s.cl n).st = .running
  free    : (s.cl n).wait = none
  atPc    : (s.cl n).pc = pc
  fetched : s.imem n pc = w
  legal   : ccIllegal w = none
  code    : opOf w = op
  quiet   : s.settled = true

/-- The end-of-body rule of R222 after the instruction at `pc`, over the active loops, innermost first, as counter, start and end: what
the PC, the active loops and the counters become. -/
def afterBody (pc : Nat) : List (Nat × Nat × Nat) → Tab Nat → Nat × List (Nat × Nat × Nat) × Tab Nat
  | [], lc => (pc + 1, [], lc)
  | (k, start, last) :: r, lc =>
    if pc = last then
      if lc.get 0 k - 1 = 0 then afterBody pc r (lc.set k 0) else (start, (k, start, last) :: r, lc.set k (lc.get 0 k - 1))
    else (pc + 1, (k, start, last) :: r, lc)

/-- The PC that follows an instruction at `pc`. -/
def nextPc (c : Cluster) (pc : Nat) : Nat := (afterBody pc c.loops c.lc).1

/-- The cluster with its loops as the end-of-body rule leaves them, at the PC that follows. -/
def bodyDone (c : Cluster) (pc : Nat) : Cluster :=
  { c with pc := nextPc c pc, loops := (afterBody pc c.loops c.lc).2.1, lc := (afterBody pc c.loops c.lc).2.2 }

/-- What follows an instruction at `pc` that leaves the cluster as c (R214, R222): the next instruction, with the watchdog count
cleared, or the stop with `CL_PC_RANGE` where the image ends. -/
def goesOn (s : State) (n pc : Nat) (c : Cluster) : State :=
  if nextPc c pc < c.codeWords then s.setCl n { bodyDone c pc with wdog := 0 }
  else (s.setCl n (bodyDone c pc)).stopProgram n Code.CL_PC_RANGE 0 pc 0

/-- What follows a jump from `pc` to word `target`. -/
def jumpsTo (s : State) (n pc : Nat) (target : Int) (c : Cluster) : State :=
  if 0 ≤ target ∧ target < c.codeWords then s.setCl n { c with pc := target.toNat, wdog := 0 }
  else (s.setCl n c).stopProgram n Code.CL_PC_RANGE 0 pc 0

/-- The scalar instructions that write sRD (R213): command, opcode, value from the state, the cluster's number and the word. -/
def ccRows : List ((Nat → Instr) × Nat × (State → Nat → Word → Word)) :=
  [(.ccAdd, 0x01, fun s n w => (s.cl n).sr (ccRA w) + (s.cl n).sr (ccRB w)),
   (.ccSub, 0x02, fun s n w => (s.cl n).sr (ccRA w) - (s.cl n).sr (ccRB w)),
   (.ccAnd, 0x03, fun s n w => (s.cl n).sr (ccRA w) &&& (s.cl n).sr (ccRB w)),
   (.ccOr, 0x04, fun s n w => (s.cl n).sr (ccRA w) ||| (s.cl n).sr (ccRB w)),
   (.ccXor, 0x05, fun s n w => (s.cl n).sr (ccRA w) ^^^ (s.cl n).sr (ccRB w)),
   (.ccShl, 0x06, fun s n w => (s.cl n).sr (ccRA w) <<< (((s.cl n).sr (ccRB w)).toNat % 64)),
   (.ccShr, 0x07, fun s n w => (s.cl n).sr (ccRA w) >>> (((s.cl n).sr (ccRB w)).toNat % 64)),
   (.ccSra, 0x08, fun s n w => ((s.cl n).sr (ccRA w)).sshiftRight (((s.cl n).sr (ccRB w)).toNat % 64)),
   (.ccMul, 0x09, fun s n w => (s.cl n).sr (ccRA w) * (s.cl n).sr (ccRB w)),
   (.ccAddi, 0x0A, fun s n w => (s.cl n).sr (ccRA w) + ccImm w), (.ccLi, 0x0B, fun _ _ w => ccImm w),
   (.ccMovhi, 0x0C, fun s n w => wd (ccImmU w * 2 ^ 32 + ((s.cl n).sr (ccRA w)).toNat % 2 ^ 32)),
   (.ccFcmp, 0x0D, fun s n w => if fcmpHolds (ccCond w) ((s.cl n).sr (ccRA w)) ((s.cl n).sr (ccRB w)) then 1 else 0),
   (.movlc, 0x0F, fun s n w => wd ((s.cl n).lc.get 0 (ccRA w))), (.rdtime, 0x11, fun s n _ => s.now (s.part.dieOfCl n))]

/-- The condition of a `BR` (R213). -/
def brTaken (cond : Nat) (a b : Word) : Prop :=
  cond = 0 ∨ (cond = 1 ∧ a = b) ∨ (cond = 2 ∧ a ≠ b) ∨ (cond = 3 ∧ a.toInt < b.toInt) ∨ (cond = 4 ∧ b.toInt ≤ a.toInt) ∨
    (cond = 5 ∧ a.toNat < b.toNat) ∨ (cond = 6 ∧ b.toNat ≤ a.toNat)

/-- The rows of the control core: each command of an instruction that it executes itself, and its opcode. -/
inductive CcRow : (Nat → Instr) → Nat → Prop
  | alu (e) (h : e ∈ ccRows) : CcRow e.1 e.2.1
  | nop : CcRow .ccNop 0x00
  | movu : CcRow .movu 0x0E
  | wrlc : CcRow .wrlc 0x10
  | ld : CcRow .ccLd 0x12
  | st : CcRow .ccSt 0x13
  | br : CcRow .ccBr 0x14
  | jal : CcRow .ccJal 0x15
  | jr : CcRow .jr 0x16
  | loop : CcRow .loop 0x17
  | lexit : CcRow .lexit 0x18
  | halt : CcRow .halt 0x19
  | mark : CcRow (fun n => .mark n 0) 0x70
  | wait : CcRow (fun n => .wait n 0) 0x71
  | waitsum : CcRow .waitsum 0x72
  | echk : CcRow .echk 0x73
  | qpush : CcRow .qpush 0x74

end Sys2Proof.Claims

/-- Fetching (R24, R210 to R214): a command of an instruction acts only on a cluster whose program runs and whose control core waits for no
answer; at a word that R210 to R212 make stop the program it stops with that code; and where the word at the PC has another opcode the
command names no event of the cluster and nothing happens. -/
def Sys2Proof.Claims.CcFetch : Prop :=
  ∀ (i : Nat → Instr) (op : Nat), CcRow i op → ∀ (s : State) (n : Nat),
    ((s.part.clusters ≤ n ∨ s.alive = false) → Sys2Proof.Machine.exec (i n) s = .next s) ∧
    (n < s.part.clusters → s.alive = true →
      (s.ccFetch n = none → Sys2Proof.Machine.exec (i n) s = .next (s.leave s.settle)) ∧
      (∀ pc w, s.ccFetch n = some (pc, w) →
        (∀ code, ccIllegal w = some code → Sys2Proof.Machine.exec (i n) s = .next (s.leave (s.stopProgram n code 0 pc 0).settle)) ∧
        (ccIllegal w = none → opOf w ≠ op → Sys2Proof.Machine.exec (i n) s = .next (s.leave s.settle)))) ∧
    ((s.cl n).st = .running → ((s.cl n).wait = none ∨ (s.cl n).wait = some .mem) →
      s.ccFetch n = some ((s.cl n).pc, s.imem n (s.cl n).pc)) ∧
    ((s.cl n).st ≠ .running → s.ccFetch n = none)

/-- The scalar instructions of the control core (R213, R214, R222): `NOP` changes nothing but the PC and the loops, each other writes
its sRD, and what follows is the next instruction under the end-of-body rule, or the stop with `CL_PC_RANGE`. -/
def Sys2Proof.Claims.CcScalar : Prop :=
  (∀ (s : State) (n pc : Nat) (w : Word), CcRuns s n 0x00 pc w →
    Sys2Proof.Machine.exec (.ccNop n) s = .next (s.leave (goesOn s n pc (s.cl n)).settle)) ∧
  (∀ e ∈ ccRows, ∀ (s : State) (n pc : Nat) (w : Word), CcRuns s n e.2.1 pc w →
    Sys2Proof.Machine.exec (e.1 n) s = .next (s.leave (goesOn s n pc ((s.cl n).setSr (ccRD w) (e.2.2 s n w))).settle))

/-- The branches and jumps (R213, R214): offsets count in words from the branch; a target outside the image stops the program with
`CL_PC_RANGE`; a branch not taken goes on. -/
def Sys2Proof.Claims.CcBranches : Prop :=
  (∀ (s : State) (n pc : Nat) (w : Word), CcRuns s n 0x14 pc w →
    let c := s.cl n
    (brTaken (ccCond w) (c.sr (ccRA w)) (c.sr (ccRB w)) →
      Sys2Proof.Machine.exec (.ccBr n) s = .next (s.leave (jumpsTo s n pc (pc + sfld w 0 32) c).settle)) ∧
    (¬ brTaken (ccCond w) (c.sr (ccRA w)) (c.sr (ccRB w)) →
      Sys2Proof.Machine.exec (.ccBr n) s = .next (s.leave (goesOn s n pc c).settle))) ∧
  (∀ (s : State) (n pc : Nat) (w : Word), CcRuns s n 0x15 pc w →
    Sys2Proof.Machine.exec (.ccJal n) s =
      .next (s.leave (jumpsTo s n pc (pc + sfld w 0 32) ((s.cl n).setSr (ccRD w) (wd (pc + 1)))).settle)) ∧
  (∀ (s : State) (n pc : Nat) (w : Word), CcRuns s n 0x16 pc w →
    Sys2Proof.Machine.exec (.jr n) s = .next (s.leave (jumpsTo s n pc ((s.cl n).sr (ccRA w)).toNat (s.cl n)).settle))

/-- Hardware loops (R218, R219, R221, R223): `LOOP` latches the count and starts the body, or skips it on zero; it stops the program
with `CL_LOOP_FORM` exactly in the cases of R221. `LEXIT` deactivates the innermost loop; `WRLC` writes an inactive counter. -/
def Sys2Proof.Claims.CcLoops : Prop :=
  (∀ (s : State) (n pc : Nat) (w : Word), CcRuns s n 0x17 pc w →
    let c := s.cl n
    let last := pc + ccImmU w
    let count := (c.sr (ccRA w)).toNat % 2 ^ 32
    let bad := 4 ≤ c.loops.length ∨ (∃ l ∈ c.loops, l.1 = ccRD w) ∨ (∃ l ∈ c.loops.head?, l.2.2 < last) ∨ c.codeWords ≤ last ∨
      (0x14 ≤ opOf (s.imem n last) ∧ opOf (s.imem n last) ≤ 0x19) ∨ ccImmU w = 0 ∨ 3 < ccRD w
    (bad → Sys2Proof.Machine.exec (.loop n) s = .next (s.leave (s.stopProgram n Code.CL_LOOP_FORM 0 pc 0).settle)) ∧
    (¬ bad → count = 0 → Sys2Proof.Machine.exec (.loop n) s = .next (s.leave (jumpsTo s n pc (pc + ccImmU w + 1) c).settle)) ∧
    (¬ bad → count ≠ 0 → Sys2Proof.Machine.exec (.loop n) s = .next (s.leave (s.setCl n
      { c with lc := c.lc.set (ccRD w) count, loops := (ccRD w, pc + 1, last) :: c.loops, pc := pc + 1, wdog := 0 })))) ∧
  (∀ (s : State) (n pc : Nat) (w : Word), CcRuns s n 0x18 pc w →
    ((s.cl n).loops = [] → Sys2Proof.Machine.exec (.lexit n) s = .next (s.leave (s.stopProgram n Code.CL_LOOP_FORM 0 pc 0).settle)) ∧
    (∀ l r, (s.cl n).loops = l :: r →
      Sys2Proof.Machine.exec (.lexit n) s = .next (s.leave (jumpsTo s n pc (pc + 1) { s.cl n with loops := r }).settle))) ∧
  (∀ (s : State) (n pc : Nat) (w : Word), CcRuns s n 0x10 pc w →
    ((∃ l ∈ (s.cl n).loops, l.1 = ccRD w) →
      Sys2Proof.Machine.exec (.wrlc n) s = .next (s.leave (s.stopProgram n Code.CL_LOOP_WRITE 0 pc 0).settle)) ∧
    ((∀ l ∈ (s.cl n).loops, l.1 ≠ ccRD w) → Sys2Proof.Machine.exec (.wrlc n) s = .next (s.leave
      (goesOn s n pc { s.cl n with lc := (s.cl n).lc.set (ccRD w) (((s.cl n).sr (ccRA w)).toNat % 2 ^ 32) }).settle)))

/-- R231: when a program stops, `CC_FAULT` records the code, the engine and the PC, the cluster enters FAULTED, every issue queue is
emptied and open chains are discarded without their counts, the font keeps what was written, the die writes an error record, and the
launching dispatcher is told. -/
def Obligations.ProgramStops : Prop :=
  ∀ (s : State) (n eng pc : Nat) (code detail : BitVec 16), eng < 8 → pc < 4096 →
    let t := s.stopProgram n code eng pc detail
    (t.cl n).st = .faulted ∧ fld (t.cl n).fault 32 16 = code.toNat ∧ fld (t.cl n).fault 0 3 = eng ∧ fld (t.cl n).fault 16 12 = pc ∧
      fld (t.cl n).fault 48 16 = detail.toNat ∧ (t.cl n).meQ = [] ∧ (t.cl n).eeQ = [] ∧ (t.cl n).sruQ = [] ∧ (t.cl n).dmQ = [] ∧
      (t.cl n).bank0 = none ∧ (t.cl n).bank1 = none ∧ (t.cl n).eePend = [] ∧ (t.cl n).reads = [] ∧ (t.cl n).dm = [] ∧ t.ccFetch n = none ∧ (t.cl n).launchedBy = none ∧
      (t.cl n).log = (s.cl n).log ∧
      t.mem = s.mem ∧
      (∃ r, t.err.fresh = s.err.fresh ++ [r] ∧ r.code = code ∧ r.unit = uCluster ∧ r.index = n ∧ r.die = s.part.dieOfCl n) ∧
      (∀ cr, (s.cl n).launchedBy = some cr →
        t.dsp cr.unit = { s.dsp cr.unit with
          lists := (s.dsp cr.unit).lists.map (fun l => if l.id = cr.list then l.targetDone cr.entry n code (s.now (4 + cr.unit)) else l) }) ∧
      (∀ m, m ≠ n → t.cl m = s.cl m)

/-- `MOVU`, `WAITSUM`, `ECHK` (R229, R249, R250): a summary register that is not valid stops the program or stalls it; `ECHK` waits for
every issued instruction, then writes the code of the refusal latch and clears it. -/
def Sys2Proof.Claims.CcSummaries : Prop :=
  (∀ (s : State) (n pc : Nat) (w : Word), CcRuns s n 0x0E pc w →
    (ccRA w ∈ (s.cl n).uValid → Sys2Proof.Machine.exec (.movu n) s =
      .next (s.leave (goesOn s n pc ((s.cl n).setSr (ccRD w) ((s.cl n).u.get 0 (ccRA w)))).settle)) ∧
    (ccRA w ∉ (s.cl n).uValid → Sys2Proof.Machine.exec (.movu n) s =
      .next (s.leave (s.stopProgram n Code.CL_SUM_INVALID 0 pc 0).settle))) ∧
  (∀ (s : State) (n pc : Nat) (w : Word), CcRuns s n 0x72 pc w →
    ((∀ i < 16, bit w i = true → i ∈ (s.cl n).uValid) →
      Sys2Proof.Machine.exec (.waitsum n) s = .next (s.leave (goesOn s n pc (s.cl n)).settle)) ∧
    ((∃ i < 16, bit w i = true ∧ i ∉ (s.cl n).uValid) → Sys2Proof.Machine.exec (.waitsum n) s = .next (s.leave s))) ∧
  (∀ (s : State) (n pc : Nat) (w : Word), CcRuns s n 0x73 pc w →
    ((s.cl n).drained = false → Sys2Proof.Machine.exec (.echk n) s = .next (s.leave s)) ∧
    ((s.cl n).drained = true → Sys2Proof.Machine.exec (.echk n) s = .next (s.leave (goesOn s n pc
      { (s.cl n).setSr (ccRD w) (match (s.cl n).latch with | some x => x.1.setWidth 64 | none => 0) with latch := none }).settle)))

/-- `HALT` (R230, R232): it waits until every issued instruction has completed; the cluster then enters LOADED and reports its status,
`CL_REFUSED` while the latch holds a code. -/
def Sys2Proof.Claims.CcHalt : Prop :=
  ∀ (s : State) (n pc : Nat) (w : Word), CcRuns s n 0x19 pc w →
    ((s.cl n).drained = false → Sys2Proof.Machine.exec (.halt n) s = .next (s.leave s)) ∧
    ((s.cl n).drained = true →
      let status := if (s.cl n).latch.isSome then Code.CL_REFUSED else BitVec.ofNat 16 w.toNat
      Sys2Proof.Machine.exec (.halt n) s =
        .next (s.leave ((s.setCl n { s.cl n with st := .loaded, exit := status, wdog := 0 }).reportEnd n status).settle))

/-- Tokens (R246 to R248): a `MARK` of the control core increments its token below 255, a `WAIT` takes one above 0; each stalls
otherwise. At an engine, a `MARK` also waits until what was issued to it earlier has completed. -/
def Sys2Proof.Claims.Tokens : Prop :=
  (∀ (s : State) (n pc : Nat) (w : Word), CcRuns s n 0x70 pc w → ccEng w = 0 →
    let k := (s.cl n).tok.get 0 (ccTok w)
    (k < 255 → Sys2Proof.Machine.exec (.mark n 0) s =
      .next (s.leave (goesOn s n pc { s.cl n with tok := (s.cl n).tok.set (ccTok w) (k + 1), wdog := 0 }).settle)) ∧
    (255 ≤ k → Sys2Proof.Machine.exec (.mark n 0) s = .next (s.leave s))) ∧
  (∀ (s : State) (n pc : Nat) (w : Word), CcRuns s n 0x71 pc w → ccEng w = 0 →
    let k := (s.cl n).tok.get 0 (ccTok w)
    (0 < k → Sys2Proof.Machine.exec (.wait n 0) s =
      .next (s.leave (goesOn s n pc { s.cl n with tok := (s.cl n).tok.set (ccTok w) (k - 1), wdog := 0 }).settle)) ∧
    (k = 0 → Sys2Proof.Machine.exec (.wait n 0) s = .next (s.leave s))) ∧
  (∀ (s : State) (n e : Nat) (i : Issued) (r : List Issued), n < s.part.clusters → s.alive = true → s.settled = true → 0 < e → e < 5 →
    (s.cl n).st = .running → (s.cl n).queueOf e = i :: r →
    let k := (s.cl n).tok.get 0 (ccTok i.word)
    (opOf i.word = 0x70 → (s.cl n).engBusy e = false → k < 255 → Sys2Proof.Machine.exec (.mark n e) s = .next (s.leave
      (s.setCl n { (s.cl n).setQueueOf e r with tok := (s.cl n).tok.set (ccTok i.word) (k + 1), wdog := 0 }))) ∧
    (opOf i.word = 0x70 → ((s.cl n).engBusy e = true ∨ 255 ≤ k) → Sys2Proof.Machine.exec (.mark n e) s = .next (s.leave s)) ∧
    (opOf i.word = 0x71 → 0 < k → Sys2Proof.Machine.exec (.wait n e) s = .next (s.leave
      (s.setCl n { (s.cl n).setQueueOf e r with tok := (s.cl n).tok.set (ccTok i.word) (k - 1), wdog := 0 }))) ∧
    (opOf i.word = 0x71 → k = 0 → Sys2Proof.Machine.exec (.wait n e) s = .next (s.leave s)))

/-- Issue (R225, R237) and `QPUSH` (R242): an engine instruction whose queue ends are its engine's enters the engine's issue queue with
the scalar operands read, while that holds fewer than 32; `QPUSH` pushes the descriptor in sRA. -/
def Sys2Proof.Claims.Issue : Prop :=
  (∀ (s : State) (n op pc : Nat) (w : Word), CcRuns s n op pc w → (op ∈ engineOps ∨ ((op = 0x70 ∨ op = 0x71) ∧ 0 < ccEng w)) →
    let c := s.cl n
    let e := engOf w
    (c.endsOk w = false → Sys2Proof.Machine.exec (.engineIssue n) s = .next (s.leave (s.stopProgram n Code.CL_QUEUE_END 0 pc 0).settle)) ∧
    (c.endsOk w = true → 32 ≤ (c.queueOf e).length → Sys2Proof.Machine.exec (.engineIssue n) s = .next (s.leave s)) ∧
    (c.endsOk w = true → (c.queueOf e).length < 32 → Sys2Proof.Machine.exec (.engineIssue n) s = .next (s.leave (goesOn s n pc
      { c.setQueueOf e (c.queueOf e ++ [⟨pc, w, c.issueOps w, c.seq + 1⟩]) with
        seq := c.seq + 1, uValid := if op = 0x59 then c.uValid.filter (· != fld w 52 4) else c.uValid }).settle))) ∧
  (∀ (s : State) (n pc : Nat) (w : Word), CcRuns s n 0x74 pc w →
    let c := s.cl n
    let q := fld w 36 5
    let d := c.sr (ccRA w)
    (c.owns 0 true q = false → Sys2Proof.Machine.exec (.qpush n) s = .next (s.leave (s.stopProgram n Code.CL_QUEUE_END 0 pc 0).settle)) ∧
    (c.owns 0 true q = true → c.descBad d = true →
      Sys2Proof.Machine.exec (.qpush n) s = .next (s.leave (s.stopProgram n Code.CL_QUEUE_DESC 0 pc 0).settle)) ∧
    (c.owns 0 true q = true → c.descBad d = false → (c.q q).room 1 = false → Sys2Proof.Machine.exec (.qpush n) s = .next (s.leave s)) ∧
    (c.owns 0 true q = true → c.descBad d = false → (c.q q).room 1 = true → Sys2Proof.Machine.exec (.qpush n) s = .next (s.leave
      (goesOn s n pc (c.setQ q { c.q q with entries := (c.q q).entries ++ [d], next := ((c.q q).next + 1) % (c.q q).depth })).settle)))

namespace Sys2Proof.Claims

/-- The control core of cluster n executes a load or store of opcode `op`, for the first time or again after memory has made it wait. -/
structure CcAccess (s : State) (n op pc : Nat) (w : Word) : Prop where
  present : n < s.part.clusters
  alive   : s.alive = true
  running : (s.cl n).st = .running
  free    : (s.cl n).wait = none ∨ (s.cl n).wait = some .mem
  atPc    : (s.cl n).pc = pc
  fetched : s.imem n pc = w
  legal   : ccIllegal w = none
  code    : opOf w = op
  quiet   : s.settled = true

/-- The blocks whose registers a control core does not reach (R25). -/
def ccBlocks : List Blk := [.sec, .dbg, .bootBuf, .bootRom]

end Sys2Proof.Claims

/-- Loads and stores of the control core (R215, R216, R25): an address that is no multiple of 8 stops the program with `CL_ALIGN`, an
unmapped one, or one of a block that the control core does not reach, with `CL_UNMAPPED`, and a refusal of memory with `CL_MEM_FAULT`. A word of
HBM, of a font or instruction memory, or of a register is read or written, and the program goes on; an access that memory does not let start
is tried again; a write that memory holds is waited for; an access to another package is sent as a request, which is waited for; and while
the control core waits for an answer nothing changes. -/
def Sys2Proof.Claims.CcMemory : Prop :=
  (∀ (st : Bool) (s : State) (n : Nat), n < s.part.clusters → s.alive = true → s.settled = true → s.ccFetch n = none →
    Sys2Proof.Machine.exec ((if st then Instr.ccSt else Instr.ccLd) n) s = .next (s.leave s)) ∧
  (∀ (st : Bool) (s : State) (n pc : Nat) (w : Word), CcAccess s n (if st then 0x13 else 0x12) pc w →
    let a := (s.cl n).sr (ccRA w) + ccImm w
    (a.toNat % 8 ≠ 0 → Sys2Proof.Machine.exec ((if st then Instr.ccSt else Instr.ccLd) n) s =
      .next (s.leave (s.stopProgram n Code.CL_ALIGN 0 pc 0).settle)) ∧
    (a.toNat % 8 = 0 → s.isLocal a = true →
      (s.region (addrLocal a) = .unmapped ∨ ∃ b ∈ ccBlocks, ∃ i o, s.region (addrLocal a) = .reg b i o) →
      Sys2Proof.Machine.exec ((if st then Instr.ccSt else Instr.ccLd) n) s =
        .next (s.leave (s.stopProgram n Code.CL_UNMAPPED 0 pc 0).settle))) ∧
  (∀ (s : State) (n pc : Nat) (w : Word), CcAccess s n 0x12 pc w →
    let a := (s.cl n).sr (ccRA w) + ccImm w
    let goes := fun (t : State) (v : Word) =>
      Sys2Proof.Machine.exec (.ccLd n) s = .next (s.leave (goesOn t n pc { (s.cl n).setSr (ccRD w) v with wait := none }).settle)
    let again := fun (t : State) => Sys2Proof.Machine.exec (.ccLd n) s =
      .next (s.leave ({ s with recalls := t.recalls } |>.setCl n { s.cl n with wait := some .mem, wdog := 0 }).settle)
    a.toNat % 8 = 0 →
    (s.isLocal a = true →
      (∀ x, s.region (addrLocal a) = .hbm x →
        let r := s.hbmRead (s.ccReq n true) (addrLocal a / 64 * 64) 64
        (∀ d, r.2 = .done d → goes r.1 (word64 d (addrLocal a % 64))) ∧
        (∀ code, r.2 = .refused code →
          Sys2Proof.Machine.exec (.ccLd n) s = .next (s.leave (r.1.stopProgram n Code.CL_MEM_FAULT 0 pc code).settle)) ∧
        ((r.2 = .wait ∨ r.2 = .held) → again r.1)) ∧
      (∀ m x, (s.region (addrLocal a) = .font m x ∨ s.region (addrLocal a) = .imem m x) →
        (s.mayPass (s.ccReq n false) m = true →
          goes (s.chargePass (s.ccReq n false) m 8) (word64 (memRdN s.mem (addrLocal a) 8) 0)) ∧
        (s.mayPass (s.ccReq n false) m = false → again s)) ∧
      (∀ b i o, s.region (addrLocal a) = .reg b i o → b ∉ ccBlocks → goes (s.regRead b i o).1 (s.regRead b i o).2)) ∧
    (s.isLocal a = false → Sys2Proof.Machine.exec (.ccLd n) s = .next (s.leave
      (((s.disown n).ccWait n (.load (ccRD w))).sendReq (s.part.dieOfCl n) (s.userHdr opREAD a 8 s.workTag 0) [] (.cc n)).settle))) ∧
  (∀ (s : State) (n pc : Nat) (w : Word), CcAccess s n 0x13 pc w →
    let a := (s.cl n).sr (ccRA w) + ccImm w
    let data := leBytes 8 ((s.cl n).sr (ccRB w)).toNat
    let goes := fun (t : State) =>
      Sys2Proof.Machine.exec (.ccSt n) s = .next (s.leave (goesOn t n pc { s.cl n with wait := none }).settle)
    let again := fun (t : State) => Sys2Proof.Machine.exec (.ccSt n) s =
      .next (s.leave ({ s with recalls := t.recalls } |>.setCl n { s.cl n with wait := some .mem, wdog := 0 }).settle)
    a.toNat % 8 = 0 →
    (s.isLocal a = true →
      (∀ x, s.region (addrLocal a) = .hbm x →
        let r := (s.disown n).hbmWrite (s.ccReq n false) (addrLocal a) data (.cc n)
        (r.2 = .done 0 → goes r.1) ∧
        (∀ k, 0 < k → r.2 = .done k → Sys2Proof.Machine.exec (.ccSt n) s =
          .next (s.leave (r.1.setCl n { s.cl n with wait := some .store, wdog := 0 }).settle)) ∧
        (∀ code, r.2 = .refused code →
          Sys2Proof.Machine.exec (.ccSt n) s = .next (s.leave (r.1.stopProgram n Code.CL_MEM_FAULT 0 pc code).settle)) ∧
        (r.2 = .wait → again r.1)) ∧
      (∀ m x, (s.region (addrLocal a) = .font m x ∨ s.region (addrLocal a) = .imem m x) →
        (s.mayPass (s.ccReq n false) m = true →
          goes (({ s with mem := memWrL s.mem (addrLocal a) data } : State).chargePass (s.ccReq n false) m 8)) ∧
        (s.mayPass (s.ccReq n false) m = false → again s)) ∧
      (∀ b i o, s.region (addrLocal a) = .reg b i o → b ∉ ccBlocks →
        let t := (s.regWrite false b i o ((s.cl n).sr (ccRB w))).1
        ((t.cl n).st = .running →
          Sys2Proof.Machine.exec (.ccSt n) s = .next (s.leave (goesOn t n pc { t.cl n with wait := none }).settle)) ∧
        ((t.cl n).st ≠ .running → Sys2Proof.Machine.exec (.ccSt n) s = .next (s.leave t.settle)))) ∧
    (s.isLocal a = false → Sys2Proof.Machine.exec (.ccSt n) s = .next (s.leave
      (((s.disown n).ccWait n .store).sendReq (s.part.dieOfCl n) (s.userHdr opWRITE a 8 s.workTag 0) data (.cc n)).settle)))

/-- R252: when the watchdog count has reached `CC_WDOG.LIMIT`, which is not 0, and no request of the cluster is outstanding, the program
stops with `CL_DEADLOCK`, naming the oldest incomplete instruction in issue order and the queue that it waits on; until then, and with a
`LIMIT` of 0, the watchdog does nothing. The incomplete instructions are those in the issue queues, the chains that drain, the outputs not
yet pushed, and the reads and transfers in progress. -/
def Sys2Proof.Claims.Watchdog : Prop :=
  (∀ (s : State) (n : Nat), n < s.part.clusters → s.alive = true → (s.cl n).st = .running → (s.cl n).outstanding = false →
    0 < s.rfld (clReg n 0x18) 0 32 → s.rfld (clReg n 0x18) 0 32 * 16 ≤ (s.cl n).wdog →
    let o := s.oldest n
    Sys2Proof.Machine.exec (.ccWatchdog n) s =
      .next (s.leave (s.stopProgram n Code.CL_DEADLOCK o.1 o.2.1 (BitVec.ofNat 16 o.2.2)).settle)) ∧
  (∀ (s : State) (n : Nat), n < s.part.clusters → s.alive = true → s.settled = true →
    ((s.cl n).st ≠ .running ∨ (s.cl n).outstanding = true ∨ s.rfld (clReg n 0x18) 0 32 = 0 ∨ (s.cl n).wdog < s.rfld (clReg n 0x18) 0 32 * 16) →
    Sys2Proof.Machine.exec (.ccWatchdog n) s = .next (s.leave s)) ∧
  (∀ (s : State) (n : Nat) (x : Nat × Issued × Nat), x ∈ (s.cl n).incomplete →
    (∀ y ∈ (s.cl n).incomplete, y ≠ x → x.2.1.seq < y.2.1.seq) →
    s.oldest n = (x.1, x.2.1.pc, x.2.2)) ∧
  (∀ (s : State) (n : Nat), (s.cl n).incomplete = [] → (s.oldest n).1 = 0 ∧ (s.oldest n).2.1 = (s.cl n).pc) ∧
  (∀ (c : Cluster) (w : Word) (q : Nat), c.waitsOn w = q → q ≠ 0xFFFF → q ∈ insOf w ∨ (q ∈ outsOf w ∧ (c.q q).room 1 = false)) ∧
  (∀ c : Cluster,
    (∀ e ∈ [1, 2, 3, 4], ∀ i ∈ c.queueOf e, (e, i, c.waitsOn i.word) ∈ c.incomplete) ∧
    (∀ i ∈ c.reads, (3, i, 0xFFFF) ∈ c.incomplete) ∧ (∀ d ∈ c.dm, (4, d.ins, 0xFFFF) ∈ c.incomplete) ∧
    (∀ p ∈ c.eePend, ∃ i q, (2, i, q) ∈ c.incomplete ∧ i.seq = p.seq ∧ i.pc = p.pc) ∧
    (∀ b < 2, ∀ ch i, c.bank b = some ch → ch.last = some i → ch.state ≠ .open → ∃ q, (1, i, q) ∈ c.incomplete))

/-! # Clusters: the engines -/

namespace Sys2Proof.Claims

/-- Engine `eng` of the running cluster n of a package that can act has instruction i, of an opcode, at the head of its issue queue, and
r behind it; nothing else is left to be done. -/
structure HeadRuns (s : State) (n eng op : Nat) (i : Issued) (r : List Issued) : Prop where
  present : n < s.part.clusters
  alive   : s.alive = true
  running : (s.cl n).st = .running
  queue   : (s.cl n).queueOf eng = i :: r
  code    : opOf i.word = op
  quiet   : s.settled = true

/-- The queue ends that an `MMA` pops. -/
def mmaPops (w : Word) : List Nat := if mAcc w = 1 then [mQA w, mQB w, mQP w] else [mQA w, mQB w]

/-- The cluster without the instruction at the head of an engine's issue queue, with the watchdog count cleared. -/
def started (c : Cluster) (eng : Nat) (r : List Issued) : Cluster := { c.setQueueOf eng r with wdog := 0 }

/-- Group sums added into an accumulator in their order (R116, R121). -/
def addAll (isInt ieee : Bool) (a : Word) (gs : List Val) : Word := gs.foldl (fun x g => (accAdd isInt ieee x g).acc) a

/-- The groups at even places, or at odd ones. -/
def everyOther : Bool → List Val → List Val
  | _, [] => []
  | true, g :: r => g :: everyOther false r
  | false, _ :: r => everyOther true r

end Sys2Proof.Claims

/-- R121 and R122: each output of an `MMA` adds its group sums to its accumulator in ascending g; in 64 × 16 the groups of even number
go to the even partial and those of odd number to the odd partial, each in ascending g. -/
def Sys2Proof.Claims.SummationOrder : Prop :=
  ∀ (isInt ieee odd : Bool) (d passes n : Nat) (a b : List (List (List Val))) (ev od : List Word) (i j : Nat), i < a.length → j < n →
    let gs := outSums d passes (nth a [] i) (colOf b j)
    let k := i * n + j
    (∃ p, (mmaOutputs isInt ieee false odd d passes n a b ev od)[k]? = some p ∧ p.ev = addAll isInt ieee (nth ev 0 k) gs) ∧
    (∃ p, (mmaOutputs isInt ieee true odd d passes n a b ev od)[k]? = some p ∧
      p.ev = addAll isInt ieee (nth ev 0 k) (everyOther (!odd) gs) ∧ p.od = addAll isInt ieee (nth od 0 k) (everyOther odd gs))

/-- The accumulator addition (R66, R67, R117, R119, R120): a truncated sum of zero gives +0 unless both operands are −0; in ACCI the exact
sum saturates at the bounds of 48 bits; an addition that saturates counts as an overflow, and one in IEEE mode never saturates. -/
def Sys2Proof.Claims.AccumulatorAdd : Prop :=
  (∀ (ieee : Bool) (a : Word) (sa ss : Bool) (e f : Int), accf.decode (a.toNat % 2 ^ 40) = .fin sa 0 e →
    accfAdd ieee a (.fin ss 0 f) = ⟨wd (accf.withSign (sa && ss) 0), false, false⟩) ∧
  (∀ (ieee : Bool) (a : Word) (i : Int),
    let x : Int := sext a.toNat 48 + i
    (acciAdd a (Val.ofInt i)).acc = BitVec.ofInt 64 (max (-2 ^ 47) (min (2 ^ 47 - 1) x)) ∧
    ((acciAdd a (Val.ofInt i)).ovf = true ↔ (x < -2 ^ 47 ∨ 2 ^ 47 - 1 < x)) ∧ (accAdd true ieee a (Val.ofInt i)) = acciAdd a (Val.ofInt i)) ∧
  (∀ (isInt ieee : Bool) (a : Word) (g : Val), (accAdd isInt ieee a g).sat = true → (accAdd isInt ieee a g).ovf = true) ∧
  (∀ (a : Word) (g : Val), (accfAdd true a g).sat = false)

/-- `MMA` (R124, R125, R148, R161, R813): an opening waits for a busy bank; the first failing check refuses it and pops nothing; it waits
for its tiles; then it pops them (keeping the entries under a relight policy) and leaves the chain accumulated in its bank, open, or
draining after `LAST`; the other bank and every other queue are as they were. -/
def Sys2Proof.Claims.MatrixMultiply : Prop :=
  ∀ (s : State) (n : Nat) (i : Issued) (r : List Issued), HeadRuns s n 1 0x40 i r →
    let c := s.cl n
    let w := i.word
    let waits := mAcc w < 2 ∧ c.openWaits (mShape w) (mBank w) = true
    (waits → Sys2Proof.Machine.exec (.mma n) s = .next (s.leave s)) ∧
    (∀ code, ¬ waits → c.mmaCheck w (s.relightOff n) = some code →
      Sys2Proof.Machine.exec (.mma n) s = .next (s.leave (s.refuseHead n 1 i code).settle)) ∧
    (¬ waits → c.mmaCheck w (s.relightOff n) = none → (∃ q ∈ mmaPops w, (c.q q).entries = []) →
      Sys2Proof.Machine.exec (.mma n) s = .next (s.leave s)) ∧
    (¬ waits → c.mmaCheck w (s.relightOff n) = none → (∀ q ∈ mmaPops w, (c.q q).entries ≠ []) →
      let a := (c.q (mQA w)).head
      let b := (c.q (mQB w)).head
      let p := if mAcc w = 1 then some (c.q (mQP w)).head else none
      (∀ code, mmaTileCheck w a b p = some code →
        Sys2Proof.Machine.exec (.mma n) s = .next (s.leave (s.refuseHead n 1 i code).settle)) ∧
      (mmaTileCheck w a b p = none →
        ∃ C : Cluster, Sys2Proof.Machine.exec (.mma n) s = .next (s.leave (s.setCl n C)) ∧
          C = { started c 1 r with queues := C.queues, bank0 := C.bank0, bank1 := C.bank1 } ∧
          C.bank (mBank w) = some (s.mmaResult n i a b p) ∧ C.bank (1 - mBank w) = c.bank (1 - mBank w) ∧
          (∀ q, C.q q = if q ∈ mmaPops w then (if 2 ≤ c.mmaEff w (s.relightOff n) then (c.q q).popKeep (mBank w) else (c.q q).pop) else c.q q) ∧
          (s.mmaResult n i a b p).state = (if mLast w then BankState.draining else BankState.open)))

/-- `MSAVE`, `MREST` and `MDROP` (R135 to R140): `MSAVE` pushes the accumulators as they are with the chain's flags, the even partials of
64 × 16 first, and leaves the chain; `MREST` waits for a busy bank and opens a chain with the accumulators of the popped tiles, in the order
in which a raw tile of the shape holds them; `MDROP` closes the chain, releases what it retains and adds its counts. A failing check refuses
each of them. -/
def Sys2Proof.Claims.MatrixSaves : Prop :=
  (∀ (s : State) (n : Nat) (i : Issued) (r : List Issued) (ch : Chain), HeadRuns s n 1 0x41 i r →
    (s.cl n).bank (mBank i.word) = some ch → (s.cl n).msaveCheck i.word = none →
    let qo := mQO i.word
    let odd := ch.shape = 2 ∧ i.ops ≠ []
    let l := if odd then ch.odd else ch.even
    let t := s.pushTile n qo (wordsBytes (rawPlace ch.shape l)) (fun a =>
      mkDesc (if ch.isInt then 0xF else 0xE) 32 32 a (ch.sat || ch.preSat) (ch.clip || ch.preClip) (rawNan ch l) false)
    ((s.cl n).q qo).room 1 = true → (i.ops = [] ∨ ch.shape = 2) →
    Sys2Proof.Machine.exec (.msave n) s = .next (s.leave (t.setCl n
      (started (t.cl n) 1 (if ch.shape = 2 ∧ i.ops = [] then { i with ops := [1] } :: r else r))))) ∧
  (∀ (s : State) (n : Nat) (i : Issued) (r : List Issued) (code : BitVec 16), HeadRuns s n 1 0x41 i r →
    (s.cl n).msaveCheck i.word = some code →
    Sys2Proof.Machine.exec (.msave n) s = .next (s.leave (s.refuseHead n 1 i code).settle)) ∧
  (∀ (s : State) (n : Nat) (i : Issued) (r : List Issued), HeadRuns s n 1 0x42 i r →
    (s.cl n).openWaits (mShape i.word) (mBank i.word) = false → (s.cl n).mrestCheck i.word = none →
    let k := if mShape i.word = 2 then 2 else 1
    let q := (s.cl n).q (mQA i.word)
    let ds := q.entries.take k
    k ≤ q.entries.length → mrestTileCheck ds = none →
    ∃ C : Cluster, Sys2Proof.Machine.exec (.mrest n) s = .next (s.leave (s.setCl n C)) ∧
      C = { started (s.cl n) 1 r with queues := C.queues, bank0 := C.bank0, bank1 := C.bank1 } ∧
      C.q (mQA i.word) = { q with entries := q.entries.drop k } ∧ (∀ j, j ≠ mQA i.word → C.q j = (s.cl n).q j) ∧
      C.bank (1 - mBank i.word) = (s.cl n).bank (1 - mBank i.word) ∧
      ∃ ch, C.bank (mBank i.word) = some ch ∧ ch.state = .open ∧ ch.shape = mShape i.word ∧ ch.nextOdd = mLast i.word ∧
        ch.isInt = (dFmt (nth ds 0 0) == 0xF) ∧ ch.preSat = ds.any dSat ∧ ch.preClip = ds.any dClip ∧ ch.fields = none ∧
        ch.offAt = s.relightOff n ∧ ch.even = rawUnplace (mShape i.word) ((s.tile n (nth ds 0 0)).flatten.map (restoreWord ch.isInt)) ∧
        (mShape i.word = 2 → ch.odd = rawUnplace 2 ((s.tile n (nth ds 0 1)).flatten.map (restoreWord ch.isInt)))) ∧
  (∀ (s : State) (n : Nat) (i : Issued) (r : List Issued), HeadRuns s n 1 0x42 i r →
    ((s.cl n).openWaits (mShape i.word) (mBank i.word) = true → Sys2Proof.Machine.exec (.mrest n) s = .next (s.leave s)) ∧
    (∀ code, (s.cl n).openWaits (mShape i.word) (mBank i.word) = false → (s.cl n).mrestCheck i.word = some code →
      Sys2Proof.Machine.exec (.mrest n) s = .next (s.leave (s.refuseHead n 1 i code).settle))) ∧
  (∀ (shape : Nat) (l : List Word), rawUnplace shape (rawPlace shape l) = l) ∧
  (∀ (s : State) (n : Nat) (i : Issued) (r : List Issued) (ch : Chain), HeadRuns s n 1 0x43 i r →
    i.word.toNat &&& (mask 55 19 + mask 17 0) = 0 → (s.cl n).bank (mBank i.word) = some ch → ch.state = .open →
    Sys2Proof.Machine.exec (.mdrop n) s = .next (s.leave
      ((s.setCl n (((started (s.cl n) 1 r).setBank (mBank i.word) none).releaseBank (mBank i.word))).addCounts n i.seq ch.counts))) ∧
  (∀ (s : State) (n : Nat) (i : Issued) (r : List Issued), HeadRuns s n 1 0x43 i r → i.word.toNat &&& (mask 55 19 + mask 17 0) = 0 →
    (∀ ch, (s.cl n).bank (mBank i.word) = some ch → ch.state ≠ .open) →
    Sys2Proof.Machine.exec (.mdrop n) s = .next (s.leave (s.refuseHead n 1 i Code.CL_ME_CHAIN).settle))

/-- The relight decision (R145 to R147, R150 to R153): a draining chain with a policy decides once. One that triggers (more clips on entry
than `THRESH`, or an overflow) counts a trigger; under a relight policy, if a tile was narrowed, it is recomputed from its preload and its
retained tiles, each taken in under the policy's format, and counts a relit tile, and otherwise it is only flagged. No other chain decides. -/
def Sys2Proof.Claims.RelightDecision : Prop :=
  (∀ (s : State) (n b : Nat), n < s.part.clusters → b < 2 → s.alive = true → s.settled = true →
    ((s.cl n).st ≠ .running ∨ (s.cl n).bank b = none ∨
      ∃ ch, (s.cl n).bank b = some ch ∧ (ch.state ≠ .draining ∨ ch.decided = true ∨ ch.eff = 0)) →
    Sys2Proof.Machine.exec (.meDecision n b) s = .next (s.leave s)) ∧
  (∀ (s : State) (n b : Nat) (ch : Chain), n < s.part.clusters → b < 2 → s.alive = true → s.settled = true → (s.cl n).st = .running →
    (s.cl n).bank b = some ch → ch.state = .draining → ch.decided = false → ch.eff ≠ 0 →
    let decides := fun (x : Chain) =>
      Sys2Proof.Machine.exec (.meDecision n b) s = .next (s.leave (s.setCl n ((s.cl n).setBank b (some x))))
    let w := ch.fields.getD 0
    let trig := mThresh w < ch.clipIn ∨ ch.overflow = true
    let enter := fun (d : Word) => enterTile (dFmt d) (if ch.eff = 2 then 4 else if dFmt d = 2 ∨ dFmt d = 3 then dFmt d else 2) (s.tile n d)
    let start : Chain := { newChain w ch.eff (ch.preload.map (fun x => (x.1, x.2, s.tile n x.2))) with counts := Counts.none }
    let again := (ch.pairs.foldl (fun y p =>
      y.accumulate (mIeee w) (if ch.eff = 2 then 4 else 2) 0 (enter p.a) (enter p.b)) start).merge (mIeee w)
    (¬ trig → decides { ch with decided := true }) ∧
    (trig → (ch.eff < 2 ∨ ch.narrowed = false) → decides { ch with decided := true, counts := ch.counts.add ⟨0, 0, 0, 1, 0⟩ }) ∧
    (trig → 2 ≤ ch.eff → ch.narrowed = true → decides { again with
      state := .relighting, pairs := ch.pairs, clipIn := ch.clipIn, narrowed := true, last := ch.last, decided := true, relit := true
      counts := (ch.counts.add again.counts).add ⟨0, 0, 0, 1, 1⟩ }))

/-- The commit of an output tile (R130 to R133): once the chain has decided and the next slot of `QO` is free, the accumulators are
converted to `FO` and stored in that slot, the descriptor is pushed with its flags, the bank is idle, retained entries are released,
`ME_TILES` counts the tile, and the chain's counts are added with those of the drain. A bank without such a chain commits nothing. -/
def Sys2Proof.Claims.MatrixCommit : Prop :=
  (∀ (s : State) (n b : Nat), n < s.part.clusters → b < 2 → s.alive = true → s.settled = true →
    ((s.cl n).st ≠ .running ∨ (s.cl n).bank b = none ∨
      ∃ ch, (s.cl n).bank b = some ch ∧ (ch.last = none ∨ ch.state = .open ∨ (ch.decided = false ∧ ch.eff ≠ 0))) →
    Sys2Proof.Machine.exec (.meCommit n b) s = .next (s.leave s)) ∧
  ∀ (s : State) (n b : Nat) (ch : Chain) (i : Issued), n < s.part.clusters → b < 2 → s.alive = true → s.settled = true →
    (s.cl n).st = .running → (s.cl n).bank b = some ch → ch.last = some i → ch.state ≠ .open → (ch.decided = true ∨ ch.eff = 0) →
    let qo := mQO i.word
    let fo := mFO i.word
    let q := (s.cl n).q qo
    let cs := ch.even.map (fun a => convert (if ch.isInt then 0xF else 0xE) fo (accVal ch.isInt a))
    let clips := cs.countP (fun x => x.clip)
    let nans := cs.countP (fun x => x.nan)
    (q.room 1 = true → ∃ (t : State) (d : Word),
      let q' : Queue := { q with entries := q.entries ++ [d], next := (q.next + 1) % q.depth }
      let c' : Cluster := { (s.cl n).setBank b none with wdog := 0 }
      t = { s with
        mem := memWrL s.mem (fontKey n (q.base + q.next * q.slot)) (packTile fo (chunks (shapeN ch.shape) (cs.map (fun x => x.code))))
        clusters := s.clusters.set n ((c'.setQ qo q').releaseBank b) } ∧
      d = mkDesc fo (shapeM ch.shape) (shapeN ch.shape) (q.base + q.next * q.slot) (ch.sat || ch.preSat)
        (ch.clip || ch.preClip || decide (0 < clips)) (ch.nan || decide (0 < nans) || cs.any (fun x => codeNan fo x.code)) ch.relit ∧
      Sys2Proof.Machine.exec (.meCommit n b) s = .next (s.leave
        ((t.bump (clReg n 0x2010) 0 48 1).addCounts n i.seq (ch.counts.add ⟨clips, nans, 0, 0, 0⟩)))) ∧
    (q.room 1 = false → Sys2Proof.Machine.exec (.meCommit n b) s = .next (s.leave s))

/-- A wick operation works element by element (R179, R182): with sources of one length, element e of the destination becomes the result
of the operation on elements e of the sources, all read before it is written; no other operand changes. A row operation gives every
element of a row the pairwise tree over the row (R189). -/
def Sys2Proof.Claims.WickOperation : Prop :=
  (∀ (cols m : Nat) (r : WickRun) (w : Word), wOp w ∉ [0x18, 0x19, 0x1A, 0x20] → wDst w ≠ 0x1C →
    let a := r.src (wImm w) (wSA w)
    let b := r.src (wImm w) (wSB w)
    let c := r.src (wImm w) (wSC w)
    a.length = m → b.length = m → c.length = m →
    let t := r.step cols w
    (t.src 0 (wDst w)).length = m ∧
    (∀ e < m, nth (t.src 0 (wDst w)) 0 e = (wickElem (wOp w) (wAux w) (nth a 0 e) (nth b 0 e) (nth c 0 e)).1) ∧
    (∀ (k : Nat) (imm : BitVec 32), k ≠ wDst w → t.src imm k = r.src imm k) ∧ t.feeds = r.feeds) ∧
  (∀ (m : Nat) (r : WickRun) (w : Word), wOp w = 0x18 → wDst w ≠ 0x1C →
    let a := r.src (wImm w) (wSA w)
    a.length = m * 32 →
    ∀ i < m, ∀ j < 32, nth ((r.step 32 w).src 0 (wDst w)) 0 (i * 32 + j) =
      let x := fun k => nth a 0 (i * 32 + k)
      let p := fun k => add32 (x (2 * k)) (x (2 * k + 1))
      let q := fun k => add32 (p (2 * k)) (p (2 * k + 1))
      let u := fun k => add32 (q (2 * k)) (q (2 * k + 1))
      let v := fun k => add32 (u (2 * k)) (u (2 * k + 1))
      add32 (v 0) (v 1)) ∧
  (∀ (cols : Nat) (r : WickRun) (w : Word), wOp w = 0x20 →
    (r.step cols w).ops = r.ops ∧ (r.step cols w).clips = r.clips ∧ (r.step cols w).nans = r.nans)

/-- `WICK` (R169, R174, R175, R814): the first failing check refuses it and pops nothing; it waits for its tiles and for the slot of its
output; then it pops them, runs its program over them with the tile buffers and parameters, feeds the statistic sets, and leaves the output to be
committed after those of the instructions before it, or, without one, adds its counts. -/
def Sys2Proof.Claims.ElementProgram : Prop :=
  ∀ (s : State) (n : Nat) (i : Issued) (r : List Issued), HeadRuns s n 2 0x50 i r →
    let c := s.cl n
    let w := i.word
    let ds := (eIns w).map (fun q => (c.q q).head)
    (∀ code, s.wickCheck n w = some code → Sys2Proof.Machine.exec (.wick n) s = .next (s.leave (s.refuseHead n 2 i code).settle)) ∧
    (s.wickCheck n w = none → (∃ q ∈ eIns w, (c.q q).entries = []) → Sys2Proof.Machine.exec (.wick n) s = .next (s.leave s)) ∧
    (∀ code, s.wickCheck n w = none → (∀ q ∈ eIns w, (c.q q).entries ≠ []) → s.wickTileCheck n w ds = some code →
      Sys2Proof.Machine.exec (.wick n) s = .next (s.leave (s.refuseHead n 2 i code).settle)) ∧
    (s.wickCheck n w = none → (∀ q ∈ eIns w, (c.q q).entries ≠ []) → s.wickTileCheck n w ds = none → eOut w = true →
      c.eeRoom (eQO w) = false → Sys2Proof.Machine.exec (.wick n) s = .next (s.leave s)) ∧
    (s.wickCheck n w = none → (∀ q ∈ eIns w, (c.q q).entries ≠ []) → s.wickTileCheck n w ds = none →
      (eOut w = true → c.eeRoom (eQO w) = true) →
      let rows := if eNin w = 0 then shapeM (eShp w) else dRows (nth ds 0 0)
      let cols := if eNin w = 0 then shapeN (eShp w) else dCols (nth ds 0 0)
      let es := ds.map (fun d => (s.tile n d).flatten.map (enterEE (dFmt d)))
      let run := ((s.wickProg n w).getD []).foldl (WickRun.step cols) (startRun c (es.map (fun l => l.map (fun e => e.1))))
      let k := (enterCounts es.flatten).add ⟨run.clips, run.nans, 0, 0, 0⟩
      let cs := (run.src 0 0x1F).map (fun v => convert 1 (eFO w) (f32v v))
      let kOut := k.add ⟨cs.countP (fun x => x.clip), cs.countP (fun x => x.nan), 0, 0, 0⟩
      let out : EePend := ⟨i.seq, i.pc, true, some (eQO w, mkDesc (eFO w) rows cols 0 false (decide (0 < kOut.clips))
            (decide (0 < kOut.nans) || cs.any (fun x => codeNan (eFO w) x.code)) false,
            packTile (eFO w) (chunks cols (cs.map (fun x => x.code)))), kOut⟩
      ∃ C : Cluster, Sys2Proof.Machine.exec (.wick n) s =
          .next (s.leave (if eOut w then s.setCl n C else (s.setCl n C).addCounts n i.seq k)) ∧
        C = { started c 2 r with queues := C.queues, sets := C.sets, tb := C.tb, eePend := if eOut w then c.eePend ++ [out] else c.eePend } ∧
        (∀ q, C.q q = if q ∈ eIns w then (c.q q).pop else c.q q) ∧
        (∀ j < 4, C.tb.get [] j = run.ops.get [] (0x14 + j)) ∧
        (∀ j, (C.sets.get StatSet.empty j).feeds = (c.sets.get StatSet.empty j).feeds ++
          (if (c.sets.get StatSet.empty j).since < i.seq then (run.feeds.filter (fun f => f.1 == j)).map (fun f => ⟨i.seq, f.2⟩) else [])))

/-- `ELOAD`, `ESTORE`, `EPARAM` and `WLOAD` (R171 to R173): a tile into a tile buffer; a tile buffer as an output to be committed, once
its slot is free; the
scalar read at issue into a wick parameter; the first 256 bytes of a tile into a wick slot. -/
def Sys2Proof.Claims.ElementMoves : Prop :=
  (∀ (s : State) (n : Nat) (i : Issued) (r : List Issued), HeadRuns s n 2 0x51 i r → i.word.toNat &&& (mask 50 18 + mask 15 0) = 0 →
    let c := s.cl n
    let q := c.q (eQI i.word 0)
    q.entries ≠ [] → dFmt q.head < 14 → (eeShape q.head).isSome = true →
    let es := (s.tile n q.head).flatten.map (enterEE (dFmt q.head))
    Sys2Proof.Machine.exec (.eload n) s = .next (s.leave ((s.setCl n { (started c 2 r).setQ (eQI i.word 0) q.pop with
      tb := c.tb.set (fld i.word 16 2) (es.map (fun e => e.1)) }).addCounts n i.seq (enterCounts es)))) ∧
  (∀ (s : State) (n : Nat) (i : Issued) (r : List Issued), HeadRuns s n 2 0x52 i r →
    i.word.toNat &&& (mask 55 41 + mask 31 24 + mask 21 18 + mask 15 0) = 0 → eFO i.word < 14 → fld i.word 22 2 ≠ 3 →
    let c := s.cl n
    let sh := fld i.word 22 2
    tileBytes (eFO i.word) (shapeM sh) (shapeN sh) ≤ (c.q (eQO i.word)).slot →
    (c.eeRoom (eQO i.word) = false → Sys2Proof.Machine.exec (.estore n) s = .next (s.leave s)) ∧
    (c.eeRoom (eQO i.word) = true →
    let res := eeOutput (eFO i.word) (shapeM sh) (shapeN sh) (c.tb.get (List.replicate 1024 0) (fld i.word 16 2)) Counts.none
    Sys2Proof.Machine.exec (.estore n) s = .next (s.leave (s.setCl n { started c 2 r with
      eePend := c.eePend ++ [⟨i.seq, i.pc, false, some (eQO i.word, res.1, res.2.1), res.2.2⟩] })))) ∧
  (∀ (s : State) (n : Nat) (i : Issued) (r : List Issued), HeadRuns s n 2 0x53 i r → i.word.toNat &&& (mask 55 18 + mask 15 5) = 0 →
    Sys2Proof.Machine.exec (.eparam n) s = .next (s.leave (s.setCl n { started (s.cl n) 2 r with
      k := (s.cl n).k.set (fld i.word 16 2) ((nth i.ops 0 0).setWidth 32) }))) ∧
  (∀ (s : State) (n : Nat) (i : Issued) (r : List Issued), HeadRuns s n 2 0x54 i r → i.word.toNat &&& (mask 50 32 + mask 28 0) = 0 →
    let q := (s.cl n).q (eQI i.word 0)
    q.entries ≠ [] → dFmt q.head < 14 → (eeShape q.head).isSome = true → 256 ≤ dBytes q.head →
    Sys2Proof.Machine.exec (.wload n) s = .next (s.leave
      { s with
        mem := memWrL s.mem (wickKey n (eProg i.word * 256)) (memRdN s.mem (fontKey n (dAddr q.head)) 256)
        clusters := s.clusters.set n ((started (s.cl n) 2 r).setQ (eQI i.word 0) q.pop) }))

/-- `EE_COMMIT` (R192, R238 to R240): the oldest executed instruction of the element engine adds its counts; one with an output waits
for the next slot of `QO`, stores the tile there and pushes its descriptor, and `EE_TILES` counts it. -/
def Sys2Proof.Claims.ElementCommit : Prop :=
  ∀ (s : State) (n : Nat) (p : EePend) (r : List EePend), n < s.part.clusters → s.alive = true → s.settled = true →
    (s.cl n).st = .running → (s.cl n).eePend = p :: r →
    (p.out = none → Sys2Proof.Machine.exec (.eeCommit n) s =
      .next (s.leave ((s.setCl n { s.cl n with eePend := r, wdog := 0 }).addCounts n p.seq p.counts))) ∧
    (∀ qo d bytes, p.out = some (qo, d, bytes) →
      let q := (s.cl n).q qo
      (q.room 1 = false → Sys2Proof.Machine.exec (.eeCommit n) s = .next (s.leave s)) ∧
      (q.room 1 = true →
        let at_ := q.base + q.next * q.slot
        let q' : Queue := { q with entries := q.entries ++ [wd (d.toNat + at_)], next := (q.next + 1) % q.depth }
        let t : State := { s with
          mem := memWrL s.mem (fontKey n at_) bytes
          clusters := s.clusters.set n { (s.cl n).setQ qo q' with eePend := r, wdog := 0 } }
        Sys2Proof.Machine.exec (.eeCommit n) s = .next (s.leave ((t.bump (clReg n 0x3008) 0 48 1).addCounts n p.seq p.counts))))

/-- The side reduction unit (R194, R197 to R201): its instructions execute one after another; `SRCLR` empties a set for what later
instructions feed; `SREAD` waits for what it depends on (log 8 has the model's reading of that), then writes the value of its code, from the slices fed before it, into the
summary register and marks it valid. -/
def Sys2Proof.Claims.SideReductions : Prop :=
  (∀ (s : State) (n : Nat) (i : Issued) (r : List Issued), HeadRuns s n 3 0x58 i r →
    let c := s.cl n
    let j := fld i.word 50 2
    (c.reads ≠ [] → Sys2Proof.Machine.exec (.srclr n) s = .next (s.leave s)) ∧
    (c.reads = [] → i.word.toNat &&& (mask 55 52 + mask 49 0) ≠ 0 →
      Sys2Proof.Machine.exec (.srclr n) s = .next (s.leave (s.refuseHead n 3 i Code.CL_SRU_OPERAND).settle)) ∧
    (c.reads = [] → i.word.toNat &&& (mask 55 52 + mask 49 0) = 0 →
      let z := c.sets.get StatSet.empty j
      Sys2Proof.Machine.exec (.srclr n) s = .next (s.leave (s.setCl n { started c 3 r with
        sets := c.sets.set j ⟨0, 0, 0, 0, 0x7F800000, 0xFF800000, 0, z.feeds.filter (fun f => i.seq < f.seq), i.seq⟩ })))) ∧
  (∀ (s : State) (n : Nat) (i : Issued) (r : List Issued), HeadRuns s n 3 0x59 i r → (s.cl n).reads ≠ [] →
    Sys2Proof.Machine.exec (.sread n) s = .next (s.leave s)) ∧
  (∀ (s : State) (n : Nat) (i : Issued) (r : List Issued), HeadRuns s n 3 0x59 i r → (s.cl n).reads = [] →
    (i.word.toNat &&& mask 44 0 ≠ 0 →
      Sys2Proof.Machine.exec (.sread n) s = .next (s.leave (s.refuseHead n 3 i Code.CL_SRU_OPERAND).settle)) ∧
    (i.word.toNat &&& mask 44 0 = 0 → 0x0E < fld i.word 45 5 →
      Sys2Proof.Machine.exec (.sread n) s = .next (s.leave (s.refuseHead n 3 i Code.CL_SRU_STAT).settle)) ∧
    (i.word.toNat &&& mask 44 0 = 0 → fld i.word 45 5 ≤ 0x0E →
      Sys2Proof.Machine.exec (.sread n) s = .next (s.leave (s.setCl n { started (s.cl n) 3 r with reads := [i] })))) ∧
  (∀ (s : State) (n : Nat) (i : Issued) (r : List Issued), n < s.part.clusters → s.alive = true → s.settled = true →
    (s.cl n).st = .running → (s.cl n).reads = i :: r →
    let c := s.cl n
    (c.readWaits i = true → Sys2Proof.Machine.exec (.sreadComplete n) s = .next (s.leave s)) ∧
    (c.readWaits i = false → ∃ (C : Cluster) (z : StatSet), Sys2Proof.Machine.exec (.sreadComplete n) s = .next (s.leave (s.setCl n C)) ∧
      C = { c with sets := c.sets.set (fld i.word 50 2) z, u := C.u, uValid := C.uValid, reads := r, wdog := 0 } ∧
      z = (c.sets.get StatSet.empty (fld i.word 50 2)).fold i.seq ∧
      (∀ k, C.u.get 0 k = if k = fld i.word 52 4 then statValue z (countsBetween c.log z.since i.seq) (fld i.word 45 5) else c.u.get 0 k) ∧
      (∀ k, k ∈ C.uValid ↔ (k = fld i.word 52 4 ∨ k ∈ c.uValid)))) ∧
  (∀ (s : State) (n : Nat), n < s.part.clusters → s.alive = true → s.settled = true → ((s.cl n).st ≠ .running ∨ (s.cl n).reads = []) →
    Sys2Proof.Machine.exec (.sreadComplete n) s = .next (s.leave s)) ∧
  (∀ (c : Cluster) (i : Issued),
    let k := fld i.word 45 5
    let between := fun (q : Nat) => (c.sets.get StatSet.empty (fld i.word 50 2)).since < q ∧ q < i.seq
    (9 ≤ k → k ≤ 13 → (c.readWaits i = true ↔
      (∃ x ∈ c.meQ, between x.seq ∧ ((opOf x.word = 0x40 ∧ mLast x.word = true) ∨ opOf x.word = 0x43)) ∨
      (∃ b < 2, ∃ ch x, c.bank b = some ch ∧ ch.last = some x ∧ between x.seq) ∨
      (∃ x ∈ c.eeQ, between x.seq ∧ opOf x.word < 0x58) ∨ (∃ p ∈ c.eePend, between p.seq) ∨
      (∃ x ∈ c.dmQ, between x.seq ∧ opOf x.word < 0x70) ∨ ∃ d ∈ c.dm, between d.ins.seq)) ∧
    ((k < 9 ∨ 13 < k) → (c.readWaits i = true ↔
      (∃ x ∈ c.eeQ, between x.seq ∧ opOf x.word = 0x50) ∨ ∃ p ∈ c.eePend, p.wick = true ∧ between p.seq)))

/-- Statistic sets (R195, R196, R199): feeding a slice adds the fed lanes to n and its NaNs to the NaN count; a set into which nothing was
fed reads 0, the canonical NaN for the mean and the variances, and the infinities for the bounds. -/
def Sys2Proof.Claims.StatisticSets : Prop :=
  (∀ (z : StatSet) (l : List (Option (BitVec 32))),
    (z.addSlice l).n = z.n + l.countP (fun x => x.isSome) ∧
    (z.addSlice l).nans = z.nans + l.countP (fun x => match x with | some v => (f32v v).isNan | none => false) ∧
    (z.n ≠ 0 → (z.addSlice l).c = z.c) ∧ (z.addSlice l).feeds = z.feeds ∧ (z.addSlice l).since = z.since ∧
    (z.addSlice l).mn = (l.filterMap id).foldl min32 z.mn ∧ (z.addSlice l).mx = (l.filterMap id).foldl max32 z.mx ∧
    (∀ v r, z.n = 0 → l.filterMap id = v :: r → (z.addSlice l).c = if (f32v v).isNan || (f32v v).isInf then 0 else widen64 v) ∧
    (∀ a : Fin 128 → Word, l.length = 128 →
      (∀ k : Fin 128, a k = match nth l none k with | some v => sub64 (widen64 v) (z.addSlice l).c | none => 0) →
      (z.addSlice l).s1 = add64 z.s1 (tree add64 7 0 (List.ofFn a)) ∧
      (z.addSlice l).s2 = add64 z.s2 (tree add64 7 0 (List.ofFn (fun k => if (nth l none k).isSome then mul64 (a k) (a k) else 0))))) ∧
  (∀ (k : Counts) (code : Nat), code ∈ [0x03, 0x04, 0x05] → statValue StatSet.empty k code = 0x7FF8000000000000) ∧
  (∀ (z : StatSet) (k : Counts), z.n = 1 → statValue z k 0x05 = 0x7FF8000000000000) ∧
  (∀ (z : StatSet) (k : Counts), statValue z k 0x00 = BitVec.ofNat 64 z.n ∧ statValue z k 0x08 = BitVec.ofNat 64 z.nans ∧
    statValue z k 0x09 = BitVec.ofNat 64 k.clips ∧ statValue z k 0x0A = BitVec.ofNat 64 k.nans ∧
    statValue z k 0x0B = BitVec.ofNat 64 k.bad ∧ statValue z k 0x0C = BitVec.ofNat 64 k.trigs ∧
    statValue z k 0x0D = BitVec.ofNat 64 k.relit ∧ statValue z k 0x0E = z.c ∧
    statValue z k 0x06 = widen64 z.mn ∧ statValue z k 0x07 = widen64 z.mx ∧
    (let n := nat64 z.n
     let dev := sub64 z.s2 (mul64 z.s1 (div64 z.s1 n))
     statValue z k 0x01 = add64 z.s1 (mul64 z.c n) ∧
     statValue z k 0x02 = add64 z.s2 (mul64 z.c (add64 (mul64 (nat64 2) z.s1) (mul64 z.c n))) ∧
     (0 < z.n → statValue z k 0x03 = add64 z.c (div64 z.s1 n) ∧ statValue z k 0x04 = max64 0 (div64 dev n)) ∧
     (1 < z.n → statValue z k 0x05 = max64 0 (div64 dev (sub64 n (nat64 1))))))

/-- The data mover starts an instruction (R226, R239, R256 to R259, R262): the first failing check refuses it; it waits for the bytes that
earlier ones still read or write, tiles and slots among them, and a `DLOAD` for a free slot, which it reserves; remote bytes are asked for at
the start; a `DCOPY` of nothing completes at once. -/
def Sys2Proof.Claims.MoverStarts : Prop :=
  (∀ (s : State) (n : Nat) (i : Issued) (r : List Issued), HeadRuns s n 4 0x60 i r →
    let w := i.word
    let q := (s.cl n).q (xQ w)
    let rows := rowRanges (nth i.ops 0 0) (nth i.ops 0 1) (xRows w) (rowBytes (xFmt w) (xCols w))
    let waits := s.moverWaits n rows [s.slotRange n (s.cl n).dmNext w] = true ∨ q.room 1 = false
    (∀ code, s.dloadCheck n i = some code → Sys2Proof.Machine.exec (.dload n) s = .next (s.leave (s.refuseHead n 4 i code).settle)) ∧
    (s.dloadCheck n i = none → waits → Sys2Proof.Machine.exec (.dload n) s = .next (s.leave s)) ∧
    (s.dloadCheck n i = none → ¬ waits →
      let id := (s.cl n).dmNext
      let t := s.moverReads n id rows
      Sys2Proof.Machine.exec (.dload n) s = .next (s.leave (t.1.setCl n { (started (s.cl n) 4 r).setQ (xQ w) { q with reserved := q.reserved + 1 } with
        dmNext := id + 1, dm := (s.cl n).dm ++ [⟨id, i, 0, [], Counts.none, t.2, [], [], false, []⟩] }).settle))) ∧
  (∀ (s : State) (n : Nat) (i : Issued) (r : List Issued), HeadRuns s n 4 0x61 i r → i.word.toNat &&& xReserved 0x61 ≠ 0 →
    Sys2Proof.Machine.exec (.dstore n) s = .next (s.leave (s.refuseHead n 4 i Code.CL_DM_OPERAND).settle)) ∧
  (∀ (s : State) (n : Nat) (i : Issued) (r : List Issued), HeadRuns s n 4 0x61 i r → i.word.toNat &&& xReserved 0x61 = 0 →
    let w := i.word
    let q := (s.cl n).q (xQ w)
    let d := q.head
    let ranges := rowRanges (nth i.ops 0 0) (nth i.ops 0 1) (dRows d) (rowBytes (xFo w) (dCols d))
    let waits := s.moverWaits n [s.fontRange n (dAddr d) (dBytes d)] ranges = true
    (q.entries = [] → Sys2Proof.Machine.exec (.dstore n) s = .next (s.leave s)) ∧
    (∀ code, q.entries ≠ [] → s.dstoreCheck i d = some code →
      Sys2Proof.Machine.exec (.dstore n) s = .next (s.leave (s.refuseHead n 4 i code).settle)) ∧
    (q.entries ≠ [] → s.dstoreCheck i d = none → waits → Sys2Proof.Machine.exec (.dstore n) s = .next (s.leave s)) ∧
    (q.entries ≠ [] → s.dstoreCheck i d = none → ¬ waits →
      let conv := moveTile (dFmt d) (xFo w) (s.tile n d)
      let id := (s.cl n).dmNext
      Sys2Proof.Machine.exec (.dstore n) s = .next (s.leave (s.setCl n { (started (s.cl n) 4 r).setQ (xQ w) q.pop with
        dmNext := id + 1
        dm := (s.cl n).dm ++ [⟨id, i, d, (ranges.zip conv.1).map (fun p => (p.1.1, packRow (xFo w) p.2)), conv.2, 0, [], [], false, []⟩] })))) ∧
  (∀ (s : State) (n : Nat) (i : Issued) (r : List Issued), HeadRuns s n 4 0x62 i r →
    let a := nth i.ops 0 0
    let b := nth i.ops 0 1
    let k := (nth i.ops 0 2).toNat
    (∀ code, s.dcopyCheck i = some code → Sys2Proof.Machine.exec (.dcopy n) s = .next (s.leave (s.refuseHead n 4 i code).settle)) ∧
    (s.dcopyCheck i = none → k = 0 → Sys2Proof.Machine.exec (.dcopy n) s = .next (s.leave (s.setCl n (started (s.cl n) 4 r)))) ∧
    (s.dcopyCheck i = none → k ≠ 0 → s.moverWaits n [(a, k)] [(b, k)] = true → Sys2Proof.Machine.exec (.dcopy n) s = .next (s.leave s)) ∧
    (s.dcopyCheck i = none → k ≠ 0 → s.moverWaits n [(a, k)] [(b, k)] = false →
      let id := (s.cl n).dmNext
      let t := s.moverReads n id [(a, k)]
      Sys2Proof.Machine.exec (.dcopy n) s = .next (s.leave (t.1.setCl n { started (s.cl n) 4 r with
        dmNext := id + 1, dm := (s.cl n).dm ++ [⟨id, i, 0, [], Counts.none, t.2, [], [], false, []⟩] }).settle)))

/-- The data mover moves an instruction on (R227, R240, R257 to R261, R284, R461): nothing happens while bytes are outstanding; a `DLOAD` that is
the oldest of its queue reads as far as memory lets it, and once its bytes are there converts them, stores them in its reserved slot and pushes;
a `DSTORE`, or a `DCOPY` that has read its bytes, writes its local bytes as far as memory lets it and its remote ones as requests, completes
once all are stored, and counts them; a memory refusal refuses the instruction. -/
def Sys2Proof.Claims.MoverCompletes : Prop :=
  (∀ (s : State) (n id : Nat) (o : DmOp), n < s.part.clusters → s.alive = true → s.settled = true → (s.cl n).st = .running →
    (s.cl n).dmOp id = some o → 0 < o.rem → Sys2Proof.Machine.exec (.dmComplete n id) s = .next (s.leave s)) ∧
  (∀ (s : State) (n id : Nat), n < s.part.clusters → s.alive = true → s.settled = true →
    ((s.cl n).st ≠ .running ∨ (s.cl n).dmOp id = none) → Sys2Proof.Machine.exec (.dmComplete n id) s = .next (s.leave s)) ∧
  (∀ (s : State) (n id : Nat) (o : DmOp), n < s.part.clusters → s.alive = true → s.settled = true → (s.cl n).st = .running →
    (s.cl n).dmOp id = some o → o.rem = 0 → o.writing = false → opOf o.ins.word = 0x60 →
    (∃ x ∈ (s.cl n).dm, x.id < id ∧ opOf x.ins.word = 0x60 ∧ xQ x.ins.word = xQ o.ins.word) →
    Sys2Proof.Machine.exec (.dmComplete n id) s = .next (s.leave s)) ∧
  (∀ (s : State) (n id : Nat) (o : DmOp), n < s.part.clusters → s.alive = true → s.settled = true →
    (s.cl n).st = .running → (s.cl n).dmOp id = some o → o.rem = 0 → o.writing = false → opOf o.ins.word = 0x60 →
    (∀ x ∈ (s.cl n).dm, x.id < id → ¬ (opOf x.ins.word = 0x60 ∧ xQ x.ins.word = xQ o.ins.word)) →
    let g := s.moverGather n o.got (s.dmRanges n o).1 o.loc []
    let t := g.1
    let w := o.ins.word
    (g.2.2.1 = .done [] →
      let conv := moveTile (xFmt w) (xFo w) (g.2.2.2.map (unpackRow (xFmt w) (xCols w)))
      let bytes := packTile (xFo w) conv.1
      let q := (s.cl n).q (xQ w)
      let at_ := q.base + q.next * q.slot
      let d := mkDesc (xFo w) (xRows w) (xCols w) at_ false (decide (0 < conv.2.clips))
        (decide (0 < conv.2.nans) || conv.1.flatten.any (codeNan (xFo w))) false
      let q' : Queue := { q with entries := q.entries ++ [d], reserved := q.reserved - 1, next := (q.next + 1) % q.depth }
      let u : State := { t with
        mem := memWrL t.mem (fontKey n at_) bytes
        clusters := t.clusters.set n { (s.cl n).setQ (xQ w) q' with dm := (s.cl n).dm.filter (fun x => x.id != id), wdog := 0 } }
      Sys2Proof.Machine.exec (.dmComplete n id) s =
        .next (s.leave ((u.addCounts n o.ins.seq conv.2).bump (clReg n 0x6008) 0 48 bytes.length).settle)) ∧
    (∀ code, g.2.2.1 = .refused code →
      Sys2Proof.Machine.exec (.dmComplete n id) s = .next (s.leave (t.moverFail n o false code).settle)) ∧
    (g.2.2.1 = .wait → Sys2Proof.Machine.exec (.dmComplete n id) s =
      .next (s.leave (t.modDm n id (fun o => { o with loc := g.2.1 })).settle))) ∧
  (∀ (s t : State) (n id : Nat) (o : DmOp) (rows : List (Word × List Byte)), n < s.part.clusters → s.alive = true → s.settled = true →
    (s.cl n).st = .running → (s.cl n).dmOp id = some o → o.rem = 0 → o.writing = false →
    ((opOf o.ins.word = 0x61 ∧ t = s ∧ rows = o.rows) ∨
      (opOf o.ins.word = 0x62 ∧ ∃ loc l, s.moverGather n o.got (s.dmRanges n o).1 o.loc [] = (t, loc, .done [], l) ∧
        rows = [(nth o.ins.ops 0 1, l.flatten)])) →
    let here := (rows.filter (fun r => t.isLocal r.1)).map (fun r => (wd (addrLocal r.1), r.2))
    let p := t.moverWrites n id rows
    let v := p.1.modDm n id (fun o => { o with rem := p.2, writing := true, put := putPieces here })
    let r := v.put (v.moverReq n) (fun a len => .dm n id (mkAddr v.pkg a.toNat) len) (putPieces here) 0 0
    let u := r.1.bump (clReg n 0x6008) 0 48 r.2.sent
    (r.2.code = none → r.2.rest = [] → p.2 + r.2.held = 0 → Sys2Proof.Machine.exec (.dmComplete n id) s = .next (s.leave
      ((u.setCl n { s.cl n with dm := (s.cl n).dm.filter (fun x => x.id != id), wdog := 0 }).addCounts n o.ins.seq o.counts).settle)) ∧
    (r.2.code = none → (r.2.rest ≠ [] ∨ p.2 + r.2.held ≠ 0) → Sys2Proof.Machine.exec (.dmComplete n id) s = .next (s.leave
      (u.modDm n id (fun o => { o with put := r.2.rest, rem := p.2 + r.2.held })).settle)) ∧
    (∀ code, r.2.code = some code → ∃ x : DmOp, x.id = id ∧ x.ins = o.ins ∧
      Sys2Proof.Machine.exec (.dmComplete n id) s = .next (s.leave (u.moverFail n x false code).settle))) ∧
  (∀ (s : State) (n id : Nat) (o : DmOp), n < s.part.clusters → s.alive = true → s.settled = true → (s.cl n).st = .running →
    (s.cl n).dmOp id = some o → o.rem = 0 → o.writing = false → opOf o.ins.word = 0x62 →
    let g := s.moverGather n o.got (s.dmRanges n o).1 o.loc []
    (∀ code, g.2.2.1 = .refused code →
      Sys2Proof.Machine.exec (.dmComplete n id) s = .next (s.leave (g.1.moverFail n o false code).settle)) ∧
    (g.2.2.1 = .wait → Sys2Proof.Machine.exec (.dmComplete n id) s =
      .next (s.leave (g.1.modDm n id (fun o => { o with loc := g.2.1 })).settle))) ∧
  (∀ (s : State) (n id : Nat) (o : DmOp), n < s.part.clusters → s.alive = true → s.settled = true → (s.cl n).st = .running →
    (s.cl n).dmOp id = some o → o.rem = 0 → o.writing = true →
    let r := s.put (s.moverReq n) (fun a len => .dm n id (mkAddr s.pkg a.toNat) len) o.put 0 0
    let u := r.1.bump (clReg n 0x6008) 0 48 r.2.sent
    (r.2.code = none → r.2.rest = [] → r.2.held = 0 → opOf o.ins.word ≠ 0x60 → Sys2Proof.Machine.exec (.dmComplete n id) s = .next (s.leave
      ((u.setCl n { s.cl n with dm := (s.cl n).dm.filter (fun x => x.id != id), wdog := 0 }).addCounts n o.ins.seq o.counts).settle)) ∧
    (r.2.code = none → (r.2.rest ≠ [] ∨ r.2.held ≠ 0) → Sys2Proof.Machine.exec (.dmComplete n id) s = .next (s.leave
      (u.modDm n id (fun o => { o with put := r.2.rest, rem := o.rem + r.2.held })).settle)) ∧
    (∀ code, r.2.code = some code → Sys2Proof.Machine.exec (.dmComplete n id) s = .next (s.leave (u.moverFail n o false code).settle)))

/-! # Command lists and lamplighters -/

namespace Sys2Proof.Claims

/-- List l of dispatcher pd of a package that can act has come to an entry of command `cmd` with words w, which no check of R269 and
R270 refuses: the list x runs, no `SYNC` entry before it is running, and the read of the entry has left state u. -/
structure EntryRuns (s : State) (pd l cmd : Nat) (x : CmdList) (w : List Word) (u : State) : Prop where
  present : pd < 2
  alive   : s.alive = true
  list    : s.cmdList pd l = some x
  running : x.state = .running
  order   : ∀ r ∈ x.runs, r.sync = true → r.ended = true
  entry   : ∃ b, s.dspRead pd x true (x.addr + wd (64 * x.idx)) 64 = (u, .done b) ∧ w = (List.range 8).map (fun i => word64 b (8 * i))
  code    : fld (nth w 0 0) 56 8 = cmd
  sound   : u.cmdRefusal w = none
  quiet   : u.settled = true

/-- The commands of the dispatcher that stand in an entry, with the code of their entry (R269). -/
def entryRows : List ((Nat → Nat → Instr) × Nat) :=
  [(.cmdEnd, 0x00), (.cmdNop, 0x01), (.cmdFence, 0x02), (.fenceTime, 0x03), (.loadProgram, 0x10), (.bindQueues, 0x11), (.launchAt, 0x12),
   (.setRegionKey, 0x13), (.collective, 0x20), (.lseSolve, 0x30), (.uuApply, 0x40), (.snapshotDeclare, 0x50), (.snapshotTake, 0x50),
   (.snapshotCancel, 0x50), (.snapshotRestore, 0x50), (.digest, 0x60)]

/-- The list ends with a status at an entry. -/
def endsList (s : State) (pd l : Nat) (code : BitVec 16) (idx : Nat) : State :=
  s.modList pd l (fun y => { y with state := .ended code idx, endAt := s.now (4 + pd) })

/-- The `OP` and the shape of a snapshot entry (R629): target class 4 with all four engines, and zeros where the operation has no
argument. -/
def snapShape (w : List Word) (op : Nat) (zeros : List Nat) : Prop :=
  cmdFirst w = 0 ∧ cmdCount w = 4 ∧ (nth w 0 1).toNat = op ∧ ∀ i ∈ zeros, nth w 0 i = 0

end Sys2Proof.Claims

/-- Control entries (R270 to R272): no entry acts while its list is gone, has ended, or has a `SYNC` entry running, nor where the list has
come to another command; an entry that cannot be read yet waits; one that cannot be read, or that a check refuses, fails with the code and
stops its list; `END` and `FENCE` wait until every earlier entry has completed, then end the list at the failed one with the lowest index,
or end it, or pass; `NOP` passes; `FENCE_TIME` waits for node time. -/
def Sys2Proof.Claims.ListControl : Prop :=
  (∀ e ∈ entryRows, ∀ (s : State) (pd l : Nat), pd < 2 → s.alive = true → s.settled = true →
    (∀ x, s.cmdList pd l = some x → x.state = .running → ∃ r ∈ x.runs, r.sync = true ∧ r.ended = false) →
    Sys2Proof.Machine.exec (e.1 pd l) s = .next (s.leave s)) ∧
  (∀ e ∈ entryRows, ∀ (s u : State) (pd l : Nat) (x : CmdList), pd < 2 → s.alive = true → s.settled = true →
    s.cmdList pd l = some x → x.state = .running → (∀ r ∈ x.runs, r.sync = true → r.ended = true) →
    let r := s.dspRead pd x true (x.addr + wd (64 * x.idx)) 64
    (r = (u, .wait) → Sys2Proof.Machine.exec (e.1 pd l) s = .next (s.leave u.settle)) ∧
    (∀ c, r = (u, .refused c) → Sys2Proof.Machine.exec (e.1 pd l) s = .next (s.leave (u.dspFail pd l c).settle)) ∧
    (∀ b, r = (u, .done b) → fld (word64 b 0) 56 8 ≠ e.2 → (cmdClass (fld (word64 b 0) 56 8)).isSome = true →
      Sys2Proof.Machine.exec (e.1 pd l) s = .next (s.leave s))) ∧
  (∀ e ∈ entryRows, ∀ (s u : State) (pd l : Nat) (x : CmdList) (b : List Byte) (c : BitVec 16), pd < 2 → s.alive = true →
    s.cmdList pd l = some x → x.state = .running → (∀ r ∈ x.runs, r.sync = true → r.ended = true) →
    s.dspRead pd x true (x.addr + wd (64 * x.idx)) 64 = (u, .done b) → u.settled = true → fld (word64 b 0) 56 8 = e.2 →
    u.cmdRefusal ((List.range 8).map (fun i => word64 b (8 * i))) = some c →
    Sys2Proof.Machine.exec (e.1 pd l) s = .next (s.leave (u.cmdFail pd l c).settle)) ∧
  (∀ (s u : State) (pd l : Nat) (x : CmdList) (w : List Word) (isEnd : Bool), EntryRuns s pd l (if isEnd then 0x00 else 0x02) x w u →
    let i := (if isEnd then Instr.cmdEnd else Instr.cmdFence) pd l
    (x.quiet = false → Sys2Proof.Machine.exec i s = .next (s.leave u)) ∧
    (∀ c k, x.quiet = true → x.failed = some (c, k) → Sys2Proof.Machine.exec i s = .next (s.leave (endsList u pd l c k))) ∧
    (x.quiet = true → x.failed = none → Sys2Proof.Machine.exec i s = .next (s.leave
      (if isEnd then u.modList pd l (fun y => { y with state := .ended 0 y.idx, endAt := u.now (4 + pd) }) else u.dspNext pd l)))) ∧
  (∀ (s u : State) (pd l : Nat) (x : CmdList) (w : List Word), EntryRuns s pd l 0x01 x w u →
    Sys2Proof.Machine.exec (.cmdNop pd l) s = .next (s.leave (u.dspNext pd l))) ∧
  (∀ (s u : State) (pd l : Nat) (x : CmdList) (w : List Word), EntryRuns s pd l 0x03 x w u →
    (u.now (4 + pd) < nth w 0 1 → Sys2Proof.Machine.exec (.fenceTime pd l) s = .next (s.leave u)) ∧
    (nth w 0 1 ≤ u.now (4 + pd) → Sys2Proof.Machine.exec (.fenceTime pd l) s = .next (s.leave (u.dspNext pd l))))

/-- The entries for clusters (R236, R266, R273, R274): a target held by this dispatcher makes the entry wait, a busy one fails it with
`CL_BUSY`; `LOAD_PROGRAM` holds its targets and starts their loads, whose end leaves the image in instruction and wick memory with zeros beyond it;
`BIND_QUEUES` holds its targets while it reads its table, and binds every one or, where the table is not sound, none; `LAUNCH_AT` arms an entry on each die, or frees them all and
fails with the first refusal. -/
def Sys2Proof.Claims.ClusterEntries : Prop :=
  (∀ (s u : State) (pd l : Nat) (x : CmdList) (w : List Word) (e : (Nat → Nat → Instr) × Nat),
    e ∈ [(Instr.loadProgram, 0x10), (Instr.bindQueues, 0x11), (Instr.launchAt, 0x12)] → EntryRuns s pd l e.2 x w u →
    u.ownHeld pd (creatorOf pd x) (cmdTargets w) = true → Sys2Proof.Machine.exec (e.1 pd l) s = .next (s.leave u)) ∧
  (∀ (s u : State) (pd l : Nat) (x : CmdList) (w : List Word) (bind : Bool), EntryRuns s pd l (if bind then 0x11 else 0x10) x w u →
    u.ownHeld pd (creatorOf pd x) (cmdTargets w) = false →
    (u.otherHeld pd (cmdTargets w) = true ∨ ∃ n ∈ cmdTargets w, (u.cl n).st = .running ∨ (u.cl n).pendingLl = true) →
    Sys2Proof.Machine.exec ((if bind then Instr.bindQueues else Instr.loadProgram) pd l) s =
      .next (s.leave (u.dspFail pd l Code.CL_BUSY).settle)) ∧
  (∀ (s u : State) (pd l : Nat) (x : CmdList) (w : List Word), EntryRuns s pd l 0x10 x w u →
    u.ownHeld pd (creatorOf pd x) (cmdTargets w) = false → u.otherHeld pd (cmdTargets w) = false →
    (∀ n ∈ cmdTargets w, (u.cl n).st ≠ .running ∧ (u.cl n).pendingLl = false) →
    Sys2Proof.Machine.exec (.loadProgram pd l) s = .next (s.leave ((cmdTargets w).foldl
      (fun s n => s.loadStart (nth w 0 1) (nth w 0 2).toNat n)
      ((cmdTargets w).foldl (fun s n => s.modCl n (fun c => { c with heldBy := some (creatorOf pd x) }))
        (u.dspStart pd l (cmdTargets w) (nth w 0 0)))).settle)) ∧
  (∀ (s : State) (n : Nat) (img : List Byte), n < 16384 → (progHeader (img.take 64)).1 = true → img.length = (progHeader (img.take 64)).2 →
    memWf s.mem = true →
    let words := bytesAt img 8 4
    let t := s.loadFinish n img
    (t.cl n).st = .loaded ∧ (t.cl n).codeWords = words ∧ (t.cl n).entry = bytesAt img 0x10 4 ∧ (t.cl n).heldBy = none ∧
      (∀ i < 4096, t.imem n i = if i < words then word64 img (64 + 8 * i) else 0)) ∧
  (∀ (s u v : State) (pd l : Nat) (x : CmdList) (w : List Word), EntryRuns s pd l 0x11 x w u →
    u.ownHeld pd (creatorOf pd x) (cmdTargets w) = false → u.otherHeld pd (cmdTargets w) = false →
    (∀ n ∈ cmdTargets w, (u.cl n).st ≠ .running ∧ (u.cl n).pendingLl = false) →
    let ts := cmdTargets w
    let r := (u.holdAll ts (some (creatorOf pd x))).dspRead pd x false (nth w 0 1) 512
    (r = (v, .wait) → Sys2Proof.Machine.exec (.bindQueues pd l) s = .next (s.leave v.settle)) ∧
    (∀ c, r = (v, .refused c) → Sys2Proof.Machine.exec (.bindQueues pd l) s = .next (s.leave ((v.holdAll ts none).dspFail pd l c).settle)) ∧
    (∀ b, r = (v, .done b) → bindBad b = true →
      Sys2Proof.Machine.exec (.bindQueues pd l) s = .next (s.leave ((v.holdAll ts none).dspFail pd l Code.CL_BIND).settle)) ∧
    (∀ b, r = (v, .done b) → bindBad b = false → Sys2Proof.Machine.exec (.bindQueues pd l) s = .next (s.leave
      (((ts.foldl (fun s n => s.modCl n (fun c => { c with
        bound := true, queues := (List.range 32).map (fun i => (i, { Queue.unbound with bind := word64 b (16 * i) })) })) v).holdAll
          ts none).dspNext pd l).settle))) ∧
  (∀ (s u : State) (pd l : Nat) (x : CmdList) (w : List Word), EntryRuns s pd l 0x12 x w u →
    u.ownHeld pd (creatorOf pd x) (cmdTargets w) = false →
    let ts := cmdTargets w
    let t := nth w 0 1
    let ok := (u.now (4 + pd)).toNat + 10000 ≤ t.toNat
    let loaded := ∀ n ∈ ts, (u.cl n).st ≠ .empty ∧ (u.cl n).bound = true
    let free := u.otherHeld pd ts = false ∧ ∀ n ∈ ts, (u.cl n).pendingLl = false
    let r := u.reserve t (creatorOf pd x) [nth w 0 2, nth w 0 3, nth w 0 4, nth w 0 5] (u.byDie ts)
    (¬ ok → Sys2Proof.Machine.exec (.launchAt pd l) s = .next (s.leave (u.dspFail pd l Code.TM_LATE_LAUNCH).settle)) ∧
    (ok → ¬ loaded → Sys2Proof.Machine.exec (.launchAt pd l) s = .next (s.leave (u.dspFail pd l Code.CL_NOT_LOADED).settle)) ∧
    (ok → loaded → ¬ free → Sys2Proof.Machine.exec (.launchAt pd l) s = .next (s.leave (u.dspFail pd l Code.CL_BUSY).settle)) ∧
    (ok → loaded → free → r.2 = [] → Sys2Proof.Machine.exec (.launchAt pd l) s = .next (s.leave
      (((u.byDie ts).foldl (fun s d => s.llCommit d.1 (creatorOf pd x)) (r.1.abortTests ts)).dspStart pd l ts (nth w 0 0)).settle)) ∧
    (∀ c, ok → loaded → free → firstRefusal r.2 = some c → Sys2Proof.Machine.exec (.launchAt pd l) s = .next (s.leave
      (((u.byDie ts).foldl (fun s d => s.llFree d.1 (creatorOf pd x)) r.1).dspFail pd l c).settle)))

/-- `SET_REGION_KEY` (R533 to R535): the key of every granule of a home region of HBM whose tag is the list's, of the font region, or one
outgoing key entry set or removed; the entry then passes. Every other range or form fails with `FAB_KEY_RANGE`. -/
def Sys2Proof.Claims.RegionKeys : Prop :=
  ∀ (s u : State) (pd l : Nat) (x : CmdList) (w : List Word), EntryRuns s pd l 0x13 x w u →
    let a := fun i => (nth w 0 i).toNat
    let g := a 2 / 2 ^ 21
    (a 1 = 0 → a 2 % 2 ^ 21 = 0 → a 3 ≠ 0 → a 4 < 2 ^ 16 → a 2 + a 3 * 2 ^ 21 ≤ u.part.hbm →
      ((∀ i < a 3, u.tags.get 0 (g + i) = x.tenant) →
        ∃ m, Sys2Proof.Machine.exec (.setRegionKey pd l) s = .next (s.leave (({ u with homeKeys := m } : State).dspNext pd l)) ∧
          ∀ k, m.get 0 k = if g ≤ k ∧ k < g + a 3 then BitVec.ofNat 16 (a 4) else u.homeKeys.get 0 k) ∧
      ((∃ i < a 3, u.tags.get 0 (g + i) ≠ x.tenant) →
        Sys2Proof.Machine.exec (.setRegionKey pd l) s = .next (s.leave (u.dspFail pd l Code.FAB_KEY_TENANT).settle))) ∧
    (a 1 = 0 → (a 2 % 2 ^ 21 ≠ 0 ∨ a 3 = 0 ∨ 2 ^ 16 ≤ a 4 ∨ u.part.hbm < a 2 + a 3 * 2 ^ 21) →
      Sys2Proof.Machine.exec (.setRegionKey pd l) s = .next (s.leave (u.dspFail pd l Code.FAB_KEY_RANGE).settle)) ∧
    (a 1 = 1 → a 2 % 2 ^ 21 = 0 → a 3 ≠ 0 → a 4 < 2 ^ 16 → 0x0001000000000000 ≤ a 2 →
      a 2 + a 3 * 2 ^ 21 ≤ 0x0001000000000000 + u.part.clusters * 2 ^ 20 →
      ∃ m, Sys2Proof.Machine.exec (.setRegionKey pd l) s = .next (s.leave (({ u with fontKeys := m } : State).dspNext pd l)) ∧
        ∀ k, m.get 0 k = if g ≤ k ∧ k < g + a 3 then BitVec.ofNat 16 (a 4) else u.fontKeys.get 0 k) ∧
    (a 1 = 1 → (a 2 % 2 ^ 21 ≠ 0 ∨ a 3 = 0 ∨ 2 ^ 16 ≤ a 4 ∨ a 2 < 0x0001000000000000 ∨
        0x0001000000000000 + u.part.clusters * 2 ^ 20 < a 2 + a 3 * 2 ^ 21) →
      Sys2Proof.Machine.exec (.setRegionKey pd l) s = .next (s.leave (u.dspFail pd l Code.FAB_KEY_RANGE).settle)) ∧
    (a 1 = 2 → (256 ≤ a 2 ∨ a 3 ≠ a 3 % 2 ^ 14 + a 3 / 2 ^ 16 % 2 ^ 14 * 2 ^ 16 ∨ a 4 % 2 ^ 21 ≠ 0 ∨ 2 ^ 50 ≤ a 4 ∨ 2 ^ 50 ≤ a 5 ∨ 2 ^ 17 ≤ a 6) →
      Sys2Proof.Machine.exec (.setRegionKey pd l) s = .next (s.leave (u.dspFail pd l Code.FAB_KEY_RANGE).settle)) ∧
    (2 < a 1 → Sys2Proof.Machine.exec (.setRegionKey pd l) s = .next (s.leave (u.dspFail pd l Code.FAB_KEY_RANGE).settle)) ∧
    (a 1 = 2 → a 2 < 256 → a 3 = a 3 % 2 ^ 14 + a 3 / 2 ^ 16 % 2 ^ 14 * 2 ^ 16 → a 4 % 2 ^ 21 = 0 → a 4 < 2 ^ 50 → a 5 < 2 ^ 50 →
      a 6 < 2 ^ 17 → ∃ m, Sys2Proof.Machine.exec (.setRegionKey pd l) s = .next (s.leave (({ u with outKeys := m } : State).dspNext pd l)) ∧
        m = (if a 6 < 2 ^ 16 then u.outKeys.drop (a 2)
          else u.outKeys.set (a 2) ⟨x.tenant, a 3 % 2 ^ 14, a 3 / 2 ^ 16 % 2 ^ 14, nth w 0 4, nth w 0 5, BitVec.ofNat 16 (a 6)⟩))

/-- The entries for engines (R395 to R398, R425, R426, R572 to R576): a busy target, or descriptors that are misplaced or not sound, fail the
entry with the engine's code, which the target shows; descriptors that cannot be read yet are waited for; where they are read and sound,
the targets start and the entry is running. -/
def Sys2Proof.Claims.EngineEntries : Prop :=
  (∀ (s u : State) (pd l : Nat) (x : CmdList) (w : List Word), EntryRuns s pd l 0x20 x w u →
    let ts := cmdTargets w
    let a := nth w 0 1
    let shown := fun (s : State) (c : BitVec 16) =>
      ((ts.foldl (fun s f => s.setRfld (cuReg f 0) 32 16 c.toNat) s).dspFail pd l c).settle
    let ready := (∀ f ∈ ts, u.cuBusy f = false) ∧ a.toNat % 128 = 0
    let r := u.dspRead pd x false a (128 * ts.length)
    ((∃ f ∈ ts, u.cuBusy f = true) → Sys2Proof.Machine.exec (.collective pd l) s = .next (s.leave (shown u Code.CU_BUSY))) ∧
    ((∀ f ∈ ts, u.cuBusy f = false) → a.toNat % 128 ≠ 0 →
      Sys2Proof.Machine.exec (.collective pd l) s = .next (s.leave (shown u Code.CU_DESC))) ∧
    (∀ v, ready → r = (v, .wait) → Sys2Proof.Machine.exec (.collective pd l) s = .next (s.leave v.settle)) ∧
    (∀ v c, ready → r = (v, .refused c) → Sys2Proof.Machine.exec (.collective pd l) s = .next (s.leave (v.dspFail pd l c).settle)) ∧
    (∀ v b, ready → r = (v, .done b) →
      let g := v.readGroups pd x (chunks 128 b) []
      (g.2 = none → Sys2Proof.Machine.exec (.collective pd l) s = .next (s.leave g.1.settle)) ∧
      (∀ gs, g.2 = some (Code.CU_DESC, gs) → Sys2Proof.Machine.exec (.collective pd l) s = .next (s.leave (shown g.1 Code.CU_DESC))) ∧
      (∀ c gs, g.2 = some (c, gs) → c ≠ 0 → c ≠ Code.CU_DESC →
        Sys2Proof.Machine.exec (.collective pd l) s = .next (s.leave (g.1.dspFail pd l c).settle)) ∧
      (∀ gs, g.2 = some (0, gs) →
        let y := g.1.askStarts (ts.zip gs)
        (∀ c, y.2 = some c → Sys2Proof.Machine.exec (.collective pd l) s = .next (s.leave (y.1.dspFail pd l c).settle)) ∧
        (y.2 = none → Sys2Proof.Machine.exec (.collective pd l) s =
          .next (s.leave ((y.1.dspStart pd l ts (nth w 0 0)).openGroups (ts.zip gs)).settle))))) ∧
  (∀ (s u : State) (pd l : Nat) (x : CmdList) (w : List Word), EntryRuns s pd l 0x30 x w u →
    let ts := cmdTargets w
    let a := nth w 0 1
    let busy := ts.filter (fun n => (u.lse n).phase != .idle)
    let shown := fun (s : State) (c : BitVec 16) (l' : List Nat) => ((s.showCode .lse c l').dspFail pd l c).settle
    let r := u.dspRead pd x false a (128 * ts.length)
    (busy ≠ [] → Sys2Proof.Machine.exec (.lseSolve pd l) s = .next (s.leave (shown u Code.LSE_BUSY busy))) ∧
    (busy = [] → a.toNat % 128 ≠ 0 → Sys2Proof.Machine.exec (.lseSolve pd l) s = .next (s.leave (shown u Code.LSE_DESC ts))) ∧
    (∀ v, busy = [] → a.toNat % 128 = 0 → r = (v, .wait) → Sys2Proof.Machine.exec (.lseSolve pd l) s = .next (s.leave v.settle)) ∧
    (∀ v c, busy = [] → a.toNat % 128 = 0 → r = (v, .refused c) →
      Sys2Proof.Machine.exec (.lseSolve pd l) s = .next (s.leave (v.dspFail pd l c).settle)) ∧
    (∀ v b, busy = [] → a.toNat % 128 = 0 → r = (v, .done b) →
      let ds := ts.zip ((chunks 128 b).map (fun d => (List.range 16).map (fun i => word64 d (8 * i))))
      let bad := (ds.filter (fun d => v.lseDescBad d.2)).map (·.1)
      (bad ≠ [] → Sys2Proof.Machine.exec (.lseSolve pd l) s = .next (s.leave (shown v Code.LSE_DESC bad))) ∧
      (bad = [] → Sys2Proof.Machine.exec (.lseSolve pd l) s = .next (s.leave
        ((v.dspStart pd l ts (nth w 0 0)).lseAll (nth w 0 2) (bit (nth w 0 3) 0) x.tenant (creatorOf pd x) ds).settle)))) ∧
  (∀ (s u : State) (pd l : Nat) (x : CmdList) (w : List Word), EntryRuns s pd l 0x40 x w u →
    let ts := cmdTargets w
    let a := nth w 0 1
    let busy := ts.filter (fun k => (u.uu k).busy)
    let placed := a.toNat % 16 = 0 ∧ u.inHbm a (16 * ts.length) = true
    let shown := fun (s : State) (c : BitVec 16) (l' : List Nat) => ((s.showCode .uu c l').dspFail pd l c).settle
    let r := u.dspRead pd x false a (16 * ts.length)
    (busy ≠ [] → Sys2Proof.Machine.exec (.uuApply pd l) s = .next (s.leave (shown u Code.UU_BUSY busy))) ∧
    (busy = [] → ¬ placed → Sys2Proof.Machine.exec (.uuApply pd l) s = .next (s.leave (shown u Code.UU_DESC ts))) ∧
    (∀ v, busy = [] → placed → r = (v, .wait) → Sys2Proof.Machine.exec (.uuApply pd l) s = .next (s.leave v.settle)) ∧
    (∀ v c, busy = [] → placed → r = (v, .refused c) →
      Sys2Proof.Machine.exec (.uuApply pd l) s = .next (s.leave (v.dspFail pd l c).settle)) ∧
    (∀ v b, busy = [] → placed → r = (v, .done b) →
      let ds := ts.zip ((chunks 16 b).map (fun e => (word64 e 0, (word64 e 8).toNat)))
      let idle := (ds.filter (fun d => d.2.2 != 0 && v.rfld (uuReg d.1 8) 32 1 == 0)).map (·.1)
      let bad := (ds.filter (fun d => decide (4096 < d.2.2) || d.2.1.toNat % 128 != 0 || !v.inHbm d.2.1 (128 * d.2.2))).map (·.1)
      (idle ≠ [] → Sys2Proof.Machine.exec (.uuApply pd l) s = .next (s.leave (shown v Code.UU_NO_STEP idle))) ∧
      (idle = [] → bad ≠ [] → Sys2Proof.Machine.exec (.uuApply pd l) s = .next (s.leave (shown v Code.UU_DESC bad))) ∧
      (idle = [] → bad = [] → Sys2Proof.Machine.exec (.uuApply pd l) s =
        .next (s.leave ((v.dspStart pd l ts (nth w 0 0)).uuAll x.tenant (creatorOf pd x) ds).settle))))

/-- Snapshot entries (R629 to R639, R643): one of another operation is left to its row, one whose shape is wrong fails with `SE_DESC`;
DECLARE and RESTORE are refused while an operation runs, wait for their table, and refuse one that is not sound; a sound declaration stands
from then on and a sound RESTORE starts; TAKE is refused by the first of its checks, passes where its condition word is 0 and else starts;
CANCEL ends a TAKE that runs. -/
def Sys2Proof.Claims.SnapshotEntries : Prop :=
  (∀ e ∈ [(Instr.snapshotDeclare, 0, [3, 4, 5]), (Instr.snapshotTake, 1, [2]), (Instr.snapshotCancel, 2, [2, 3, 4, 5]), (Instr.snapshotRestore, 3, [3])],
    ∀ (s u : State) (pd l : Nat) (x : CmdList) (w : List Word), EntryRuns s pd l 0x50 x w u →
    ((nth w 0 1).toNat < 4 → (nth w 0 1).toNat ≠ e.2.1 → Sys2Proof.Machine.exec (e.1 pd l) s = .next (s.leave u)) ∧
    ((4 ≤ (nth w 0 1).toNat ∨ ((nth w 0 1).toNat = e.2.1 ∧ ∃ i ∈ e.2.2, nth w 0 i ≠ 0)) →
      Sys2Proof.Machine.exec (e.1 pd l) s = .next (s.leave (u.cmdFail pd l Code.SE_DESC).settle))) ∧
  (∀ (s u : State) (pd l : Nat) (x : CmdList) (w : List Word) (declare : Bool), EntryRuns s pd l 0x50 x w u →
    (if declare then snapShape w 0 [3, 4, 5] else snapShape w 3 [3]) →
    let i := (if declare then Instr.snapshotDeclare else Instr.snapshotRestore) pd l
    let a := nth w 0 2
    let refused := fun (s : State) (c : BitVec 16) => ((s.seCode c).dspFail pd l c).settle
    let r := u.dspRead pd x false a 64
    (u.snapBusy = true → Sys2Proof.Machine.exec i s = .next (s.leave (refused u Code.SE_BUSY))) ∧
    (∀ v, u.snapBusy = false → r = (v, .wait) → Sys2Proof.Machine.exec i s = .next (s.leave v.settle)) ∧
    (∀ v c, u.snapBusy = false → r = (v, .refused c) → Sys2Proof.Machine.exec i s = .next (s.leave (v.dspFail pd l c).settle)) ∧
    (∀ v h, u.snapBusy = false → r = (v, .done h) →
      let n := bytesAt h 0x28 4
      let q := v.dspRead pd x false (a + 64) (16 * n)
      ((n = 0 ∨ 64 < n) → Sys2Proof.Machine.exec i s = .next (s.leave (refused v Code.SE_DESC))) ∧
      (∀ z, 0 < n → n ≤ 64 → q = (z, .wait) → Sys2Proof.Machine.exec i s = .next (s.leave z.settle)) ∧
      (∀ z c, 0 < n → n ≤ 64 → q = (z, .refused c) → Sys2Proof.Machine.exec i s = .next (s.leave (z.dspFail pd l c).settle)) ∧
      (∀ z b, 0 < n → n ≤ 64 → q = (z, .done b) → z.parseTable h b declare = none →
        Sys2Proof.Machine.exec i s = .next (s.leave (refused z Code.SE_DESC))) ∧
      (∀ z b d, 0 < n → n ≤ 64 → q = (z, .done b) → z.parseTable h b declare = some d → Sys2Proof.Machine.exec i s = .next (s.leave
        (if declare then
          (((({ z with job := { z.job with decl := some d } } : State).setRfld seStatus 3 1 1).setRfld seStatus 2 1
            (if d.stop then 1 else 0)).dspNext pd l).settle
        else ((z.dspStart pd l [0, 1, 2, 3] (nth w 0 0)).restoreStart (some (creatorOf pd x)) d (nth w 0 4) (nth w 0 5) x.tenant).settle))))) ∧
  (∀ (s u : State) (pd l : Nat) (x : CmdList) (w : List Word), EntryRuns s pd l 0x50 x w u → snapShape w 1 [2] →
    let starts := fun (s : State) =>
      ((s.dspStart pd l [0, 1, 2, 3] (nth w 0 0)).takeStart (some (creatorOf pd x)) (nth w 0 3) (nth w 0 4) x.tenant).settle
    let free := u.takeRefusal (nth w 0 3) = none
    let r := u.dspRead pd x false (nth w 0 5) 8
    (∀ c, u.takeRefusal (nth w 0 3) = some c →
      Sys2Proof.Machine.exec (.snapshotTake pd l) s = .next (s.leave ((u.seCode c).dspFail pd l c).settle)) ∧
    (free → nth w 0 5 = 0 → Sys2Proof.Machine.exec (.snapshotTake pd l) s = .next (s.leave (starts u))) ∧
    (∀ v, free → nth w 0 5 ≠ 0 → r = (v, .wait) → Sys2Proof.Machine.exec (.snapshotTake pd l) s = .next (s.leave v.settle)) ∧
    (∀ v c, free → nth w 0 5 ≠ 0 → r = (v, .refused c) →
      Sys2Proof.Machine.exec (.snapshotTake pd l) s = .next (s.leave (v.dspFail pd l c).settle)) ∧
    (∀ v b, free → nth w 0 5 ≠ 0 → r = (v, .done b) → Sys2Proof.Machine.exec (.snapshotTake pd l) s = .next (s.leave
      (if leNat b = 0 then (v.dspNext pd l).settle else starts v)))) ∧
  (∀ (s u : State) (pd l : Nat) (x : CmdList) (w : List Word), EntryRuns s pd l 0x50 x w u → snapShape w 2 [2, 3, 4, 5] →
    Sys2Proof.Machine.exec (.snapshotCancel pd l) s = .next (s.leave
      ((if ∃ r, u.job.snap = some r ∧ r.take = true then u.endSnap Code.SE_CANCELLED else u).dspNext pd l).settle))

/-- `DIGEST` (R673 to R677): it waits until every earlier entry has completed; words that are misplaced fail it with `SEC_DIGEST_DESC` and
write nothing; its descriptor and its regions are read as memory lets them; then its result record, with the code that it ends with, is
written, and once it stands in memory the entry passes, or fails with that code. -/
def Sys2Proof.Claims.DigestEntries : Prop :=
  (∀ (s u : State) (pd l : Nat) (x : CmdList) (w : List Word), EntryRuns s pd l 0x60 x w u → x.fin = none →
    let desc := nth w 0 1
    let res := nth w 0 2
    let placed := desc.toNat % 64 = 0 ∧ u.inHbm desc 64 = true ∧ res.toNat % 64 = 0 ∧ u.inHbm res 672 = true ∧ (nth w 0 3).toNat < 2
    let r := u.dspRead pd x false desc 64
    let ends := fun (s : State) (step : Word) (c : BitVec 16) (roles : List (List Byte)) =>
      let m := s.digestRecord pd x (bit (nth w 0 3) 0) step c roles
      ((m.2.dspPutStart pd l (addrLocal res) m.1 c).digestRun pd l c).settle
    (x.quiet = false → Sys2Proof.Machine.exec (.digest pd l) s = .next (s.leave u)) ∧
    (x.quiet = true → ¬ placed → Sys2Proof.Machine.exec (.digest pd l) s = .next (s.leave (u.dspFail pd l Code.SEC_DIGEST_DESC).settle)) ∧
    (∀ v, x.quiet = true → placed → r = (v, .wait) → Sys2Proof.Machine.exec (.digest pd l) s = .next (s.leave v.settle)) ∧
    (∀ v c, x.quiet = true → placed → r = (v, .refused c) →
      Sys2Proof.Machine.exec (.digest pd l) s = .next (s.leave (v.dspFail pd l c).settle)) ∧
    (∀ v h, x.quiet = true → placed → r = (v, .done h) →
      let n := bytesAt h 8 4
      let sound := 0 < n ∧ n ≤ 256 ∧ v.inHbm desc (64 + 16 * n) = true
      let q := v.dspRead pd x false (desc + 64) (16 * n)
      (¬ sound → Sys2Proof.Machine.exec (.digest pd l) s = .next (s.leave (ends v (word64 h 0) Code.SEC_DIGEST_DESC []))) ∧
      (∀ z, sound → q = (z, .wait) → Sys2Proof.Machine.exec (.digest pd l) s = .next (s.leave z.settle)) ∧
      (∀ z c, sound → q = (z, .refused c) → Sys2Proof.Machine.exec (.digest pd l) s = .next (s.leave (z.dspFail pd l c).settle)) ∧
      (∀ z b, sound → q = (z, .done b) → z.digestEntries h b = none →
        Sys2Proof.Machine.exec (.digest pd l) s = .next (s.leave (ends z (word64 h 0) Code.SEC_DIGEST_DESC []))) ∧
      (∀ z b es, sound → q = (z, .done b) → z.digestEntries h b = some es →
        let y := z.readRoles pd x es [[], [], [], []]
        (y.2 = none → Sys2Proof.Machine.exec (.digest pd l) s = .next (s.leave y.1.settle)) ∧
        (∀ c roles, y.2 = some (c, roles) →
          Sys2Proof.Machine.exec (.digest pd l) s = .next (s.leave (ends y.1 (word64 h 0) c roles)))))) ∧
  (∀ (s u : State) (pd l : Nat) (x : CmdList) (w : List Word) (c : BitVec 16), EntryRuns s pd l 0x60 x w u → x.fin = some c →
    Sys2Proof.Machine.exec (.digest pd l) s = .next (s.leave (u.digestRun pd l c).settle)) ∧
  (∀ (s q : State) (pd l : Nat) (c : BitVec 16),
    (s.dspPut pd l = (q, none) → s.digestRun pd l c = q) ∧
    (∀ k, s.dspPut pd l = (q, some k) → s.digestRun pd l c = if c ≠ 0 then q.dspFail pd l c else if k ≠ 0 then q.dspFail pd l k else q.dspNext pd l)) ∧
  (∀ (s : State) (pd : Nat) (x : CmdList) (step : Word) (roles : List (List Byte)),
    s.digestRecord pd x false step 0 roles = (leBytes 4 0x38524452 ++ leBytes 2 1 ++ leBytes 2 (2 * s.rfld (regAt .sec 0 0) 0 1) ++
      leBytes 4 s.jobId.toNat ++ leBytes 2 x.tenant.toNat ++ zeros 2 ++ leBytes 8 step.toNat ++ leBytes 8 (s.now (4 + pd)).toNat ++
      leBytes 8 s.sysId.toNat ++ leBytes 4 (s.rfld (regAt .sec 0 0x10) 0 32) ++ zeros 4 ++ s.dumapDigest ++ nth s.sec.mr [] 3 ++
      (match s.sec.bind.find? (fun b => b.1 == x.tenant) with | some b => sha512 b.2 | none => zeros 64) ++
      (roles.flatMap roleDigest ++ roles.flatMap (fun r => leBytes 8 r.length)) ++ zeros 132 ++ zeros 12, s))

/-- The end of a list (R279): once every entry that it started has completed, the completion record, with the status and index of the
failed entry of lowest index and the time at which the list ended, is stored at `RECORD`; once it stands there the list goes, and the
submitter is told. Until then nothing happens. -/
def Sys2Proof.Claims.ListCompletes : Prop :=
  (∀ (s u : State) (pd l idx : Nat) (x : CmdList) (code : BitVec 16), pd < 2 → s.alive = true → s.settled = true →
    s.cmdList pd l = some x → x.state = .ended code idx →
    (x.quiet = false → Sys2Proof.Machine.exec (.listComplete pd l) s = .next (s.leave s)) ∧
    (x.quiet = true →
      let o := x.outcome code idx
      let r := leBytes 2 o.1.toNat ++ zeros 2 ++ leBytes 4 o.2 ++ leBytes 8 x.tag.toNat ++ leBytes 8 x.endAt.toNat ++ zeros 8
      let p := (if x.fin.isSome then s else s.dspPutStart pd l (addrLocal x.record) r 0).dspPut pd l
      (p = (u, none) → Sys2Proof.Machine.exec (.listComplete pd l) s = .next (s.leave u.settle)) ∧
      (p = (u, some 0) → Sys2Proof.Machine.exec (.listComplete pd l) s = .next (s.leave
        ((u.setDsp pd { u.dsp pd with lists := (u.dsp pd).lists.filter (fun y => y.id != l) }).tellSubmitter x r).settle)))) ∧
  (∀ (x : CmdList) (code : BitVec 16) (idx : Nat), (∀ r ∈ x.runs, r.ended = true → r.code = 0) → x.outcome code idx = (code, idx)) ∧
  (∀ (x : CmdList) (r : EntryRun), r ∈ x.runs → r.ended = true → r.code ≠ 0 →
    (∀ q ∈ x.runs, q.ended = true → q.code ≠ 0 → q ≠ r → r.idx < q.idx) → x.outcome 0 x.idx = (r.code, r.idx))

/-- Lamplighters (R567 to R571): the armed entries whose time has come fire and free themselves, and the count of fires grows by
their number; a reservation not committed by T − 4,000 ticks frees itself and its clusters; a cancel before the time frees the
creator's entries, a later one answers `TM_CANCEL_LATE`; a launch that fires starts its clusters at `ENTRY` with their arguments. -/
def Obligations.Lamplighters : Prop :=
  (∀ (s : State) (d : Nat), d < 8 → s.alive = true →
    let l := (s.lamp d).entries
    let due := fun (e : LlEntry) => e.armed && decide (e.t ≤ s.now d)
    Sys2Proof.Machine.exec (.llFire d) s = .next (s.leave
      (((l.filter due).foldl (fun s e => s.fireEntry e) (s.setLamp d ⟨l.filter (fun e => !due e)⟩)).bump (llReg d 0x10) 0 48
        (l.filter due).length).settle)) ∧
  (∀ (s : State) (d : Nat), d < 8 → s.alive = true →
    let l := (s.lamp d).entries
    let lapsed := fun (e : LlEntry) => !e.armed && decide (e.t.toNat ≤ (s.now d).toNat + 4000)
    Sys2Proof.Machine.exec (.llReservationLapse d) s = .next (s.leave
      (((l.filter lapsed).foldl (fun s e => s.unhold e) s).setLamp d ⟨l.filter (fun e => !lapsed e)⟩).settle)) ∧
  (∀ (s : State) (d : Nat) (cr : Creator), d < 8 → s.alive = true →
    let l := (s.lamp d).entries
    ((∃ e ∈ l, e.creator = cr ∧ (s.now d).toNat < e.t.toNat) → Sys2Proof.Machine.exec (.llCancel d cr) s = .next (s.leave
      (((l.filter (fun e => e.creator == cr)).foldl (fun s e => s.unhold e) s).setLamp d ⟨l.filter (fun e => e.creator != cr)⟩).settle)) ∧
    ((∀ e ∈ l, e.creator = cr → e.t.toNat ≤ (s.now d).toNat) → Sys2Proof.Machine.exec (.llCancel d cr) s =
      .next (s.leave (s.setRfld (llReg d 0) 32 16 Code.TM_CANCEL_LATE.toNat).settle))) ∧
  (∀ (s : State) (n i : Nat) (t : Word) (args : List Word) (cr : Creator),
    let c := (s.launchCluster n t args cr).cl n
    c.st = .running ∧ c.pc = (s.cl n).entry ∧ c.sr 0 = wd n ∧ (i < 4 → c.sr (1 + i) = nth args 0 i) ∧ c.sr 5 = t ∧ c.sr 6 = wd s.pkg ∧
      (7 ≤ i → c.sr i = 0) ∧ c.loops = [] ∧ c.tok.get 0 i = 0 ∧ c.latch = none ∧ c.uValid = [] ∧ c.bank0 = none ∧ c.bank1 = none ∧
      (c.q i).entries = [] ∧ (c.q i).bind = ((s.cl n).q i).bind ∧ (s.launchCluster n t args cr).mem = s.mem)

/-! # Least-squares engines -/

namespace Sys2Proof.Claims

/-- Engine n of a package that can act is in a phase, with nothing under way with memory. -/
structure LseIn (s : State) (n : Nat) (p : Phase) : Prop where
  present : n < s.part.lse
  alive   : s.alive = true
  phase   : (s.lse n).phase = p
  rest    : (s.lse n).act = .rest

/-- Engine n with its record changed. -/
def lseBe (s : State) (n : Nat) (f : Lse → Lse) : State := s.setLse n (f (s.lse n))

/-- The cycles of a compute phase that a sample cuts (R420, log 34). -/
def cutCycles (s : State) (n : Nat) : Nat :=
  let x := s.lse n
  if x.macs = 0 then 0 else Config.lseCut x.phase.num x.macs (s.now (s.part.dieOfLse n))

/-- A solve that a sample ends with a code, the cycles of the phase that it cuts counted (R411, R413, R420). -/
def sampleEnds (s : State) (n : Nat) (code : BitVec 16) : State := (s.bump (lseReg n 0x28) 0 48 (cutCycles s n)).lseEnd n code 3

/-- The reads of an engine (R394, R400, R404, R405, R408): with priority or not, address, length, and what follows. -/
def lseReads (n : Nat) (x : Lse) : Option (Bool × Word × Nat × (State → List Byte → State)) :=
  let d := fun i => nth x.desc 0 i
  match x.act with
  | .image => some (false, d 0, (d 1).toNat, fun s b => s.lseImage n b)
  | .jbase => some (false, d 7, 8 * imgNnzJ x.img, fun s b => lseBe s n (fun y => { y with j := fxList b, act := .rbase }))
  | .rbase => some (false, d 8, 8 * imgM x.img, fun s b => (lseBe s n (fun y => { y with r := fxList b })).lseLoaded n)
  | .point => some (false, d (5 + x.cur), 8 * imgN x.img, fun s b => s.lseCandidate n b)
  | .poll => some (true, x.slotAddr, 64, fun s b => s.lseHeader n b)
  | .batch c => some (false, x.slotAddr + 64, 16 * c, fun s b => s.lseBatch n b)
  | _ => none

/-- What follows a write of an engine that is in memory (R400, R401, R403, R404, R409, R415). -/
def lseWrites (n : Nat) (x : Lse) : Option (State → State) :=
  let d := fun i => nth x.desc 0 i
  match x.act with
  | .begin0 => some (fun s => s.lseOut n .begin1 (d 11) (zeros 8))
  | .begin1 => some (fun s => (lseBe s n (fun y => { y with act := .rest })).lseSample n)
  | .work => some (fun s => lseBe s n (fun y => { y with act := .jbase }))
  | .cand f => some (fun s => s.lseRequest n f)
  | .body f => some (fun s => s.lseOut n (.seq f) (d 11) (leBytes 8 (x.req + 1)))
  | .seq f => some (fun s => s.lsePublished n f)
  | .clear k => some (fun s => s.lseTested n k)
  | .result c t => some (fun s => s.lseOut n (.last c) (d 11 + 0x40) (leBytes 8 t.toNat))
  | .last c => some (fun s => s.lseFinish n c)
  | _ => none

/-- What follows a write of an engine that is refused (R421). -/
def lseRefused (n : Nat) (x : Lse) (s : State) : State :=
  match x.act with
  | .result _ t => lseBe s n (fun y => { y with act := .result Code.LSE_MEM_FAULT t })
  | .last _ => lseBe s n (fun y => { y with act := .last Code.LSE_MEM_FAULT })
  | _ => s.lseEnd n Code.LSE_MEM_FAULT 3

/-- What follows the computation of a phase with saturations l (R387, R388): they are counted, and end the solve where `RCONT` is 0. -/
def afterSats (s : State) (n : Nat) (l : Sats) (k : State → State) : State :=
  let t := s.lseSats n l
  if l = [] ∨ (t.lse n).rcont = true then k t else t.lseEnd n Code.LSE_RANGE 3

/-- A batch is applied to the accepted linearisation and costed (R375, R406, R407): J, r, cost, saturations. -/
def batchTried (x : Lse) (es : List (Word × Word)) : List Int × List Int × Int × Sats :=
  let a := es.foldl (batchApply x.img) (x.j, x.r, [])
  let c := x.costOf a.2.1 a.2.2
  (a.1, a.2.1, c.1, c.2)

end Sys2Proof.Claims

/-- Fixed point (R381 to R383, R386, R387): placement is an exact shift left or floors; as long as nothing saturates the result does not
depend on the order of the addends; it is the exact sum on the grid rounded to nearest, ties to even; and every result lies within 64
bits. -/
def Sys2Proof.Claims.LseArithmetic : Prop :=
  (∀ F v f : Int, f ≤ F + 32 → fxPlace F v f = v * 2 ^ (F + 32 - f).toNat) ∧
  (∀ F v f : Int, F + 32 < f →
    fxPlace F v f * 2 ^ (f - F - 32).toNat ≤ v ∧ v < (fxPlace F v f + 1) * 2 ^ (f - F - 32).toNat) ∧
  (∀ (F : Int) (l m : List (Int × Int)), l.Perm m → (fxAcc F l).2 = false → (fxAcc F m).2 = false → fxSum F l = fxSum F m) ∧
  (∀ (F : Int) (l : List (Int × Int)), (fxAcc F l).2 = false → (fxAcc F l).1 = (l.map (fun x => fxPlace F x.1 x.2)).sum) ∧
  (∀ (F : Int) (l : List (Int × Int)), (fxSum F l).2 = false →
    2 * ((fxSum F l).1 * 2 ^ 32 - (fxAcc F l).1).natAbs ≤ 2 ^ 32 ∧
    (2 * ((fxSum F l).1 * 2 ^ 32 - (fxAcc F l).1).natAbs = 2 ^ 32 → (fxSum F l).1 % 2 = 0)) ∧
  (∀ (F : Int) (l : List (Int × Int)), -2 ^ 63 ≤ (fxSum F l).1 ∧ (fxSum F l).1 < 2 ^ 63) ∧
  (∀ (F d fd : Int) (l : List (Int × Int)), -2 ^ 63 ≤ (fxQuot F l d fd).1 ∧ (fxQuot F l d fd).1 < 2 ^ 63)

/-- The phases of an iteration (R373, R376, R377, R384, R385, R400, R404): FORM computes P and g from a fresh linearisation and always the
diagonal of N; FACTOR goes on to SOLVE, or on a failed pivot ends with `LSE_PIVOT` or counts as a rejection; SOLVE yields the step and
the next request; PUBLISH writes the candidate, then the request with its first word last; LOAD reads the image and ends with the
linearisation resident. What an engine reads comes piece by piece, and what it writes is in memory before it goes on; until then, and in a
phase that no phase end follows, nothing happens. -/
def Sys2Proof.Claims.LsePhases : Prop :=
  (∀ (s : State) (n : Nat), LseIn s n .form →
    let x := s.lse n
    let pg : Tab Int × List Int × Sats := if x.fresh then (x.formP.1, x.formG x.formP.2) else (x.p, x.g, [])
    let y : Lse := { x with p := pg.1, g := pg.2.1 }
    let dg := y.addDiag pg.2.2
    Sys2Proof.Machine.exec (.lsePhaseEnd n) s = .next (s.leave
      ((afterSats ((s.bump (lseReg n 0x28) 0 48 (Config.lseCycles 4 (if x.fresh then bytesAt x.img 0x30 8 else imgN x.img))).setLse n
        { y with dg := dg.1, facts := x.facts + 1 }) n dg.2 (fun t => t.lseEnter n .factor)).lseRun n).settle)) ∧
  (∀ (s : State) (n : Nat), LseIn s n .factor →
    let x := s.lse n
    let f := factCols x (imgSuperList x.img) (List.range (imgN x.img)) ⟨[], [], [], []⟩
    let u := s.bump (lseReg n 0x28) 0 48 (Config.lseCycles 5 (bytesAt x.img 0x38 8))
    (∀ a, f.1 = some a → Sys2Proof.Machine.exec (.lsePhaseEnd n) s = .next (s.leave
      ((afterSats u n f.2 (fun t => (lseBe t n (fun y => { y with l := a.l, dg := a.d })).lseEnter n .solve)).lseRun n).settle)) ∧
    (f.1 = none → x.lm = false → Sys2Proof.Machine.exec (.lsePhaseEnd n) s = .next (s.leave
      ((afterSats u n f.2 (fun t => t.lseEnd n Code.LSE_PIVOT 3)).lseRun n).settle)) ∧
    (f.1 = none → x.lm = true → Sys2Proof.Machine.exec (.lsePhaseEnd n) s = .next (s.leave
      ((afterSats u n f.2 (fun t => t.lseReject n)).lseRun n).settle))) ∧
  (∀ (s : State) (n : Nat), LseIn s n .solve →
    let x := s.lse n
    let d := x.solve
    Sys2Proof.Machine.exec (.lsePhaseEnd n) s = .next (s.leave
      ((afterSats ((s.bump (lseReg n 0x28) 0 48 (Config.lseCycles 6 (2 * imgNnzL x.img))).setLse n { x with x := d.1, req := x.req + 1 })
        n d.2 (fun t => t.lseEnter n .publish)).lseRun n).settle)) ∧
  (∀ (s : State) (n : Nat), LseIn s n .publish → Sys2Proof.Machine.exec (.lsePhaseEnd n) s = .next (s.leave
    ((if (s.lse n).req = 0 then s.lseRequest n false else lseBe s n (fun y => { y with act := .point })).lseRun n).settle)) ∧
  (∀ (s : State) (n : Nat), LseIn s n .load → Sys2Proof.Machine.exec (.lsePhaseEnd n) s = .next (s.leave
    ((lseBe s n (fun y => { y with act := .image })).lseRun n).settle)) ∧
  (∀ (s : State) (n : Nat), n < s.part.lse → s.alive = true → s.settled = true →
    ((s.lse n).act ≠ .rest ∨ (s.lse n).phase ∈ [Phase.idle, .wait, .test]) →
    Sys2Proof.Machine.exec (.lsePhaseEnd n) s = .next (s.leave s)) ∧
  (∀ (s : State) (n : Nat) (img : List Byte),
    let d := fun i => nth (s.lse n).desc 0 i
    (imgOk img (d 2) = false → s.lseImage n img = s.lseEnd n Code.LSE_IMAGE 3) ∧
    (imgOk img (d 2) = true → d 4 < word64 img 0x28 → s.lseImage n img = s.lseEnd n Code.LSE_WORK 3) ∧
    (imgOk img (d 2) = true → word64 img 0x28 ≤ d 4 → ∃ t, s.lseImage n img = t ∧ (t.lse n).img = img ∧ (t.lse n).act = .work ∧
      (t.lse n).put = putPieces [(wd (addrLocal (d 3)), img.take (d 4).toNat)])) ∧
  (∀ (s : State) (n : Nat),
    let x := s.lse n
    s.lseLoaded n = ((lseBe s n (fun y => { y with
      hash := nth x.desc 0 2, work := (nth x.desc 0 3, nth x.desc 0 4), resident := true, act := .rest })).measure x.img).lseEnter n .publish) ∧
  (∀ (s : State) (n : Nat) (f : Bool),
    s.lsePublished n f = if f = true ∧ (s.lse n).rcont = false then s.lseEnd n Code.LSE_RANGE 3
      else (lseBe s n (fun y => { y with act := .rest })).lseEnter n .wait) ∧
  (∀ (s u : State) (n : Nat) (prio : Bool) (a : Word) (len : Nat) (k : State → List Byte → State) (got : List (Word × List Byte))
      (r : MemRes), lseReads n (s.lse n) = some (prio, a, len, k) → s.fetch (s.lseReq n prio) (s.lse n).got (addrLocal a) len = (u, got, r) →
    (∀ b, r = .done b → s.lseStep n = (k (lseBe u n (fun y => { y with got := [] })) b, true)) ∧
    (∀ c, r = .refused c → s.lseStep n = ((lseBe u n (fun y => { y with got := [] })).lseEnd n Code.LSE_MEM_FAULT 3, true)) ∧
    (r = .wait → s.lseStep n = (lseBe u n (fun y => { y with got := got }), false))) ∧
  (∀ (s u : State) (n : Nat) (k : State → State) (r : PutRes), lseWrites n (s.lse n) = some k →
    s.put (s.lseReq n false) (fun _ _ => .lse n) (s.lse n).put 0 0 = (u, r) →
    let v := lseBe u n (fun y => { y with put := r.rest, heldW := y.heldW + r.held })
    (∀ c, r.code = some c → s.lseStep n = (lseRefused n (s.lse n) (lseBe v n (fun y => { y with put := [] })), true)) ∧
    (r.code = none → r.rest = [] → (v.lse n).heldW = 0 → s.lseStep n = (k v, true)) ∧
    (r.code = none → (r.rest ≠ [] ∨ (v.lse n).heldW ≠ 0) → s.lseStep n = (v, false)))

/-- Batches (R375, R378, R388, R408, R409): a poll reads the expected slot; one that reads 0 waits on; a `SEQ` that is not k + 1 ends the
solve with `LSE_DELTA`; a good batch is tested, and its slot is freed before the engine goes on. The first batch is always applied; a
candidate is accepted in Gauss–Newton mode or where its cost is lower, and the solve then ends as converged within `CTOL` or at the
limit; a saturation ends it with `LSE_RANGE` where `RCONT` is 0; a rejected batch is discarded and the exponent rises, above 63 with `LSE_LAMBDA_MAX`. -/
def Sys2Proof.Claims.LseBatches : Prop :=
  (∀ (s : State) (n : Nat), LseIn s n .wait → s.lseDue n = none →
    Sys2Proof.Machine.exec (.lsePoll n) s = .next (s.leave ((lseBe s n (fun y => { y with act := .poll })).lseRun n).settle)) ∧
  (∀ (s : State) (n : Nat) (c : BitVec 16), LseIn s n .wait → s.lseDue n = some c →
    Sys2Proof.Machine.exec (.lsePoll n) s = .next (s.leave ((sampleEnds s n c).lseRun n).settle)) ∧
  (∀ (s : State) (n : Nat), n < s.part.lse → s.alive = true → s.settled = true → ((s.lse n).phase ≠ .wait ∨ (s.lse n).act ≠ .rest) →
    Sys2Proof.Machine.exec (.lsePoll n) s = .next (s.leave s)) ∧
  (∀ (s : State) (n : Nat) (hd : List Byte),
    let x := s.lse n
    let fits := bytesAt hd 12 52 = 0 ∧ 64 + 16 * bytesAt hd 8 4 ≤ fld (nth x.desc 0 10) 32 32
    (word64 hd 0 = 0 → s.lseHeader n hd = lseBe s n (fun y => { y with act := .rest })) ∧
    (word64 hd 0 ≠ 0 → (word64 hd 0 ≠ wd (x.req + 1) ∨ ¬ fits) → s.lseHeader n hd = s.lseEnd n Code.LSE_DELTA 3) ∧
    (word64 hd 0 ≠ 0 → word64 hd 0 = wd (x.req + 1) → fits →
      s.lseHeader n hd = lseBe s n (fun y => { y with act := .batch (bytesAt hd 8 4) }))) ∧
  (∀ (s : State) (n : Nat) (b : List Byte),
    let es := (chunks 16 b).map (fun e => (word64 e 0, word64 e 8))
    let t := lseBe s n (fun y => { y with act := .rest, phase := .test })
    ((∃ e ∈ es, batchOk (s.lse n).img e = false) → s.lseBatch n b = s.lseEnd n Code.LSE_DELTA 3) ∧
    ((∀ e ∈ es, batchOk (s.lse n).img e = true) → t.lseDue n = none → s.lseBatch n b = t.lseTest n es) ∧
    (∀ c, (∀ e ∈ es, batchOk (s.lse n).img e = true) → t.lseDue n = some c → s.lseBatch n b = sampleEnds t n c)) ∧
  (∀ (s : State) (n : Nat) (es : List (Word × Word)),
    let x := s.lse n
    let t := batchTried x es
    let better := x.lm = false ∨ t.2.2.1 < x.cost
    let u := s.lseSats n t.2.2.2
    let y := u.lse n
    let applied : Lse := { y with j := t.1, r := t.2.1, cost := t.2.2.1 }
    let accepted : Lse := { applied with
      cur := 1 - x.cur, prev := 1, fresh := true, accepted := x.accepted + 1, e := if x.lm then max (x.e - x.ldown) (-64) else x.e }
    let near := (x.cost - t.2.2.1).natAbs ≤ (nth x.desc 0 13).toNat
    let free := fun (z : Lse) (k : LseNext) => u.setLse n { z with
      act := .clear k, got := [], put := putPieces [(wd (addrLocal x.slotAddr), zeros 8)] }
    let ranged := t.2.2.2 ≠ [] ∧ x.rcont = false
    (ranged → s.lseTest n es = free y (.end_ Code.LSE_RANGE 3)) ∧
    (¬ ranged → x.req = 0 → s.lseTest n es = free { applied with known := true, fresh := true } .form) ∧
    (¬ ranged → x.req ≠ 0 → better → near → s.lseTest n es = free accepted (.end_ 0 1)) ∧
    (¬ ranged → x.req ≠ 0 → better → ¬ near → x.facts = x.maxit → s.lseTest n es = free accepted (.end_ 0 2)) ∧
    (¬ ranged → x.req ≠ 0 → better → ¬ near → x.facts ≠ x.maxit → s.lseTest n es = free accepted .form) ∧
    (¬ ranged → x.req ≠ 0 → ¬ better → s.lseTest n es = free { y with prev := 2 } .reject)) ∧
  (∀ (s : State) (n : Nat),
    let t := lseBe s n (fun y => { y with act := .rest })
    (∀ c r, s.lseTested n (.end_ c r) = t.lseEnd n c r) ∧ s.lseTested n .form = t.lseEnter n .form ∧ s.lseTested n .reject = t.lseReject n) ∧
  (∀ (s : State) (n : Nat),
    let x := s.lse n
    let t := s.setLse n { x with e := x.e + x.lup, fresh := false }
    (63 < x.e + x.lup → s.lseReject n = t.lseEnd n Code.LSE_LAMBDA_MAX 3) ∧
    (x.e + x.lup ≤ 63 → x.facts = x.maxit → s.lseReject n = t.lseEnd n 0 2) ∧
    (x.e + x.lup ≤ 63 → x.facts ≠ x.maxit → s.lseReject n = t.lseEnter n .form))

/-- How a solve ends (R401, R403, R411 to R415, R419, R420): a sample at or after `DEADLINE` ends it with the code of its phase, a stop with
`LSE_STOPPED`; nothing else does. It writes the result half, with `DONE` last; the engine is then idle, shows a non-zero outcome, keeps
its residency as R415 says, and its entry hears the outcome, 0 for a deadline under `SOFT`. `DROP` clears the residency of an idle
engine only. -/
def Sys2Proof.Claims.LseEnds : Prop :=
  (∀ (s : State) (n : Nat), n < s.part.lse → s.alive = true →
    let x := s.lse n
    let late := x.deadline ≠ 0 ∧ x.deadline ≤ s.now (s.part.dieOfLse n)
    let waits := x.phase ∈ [Phase.load, .wait, .form, .factor, .solve]
    let code := if x.phase ∈ [Phase.form, .factor, .solve] then Code.LSE_DEADLINE_FACT else Code.LSE_DEADLINE_ITER
    let stopped := s.setLse n { x with stop := true }
    (waits → x.closed = false → late →
      Sys2Proof.Machine.exec (.lseDeadline n) s = .next (s.leave ((sampleEnds s n code).lseRun n).settle)) ∧
    (waits → x.closed = false → ¬ late → x.stop = true →
      Sys2Proof.Machine.exec (.lseDeadline n) s = .next (s.leave ((sampleEnds s n Code.LSE_STOPPED).lseRun n).settle)) ∧
    (waits → x.closed = false → late →
      Sys2Proof.Machine.exec (.lseStop n) s = .next (s.leave ((sampleEnds stopped n code).lseRun n).settle)) ∧
    (waits → (x.closed = true ∨ (¬ late ∧ x.stop = false)) →
      Sys2Proof.Machine.exec (.lseDeadline n) s = .next (s.leave (s.lseRun n).settle)) ∧
    (s.settled = true → ¬ waits → Sys2Proof.Machine.exec (.lseDeadline n) s = .next (s.leave s)) ∧
    (waits → x.closed = false → ¬ late →
      Sys2Proof.Machine.exec (.lseStop n) s = .next (s.leave ((sampleEnds stopped n Code.LSE_STOPPED).lseRun n).settle)) ∧
    (waits → x.closed = true → Sys2Proof.Machine.exec (.lseStop n) s = .next (s.leave (stopped.lseRun n).settle)) ∧
    (s.settled = true → x.phase ∈ [Phase.publish, .test] → Sys2Proof.Machine.exec (.lseStop n) s = .next (s.leave stopped)) ∧
    (s.settled = true → x.phase = .idle → Sys2Proof.Machine.exec (.lseStop n) s = .next (s.leave s)) ∧
    (s.settled = true → x.phase = .idle →
      Sys2Proof.Machine.exec (.lseDrop n) s = .next (s.leave (s.setLse n { x with resident := false }))) ∧
    (s.settled = true → x.phase ≠ .idle → Sys2Proof.Machine.exec (.lseDrop n) s = .next (s.leave s))) ∧
  (∀ (s : State) (n : Nat) (p : Phase), p ≠ .idle → (s.lse n).closed = false →
    let x := s.lse n
    let t := s.setLse n { x with phase := p }
    let late := x.deadline ≠ 0 ∧ x.deadline ≤ s.now (s.part.dieOfLse n)
    (late → s.lseEnter n p =
      sampleEnds t n (if p ∈ [Phase.form, .factor, .solve] then Code.LSE_DEADLINE_FACT else Code.LSE_DEADLINE_ITER)) ∧
    (¬ late → x.stop = true → s.lseEnter n p = sampleEnds t n Code.LSE_STOPPED) ∧
    (¬ late → x.stop = false → s.lseEnter n p = t)) ∧
  (∀ (s : State) (n : Nat) (code : BitVec 16) (reason : Nat),
    let x := s.lse n
    s.lseEnd n code reason = s.setLse n { x with
      act := .result code (s.now (s.part.dieOfLse n)), got := []
      put := putPieces [(wd (addrLocal (nth x.desc 0 11 + 0x48)), x.resultBytes code reason x.costWord)] }) ∧
  (∀ (s : State) (n : Nat) (code : BitVec 16),
    let x := s.lse n
    let t := s.lseFinish n code
    let kept := code ∉ [Code.LSE_IMAGE, Code.LSE_WORK, Code.LSE_MEM_FAULT] ∧
      (code ∈ [Code.LSE_DEADLINE_ITER, Code.LSE_DEADLINE_FACT, Code.LSE_STOPPED] → x.phase ≠ .load)
    (∃ res : Bool, (t.lse n) = { x with phase := .idle, act := .rest, stop := false, entry := none, resident := res } ∧
      (res = true ↔ (x.resident = true ∧ kept))) ∧
    t.mem = s.mem ∧
    (code ≠ 0 → x.entry = none → t.rfld (lseReg n 0) 32 16 = code.toNat) ∧
    (∀ cr, x.entry = some cr → (t.dsp cr.unit).lists = (s.dsp cr.unit).lists.map (fun l =>
      if l.id = cr.list then l.targetDone cr.entry n
        (if x.soft = true ∧ (code = Code.LSE_DEADLINE_ITER ∨ code = Code.LSE_DEADLINE_FACT) then 0 else code) (s.now (4 + cr.unit))
      else l)))

/-! # Update units -/

namespace Sys2Proof.Claims

/-- Update unit k reads the layer that it is at; its descriptor d has come, which left state u. -/
structure LayerRuns (s : State) (k : Nat) (d : List Byte) (u : State) : Prop where
  reads : (s.uu k).act = .read
  read  : s.uuReads k [((s.uu k).table + wd (128 * (s.uu k).idx), 128)] [] = (u, .done d)

/-- Update unit k with its record changed. -/
def uuBe (s : State) (k : Nat) (f : Upd → Upd) : State := s.setUu k (f (s.uu k))

/-- What one rule does to one element of a dense or sparse layer with a step count (R439): the update d, the new m and v. -/
def elemRule (d : List Byte) (x : UElem) : BitVec 32 × BitVec 32 × BitVec 32 :=
  let b1 := ldF32 d 0x48
  let b2 := ldF32 d 0x4C
  let w := ldF32 d 0x54
  if ldRule d = 0 then
    let m := fma32 b1 x.m x.g
    (fma32 w x.p m, m, x.v)
  else
    let m := fma32 b1 x.m (mul32 (sub32 one32 b1) x.g)
    let v := fma32 b2 x.v (mul32 (sub32 one32 b2) (mul32 x.g x.g))
    let bc1 := sub32 one32 (uuPow b1 x.t)
    let bc2 := sub32 one32 (uuPow b2 x.t)
    (fma32 w x.p (div32 (div32 m bc1) (add32 (sqrt32 (div32 v bc2)) (ldF32 d 0x50))), m, v)

end Sys2Proof.Claims

/-- Layers (R427, R430 to R433, R442): the first check that fails gives the layer its code and nothing of it is written; a layer whose
checks pass runs its rule with its step count one higher, and writes step count and state, then the parameters, then its record; its end
takes the unit to the next layer or to the end of its work. -/
def Sys2Proof.Claims.UpdateLayers : Prop :=
  (∀ (s : State) (k : Nat), k < s.part.stacks → s.alive = true → (s.uu k).busy = true → (s.uu k).act = .rest →
    Sys2Proof.Machine.exec (.uuLayerDone k) s = .next (s.leave ((uuBe s k (fun u => { u with act := .read })).uuAct k).settle)) ∧
  (∀ (s : State) (k : Nat), k < s.part.stacks → s.alive = true → s.settled = true → ((s.uu k).busy = false ∨ (s.uu k).act ≠ .rest) →
    Sys2Proof.Machine.exec (.uuLayerDone k) s = .next (s.leave s)) ∧
  (∀ (s u : State) (k : Nat) (l : List (Word × Nat)) (d : List Byte) (f : State → List Byte → State),
    (s.uuReads k l [] = (u, .wait) → s.uuThen k d l f = u) ∧
    (∀ c, s.uuReads k l [] = (u, .refused c) → s.uuThen k d l f = u.uuFail k d Code.UU_MEM_FAULT) ∧
    (∀ b, s.uuReads k l [] = (u, .done b) → s.uuThen k d l f = f u b)) ∧
  (∀ (s t : State) (k fuel : Nat), (s.uuStep k = (t, true) → s.uuGo k (fuel + 1) = t.uuGo k fuel) ∧ (s.uuStep k = (t, false) → s.uuAct k = t)) ∧
  (∀ (s u : State) (k : Nat) (d : List Byte), LayerRuns s k d u →
    let fails := fun (t : State) (c : BitVec 16) => s.uuStep k = (t.uuFail k d c, true)
    (ldBad d = true → fails u Code.UU_DESC) ∧
    (ldBad d = false → ldRuleBad d = true → fails u Code.UU_RULE) ∧
    (ldBad d = false → ldRuleBad d = false → u.ldPlaced k d = false → fails u Code.UU_PLACEMENT) ∧
    (ldBad d = false → ldRuleBad d = false → u.ldPlaced k d = true →
      let short := (ldWord d 0x18).toNat < (ldLayout d).getLast?.getD 0
      (short → fails u Code.UU_STATE) ∧
      (∀ v h, ¬ short → u.uuReads k [(ldWord d 16, 64)] [] = (v, .done h) →
        (uuHeaderOk d h = false → fails v Code.UU_STATE) ∧
        (uuHeaderOk d h = true → ldSparse d = false →
          let t := min (bytesAt h 0 4 + 1) 0xFFFFFFFF
          (s.uuStep k).1 = v.uuRun k d t ((List.range (ldRows d)).map (fun i => (i, t)))) ∧
        (∀ w b, uuHeaderOk d h = true → ldSparse d = true → v.uuReads k [(ldWord d 0x28, 4 * ldNrows d)] [] = (w, .done b) →
          let rows := uuCodes 4 b
          let sound := rows.Pairwise (· < ·) ∧ ∀ i ∈ rows, i < ldRows d
          (¬ sound → fails w Code.UU_ROWLIST) ∧
          (sound → (s.uuStep k).1 = w.uuThen k d (rows.map (fun i => (ldWord d 16 + wd (64 + 4 * i), 4)))
            (fun s c => s.uuRun k d 0 (rows.zip ((uuCodes 4 c).map (fun n => min (n + 1) 0xFFFFFFFF))))))))) ∧
  (∀ (s u : State) (k : Nat) (d : List Byte) (t : Nat) (rows : List (Nat × Nat)) (b : List Byte),
    s.uuReads k (uuRanges d rows) [] = (u, .done b) →
    let q := uuRule d (u.uu k).eta rows b
    ∃ v st, s.uuRun k d t rows = v ∧ v.mem = u.mem ∧ v.uu k = { u.uu k with
      got := [], put := st
      act := .state (ldPw d) (putPieces ((uuRowWrites d (ldPw d) (ldWord d 0) rows q.1.p).map (fun x => (wd (addrLocal x.1), x.2))))
        (leBytes 8 (ldWord d 0x20).toNat ++ uuRecord 0 q.2.2 q.1) }) ∧
  (∀ (s u : State) (k n : Nat) (r : PutRes), s.put (s.uuReq k) (fun _ len => .uu k (if n = 0 then 0 else len / n)) (s.uu k).put 0 0 = (u, r) →
    let v := uuBe (if n = 0 then u else u.bump (uuReg k 0x18) 0 48 (r.sent / n)) k (fun y => { y with put := r.rest, heldW := y.heldW + r.held })
    let done := r.code = none ∧ r.rest = [] ∧ (v.uu k).heldW = 0
    let waits := r.code = none ∧ (r.rest ≠ [] ∨ (v.uu k).heldW ≠ 0)
    let w := uuBe v k (fun y => { y with put := [] })
    (∀ pw p rec, n = 0 → (s.uu k).act = .state pw p rec →
      (done → s.uuStep k = (uuBe v k (fun y => { y with act := .param pw rec, put := p }), true)) ∧ (waits → s.uuStep k = (v, false)) ∧
      (∀ c, r.code = some c → s.uuStep k = (w.uuEnd k Code.UU_MEM_FAULT (word64 rec 0) (uuRecord Code.UU_MEM_FAULT 0 URes.none), true))) ∧
    (∀ rec, n ≠ 0 → (s.uu k).act = .param n rec →
      (done → s.uuStep k = (v.uuEnd k 0 (word64 rec 0) (rec.drop 8), true)) ∧ (waits → s.uuStep k = (v, false)) ∧
      (∀ c, r.code = some c → s.uuStep k = (w.uuEnd k Code.UU_MEM_FAULT (word64 rec 0) (uuRecord Code.UU_MEM_FAULT 0 URes.none), true))) ∧
    (∀ code, n = 0 → (s.uu k).act = .record code →
      (done → s.uuStep k = (v.uuLayerEnd k code, true)) ∧ (waits → s.uuStep k = (v, false)) ∧
      (∀ c, r.code = some c → s.uuStep k = (w.uuLayerEnd k Code.UU_MEM_FAULT, true)))) ∧
  (∀ (s : State) (k : Nat) (code : BitVec 16),
    let u := s.uu k
    let y := s.uuLayerEnd k code
    (code ≠ Code.UU_MEM_FAULT → u.idx + 1 < u.count →
      y.uu k = { u with act := .rest, idx := u.idx + 1, status := if u.status = 0 then code else u.status }) ∧
    ((code = Code.UU_MEM_FAULT ∨ u.count ≤ u.idx + 1) → (y.uu k).busy = false ∧ (y.uu k).entry = none) ∧
    y.mem = s.mem ∧ (code ≠ 0 → u.entry = none → y.rfld (uuReg k 0) 32 16 = code.toNat) ∧
    (code = 0 → u.entry = none → y.rfld (uuReg k 0x10) 0 48 = (s.rfld (uuReg k 0x10) 0 48 + 1) % 2 ^ 48)) ∧
  (∀ (s : State) (k : Nat) (eta : BitVec 32), k < s.part.stacks → s.alive = true → s.settled = true →
    ∃ t, Sys2Proof.Machine.exec (.uuStepWrite k eta) s = .next (s.leave t) ∧ t = s.setReg (uuReg k 8) (wd (eta.toNat + 2 ^ 32)) ∧
      t.rfld (uuReg k 8) 0 32 = eta.toNat ∧ t.rfld (uuReg k 8) 32 1 = 1 ∧ t.upds = s.upds)

/-- The rules and stochastic rounding (R434 to R439): `MOMENTUM` and `ADAMW` give each element the moments and the update of R439, and its
parameter is sround(p − s × d) with the value of its own number; sround keeps NaN, infinities and every value of the format, and of a value
beyond the largest gives that one, counted; the generator's value is below 2²⁴. -/
def Sys2Proof.Claims.UpdateRules : Prop :=
  (∀ (d : List Byte) (st : BitVec 32) (l : List UElem) (i : Nat) (x : UElem), ldRule d < 2 → l[i]? = some x →
    let r := if ldRule d = 0 then uuMomentum d st l else uuAdamw d st l
    let q := sround (ldFmt d) ((f32v x.p).add ((f32v st).mul (f32v (elemRule d x).1)).neg) (uuRandom (ldWord d 0x40) x.t (ldLayer d) x.e)
    r.p[i]? = some q.1 ∧ r.m[i]? = some (elemRule d x).2.1 ∧ r.v[i]? = some (elemRule d x).2.2) ∧
  (∀ (d : List Byte) (st : BitVec 32) (l : List UElem), ldRule d < 2 →
    (if ldRule d = 0 then uuMomentum d st l else uuAdamw d st l).clips =
      l.countP (fun x => (uuStep d st x (elemRule d x).1).2)) ∧
  (∀ f ∈ [bf16, f32], ∀ (s : Bool) (gen : Nat), sround f .nan gen = (f.nanC, false) ∧ sround f (.inf s) gen = (f.infC s, false) ∧
    sround f (.fin s 1 300) gen = (f.withSign s f.maxC, true)) ∧
  (∀ f ∈ [bf16, f32], ∀ (c gen : Nat), c < 2 ^ f.width → (f.decode c).isNan = false → sround f (f.decode c) gen = (c, false)) ∧
  (∀ (seed : Word) (t layer e : Nat), uuRandom seed t layer e < 2 ^ 24) ∧
  (∀ f ∈ [bf16, f32], ∀ (s : Bool) (m g h : Nat) (e : Int), g ≤ h → (sround f (.fin false m e) h).1 ≤ (sround f (.fin false m e) g).1 ∧
    (sround f (.fin s m e) g).2 = (sround f (.fin s m e) h).2)

/-! # Memory controllers -/

namespace Sys2Proof.Claims

/-- How a request reaches its controller (R459). -/
def mcReq (r : MemReq) : Req := ⟨r.cls, r.act, r.tag, r.prio, 9⟩

/-- A request that may come from outside the controller lies in one unit of local HBM (R459, R475). -/
structure McSound (s : State) (r : MemReq) : Prop where
  sound : r.cls < 14 ∧ r.act < 7 ∧ 1 ≤ r.len ∧ r.addr.toNat % 64 + r.len ≤ 64 ∧ r.addr.toNat + r.len ≤ s.part.hbm
  outer : r.cls ≠ 11 ∧ (r.cls = 12 → r.tag = 0)
  data  : r.write = true → r.data.length = r.len

/-- A sound request whose stack is in service, with no line of the twin, row test or retag scrub in its way (R461). -/
structure McTakes (s : State) (r : MemReq) : Prop extends McSound s r where
  alive : s.alive = true
  quiet : s.settled = true
  free  : s.dirConflicts r.write r.addr.toNat r.len = []
  open_ : s.unitsShut (s.mapAddr r.addr.toNat).1 (s.mapAddr r.addr.toNat).2 r.addr.toNat r.len = false

/-- The number of the 64-byte unit of a request. -/
def unitOf (s : State) (r : MemReq) : Nat := unitNo (s.mapAddr r.addr.toNat).1 (s.mapAddr r.addr.toNat).2

/-- The bytes of a unit found bad when it is read. -/
def badBytes (s : State) (r : MemReq) : Nat := s.flips.get 0 (unitOf s r) + r.flips

/-- The state at a request whose unit is found with bad bytes (R466). -/
def found (s : State) (r : MemReq) : State := s.addFlips (unitOf s r) r.flips

/-- A whole-unit read that its priority bucket serves (R463 to R465). -/
def takesPrio (s : State) (r : MemReq) : Bool :=
  let k := (s.mapAddr r.addr.toNat).1
  !r.write && r.prio && r.len == 64 && r.addr.toNat % 64 == 0 && s.prioClass k r.cls && decide (0 < (s.mc k).prio)

/-- A request may start: the priority bucket serves it, or the tokens of its partition and its budgets allow it (R461, R465). -/
def startable (s : State) (r : MemReq) : Prop :=
  takesPrio s r = true ∨ s.mayStart (mcReq r) (s.mapAddr r.addr.toNat).1 1 = true

/-- The state charged for a request that starts. -/
def charged (s : State) (r : MemReq) : State :=
  let k := (s.mapAddr r.addr.toNat).1
  if takesPrio s r then ((found s r).setMc k { s.mc k with prio := (s.mc k).prio - 1 }).bump (regAt .mc k 0x20) 0 48 64
  else (found s r).chargeStart (mcReq r) k 1 r.len

/-- The unit of a request that has started is read out: one or two bad bytes are corrected, three or four poison it, and what more make of
it is open (R466, log 10); also whether its bytes can be used. -/
def readOut (s : State) (r : MemReq) : State × Bool :=
  let a := r.addr.toNat
  let k := (s.mapAddr a).1
  let off := (s.mapAddr a).2
  let n := unitOf s r
  let u := charged s r
  if badBytes s r = 0 then (u, true)
  else if badBytes s r ≤ 2 then (u.eccCorrect k off a, true)
  else if badBytes s r ≤ 4 then (u.eccPoison k off a, false)
  else
    let v : State := { u with free := s.free + 1 }
    match Config.eccBeyond s.free with
    | none => (v.eccPoison k off a, false)
    | some l => ({ v with mem := memWrL v.mem (64 * n) (cryptWith false (v.cryptAt n) (padTo 64 l)), flips := v.flips.drop n }, true)

/-- The answer with bytes to a request that started and left state u, with what the stack reports of its own corrections (R466). -/
def answered (s : State) (r : MemReq) (u : State) (c : BitVec 16) (d : List Byte) : State :=
  { u.bump (regAt .mc (s.mapAddr r.addr.toNat).1 0x38) 0 48 r.onDie with answer := ⟨c, d⟩ }

/-- The bytes that a read answers: those of its unit, deciphered (R467, R474). -/
def readBytes (s : State) (r : MemReq) : List Byte :=
  ((s.unitPlain (s.mapAddr r.addr.toNat).1 (s.mapAddr r.addr.toNat).2 r.addr.toNat).drop (r.addr.toNat % 64)).take r.len

end Sys2Proof.Claims

/-- The address map (R454, R455): every local HBM address stands at one place of one populated stack, reading the map backwards gives the
address back, and home-stack mode is what lies beyond the interleaved part. -/
def Obligations.AddressMap : Prop :=
  ∀ (s : State) (a : Nat), (∀ d < 4, s.homeGib d ≤ 24) → a < s.part.hbm →
    (s.mapAddr a).1 < s.part.stacks ∧ (s.mapAddr a).2 < stackSize ∧ s.unmapAddr (s.mapAddr a).1 (s.mapAddr a).2 = a ∧
      (s.mapAddr a).1 / s.part.stPerAd = a / (s.part.stPerAd * stackSize) ∧
      (s.inHome a = true ↔ (24 - s.homeGib (a / (s.part.stPerAd * stackSize))) * 2 ^ 30 ≤ (s.mapAddr a).2) ∧
      (s.inHome a = false → ∀ b, a / 4096 = b / 4096 → s.hbmKeyOf b = s.hbmKeyOf a / 4096 * 4096 + b % 4096)

/-- A request at its controller (R461 to R470, R474, R475, R483): one that none may send has no effect; lines of the twin are asked back, and
while they are out, or the stack is not in service, tested or retagged there, it waits; a wrong tag is refused and nothing is charged;
without tokens or budget it waits; a read that starts is charged and answers the bytes, a write stores its bytes; a write on a granule that
copy-on-write holds is held; one or two bad bytes are corrected, three or four poison the unit; a poisoned unit refuses reads and partial
writes, and a whole write clears it; a priority read is served from the priority bucket and charges neither; a unit reads as what is stored
while key and tag stand, and is enciphered under them when it is written. -/
def Obligations.MemoryRequests : Prop :=
  (∀ (s : State) (r : MemReq), Sys2Proof.Machine.exec (.priorityRead r) s =
    Sys2Proof.Machine.exec (.hbmAccess { r with prio := true, write := false }) s) ∧
  (∀ (s : State) (r : MemReq), s.alive = true → s.settled = true → ¬ McSound s r →
    Sys2Proof.Machine.exec (.hbmAccess r) s = .next (s.leave s)) ∧
  (∀ (s : State) (r : MemReq), s.alive = true → McSound s r →
    let a := r.addr.toNat
    let c := s.dirConflicts r.write a r.len
    (c ≠ [] → Sys2Proof.Machine.exec (.hbmAccess r) s = .next (s.leave (s.askRecall c).settle)) ∧
    (c = [] → s.settled = true → s.unitsShut (s.mapAddr a).1 (s.mapAddr a).2 a r.len = true →
      Sys2Proof.Machine.exec (.hbmAccess r) s = .next (s.leave s))) ∧
  (∀ (s : State) (r : MemReq), McTakes s r →
    let k := (s.mapAddr r.addr.toNat).1
    let off := (s.mapAddr r.addr.toNat).2
    let a := r.addr.toNat
    let u := charged s r
    let v := (readOut s r).1
    let bad := fun (u : State) (c : BitVec 16) => u.setRfld (regAt .mc k 0) 32 16 c.toNat
    let held := r.write = true ∧ s.cowHolds k off r.cls = true
    let reads := r.write = false ∨ r.len < 64
    let poisoned := s.poison.contains (unitOf s r) = true
    (∀ c, s.tagCheck r.cls r.tag a k = some c →
      Sys2Proof.Machine.exec (.hbmAccess r) s = .next (s.leave { bad (found s r) c with answer := ⟨c, []⟩ })) ∧
    (s.tagCheck r.cls r.tag a k = none →
      (held → Sys2Proof.Machine.exec (.hbmAccess r) s =
        .next (s.leave ((found s r).cowHold k ⟨mcReq r, wd off, r.data, none, .none⟩))) ∧
      (¬ held → ¬ startable s r → Sys2Proof.Machine.exec (.hbmAccess r) s = .next (s.leave s)) ∧
      (¬ held → startable s r → ¬ reads →
        Sys2Proof.Machine.exec (.hbmAccess r) s = .next (s.leave (answered s r (u.unitWrite k off a r.data) 0 []))) ∧
      (¬ held → startable s r → reads → poisoned →
        Sys2Proof.Machine.exec (.hbmAccess r) s = .next (s.leave { bad u Code.MC_POISON with answer := ⟨Code.MC_POISON, []⟩ })) ∧
      (¬ held → startable s r → reads → ¬ poisoned → (readOut s r).2 = false → Sys2Proof.Machine.exec (.hbmAccess r) s =
        .next (s.leave (answered s r (bad v Code.MC_UNCORRECTABLE) Code.MC_UNCORRECTABLE []).settle)) ∧
      (r.write = false → startable s r → ¬ poisoned → (readOut s r).2 = true → Sys2Proof.Machine.exec (.hbmAccess r) s =
        .next (s.leave (answered s r v 0 (readBytes v r)).settle)) ∧
      (r.write = true → ¬ held → r.len < 64 → startable s r → ¬ poisoned → (readOut s r).2 = true →
        Sys2Proof.Machine.exec (.hbmAccess r) s = .next (s.leave (answered s r (v.unitWrite k off a r.data) 0 []).settle)))) ∧
  (∀ (s : State) (k off a : Nat) (data : List Byte), memWf s.mem = true → data.length ≤ 64 →
    (data.length = 64 ∨ s.cryptAt (unitNo k off) = s.cryptNow k a →
      ∀ i, memRd (s.unitWrite k off a data).mem i =
        if hbmKey k off ≤ i ∧ i < hbmKey k off + data.length then data.getD (i - hbmKey k off) 0 else memRd s.mem i) ∧
    (s.unitWrite k off a data).cryptAt (unitNo k off) = s.cryptNow k a ∧
    (data.length = 64 → unitNo k off ∉ (s.unitWrite k off a data).poison)) ∧
  (∀ (s : State) (k off a : Nat), s.cryptAt (unitNo k off) = s.cryptNow k a → s.unitPlain k off a = memRdN s.mem (64 * unitNo k off) 64) ∧
  (∀ (s : State) (k off a : Nat) (old : Option Crypt) (c : Crypt), s.cryptAt (unitNo k off) = old → s.cryptNow k a = some c → old ≠ some c →
    s.unitPlain k off a = xts false c.key1 c.key2 c.seq (match old with
      | none => memRdN s.mem (64 * unitNo k off) 64
      | some o => xts true o.key1 o.key2 o.seq (memRdN s.mem (64 * unitNo k off) 64))) ∧
  (∀ (s : State) (k off a : Nat),
    (s.eccCorrect k off a).rfld (regAt .mc k 0x38) 0 48 = (s.rfld (regAt .mc k 0x38) 0 48 + 1) % 2 ^ 48 ∧
    (s.eccCorrect k off a).mem = s.mem ∧ (s.eccCorrect k off a).flips.get 0 (unitNo k off) = 0 ∧
    (∃ r, (s.eccCorrect k off a).err.fresh = s.err.fresh ++ [r] ∧ r.code = Code.MC_CE) ∧
    unitNo k off ∈ (s.eccPoison k off a).poison ∧
    (s.eccPoison k off a).rfld (regAt .mc k 0x40) 0 48 = (s.rfld (regAt .mc k 0x40) 0 48 + 1) % 2 ^ 48 ∧
    (∃ r, (s.eccPoison k off a).err.fresh = s.err.fresh ++ [r] ∧ r.code = Code.MC_UNCORRECTABLE))

/-- The controller's own work (R456, R457, R460, R462, R465, R471, R476, R477, R478, R484): refills, the patrol scrub, temperature levels with
their hysteresis, refresh, the retag scrub, the registers with a behaviour, and a granule that has been staged. -/
def Obligations.MemoryService : Prop :=
  (∀ (s : State) (k : Nat), k < s.part.stacks → s.alive = true → s.settled = true →
    (∃ t, Sys2Proof.Machine.exec (.partitionRefill k) s = .next (s.leave t) ∧ t.mem = s.mem ∧ t.mcs = s.mcs ∧
      ∀ p < 16, t.reg (partReg k p) =
        let w := s.reg (partReg k p)
        if bit w 63 = true then setFld w 0 16 (min (fld w 0 16 + fld w 16 12) (fld w 32 16)) else w) ∧
    Sys2Proof.Machine.exec (.priorityBucketRefill k) s =
      .next (s.leave (s.setMc k { s.mc k with prio := min ((s.mc k).prio + 2) 64 })) ∧
    Sys2Proof.Machine.exec (.refresh k) s = .next (s.leave (s.setMc k { s.mc k with refreshes := (s.mc k).refreshes + 1 })) ∧
    (∀ v : Word, fld v 0 2 ≠ 3 → Sys2Proof.Machine.exec (.mcRefreshWrite k v) s = .next (s.leave (s.setReg (regAt .mc k 0x28) (wd (fld v 0 2))))) ∧
    (∀ v : Word, fld v 0 2 = 3 → Sys2Proof.Machine.exec (.mcRefreshWrite k v) s =
      .next (s.leave (s.setRfld (regAt .mc k 0) 32 16 Code.MC_REG_VALUE.toNat))) ∧
    (∀ v : Word, 24 < fld v 0 5 → Sys2Proof.Machine.exec (.mcMapWrite k v) s =
      .next (s.leave (s.setRfld (regAt .mc k 0) 32 16 Code.MC_REG_VALUE.toNat))) ∧
    (∀ v : Word, fld v 0 5 ≤ 24 → s.launched = true → Sys2Proof.Machine.exec (.mcMapWrite k v) s = .next (s.leave s)) ∧
    (∀ v : Word, fld v 0 5 ≤ 24 → s.launched = false → ∃ t, Sys2Proof.Machine.exec (.mcMapWrite k v) s = .next (s.leave t) ∧ t.mem = s.mem ∧
      ∀ d < 4, t.homeGib d = if d = s.part.dieOfStack k then fld v 0 5 else s.homeGib d) ∧
    (∀ (p : Nat) (v : Word), p < 16 → ∃ t, Sys2Proof.Machine.exec (.mcPartWrite k p v) s = .next (s.leave t) ∧
      t = s.setReg (partReg k p) (t.reg (partReg k p)) ∧ fld (t.reg (partReg k p)) 0 16 = fld v 32 16 ∧
      fld (t.reg (partReg k p)) 16 12 = fld v 16 12 ∧ fld (t.reg (partReg k p)) 32 16 = fld v 32 16 ∧
      bit (t.reg (partReg k p)) 63 = bit v 63)) ∧
  (∀ (s : State) (k : Nat) (flips : UnitErrs), k < s.part.stacks → s.alive = true → s.settled = true → s.rfld (regAt .mc k 0x30) 0 32 ≠ 0 →
    bit (s.reg (regAt .mc k 0)) 0 = true →
    let off := (s.mc k).scrubAt
    let a := s.unmapAddr k off
    let bad := s.flips.get 0 (unitNo k off) + flips.bad
    let u := (s.chargeStart scrubReq k 1 64).addFlips (unitNo k off) flips.bad
    let runs := s.poison.contains (unitNo k off) = false ∧ (∀ r ∈ s.retags, r.gran ≠ granule a) ∧ s.mayStart scrubReq k 1 = true
    (s.poison.contains (unitNo k off) = true → Sys2Proof.Machine.exec (.patrolScrub k flips) s = .next (s.leave (s.scrubNext k))) ∧
    (runs → bad = 0 → Sys2Proof.Machine.exec (.patrolScrub k flips) s = .next (s.leave ((u.onDie k flips.onDie).scrubNext k))) ∧
    (runs → bad ∈ [1, 2] → Sys2Proof.Machine.exec (.patrolScrub k flips) s =
      .next (s.leave (((u.eccCorrect k off a).onDie k flips.onDie).scrubNext k).settle)) ∧
    (runs → bad ∈ [3, 4] → Sys2Proof.Machine.exec (.patrolScrub k flips) s =
      .next (s.leave (((u.eccPoison k off a).onDie k flips.onDie).scrubNext k).settle)) ∧
    (runs → 4 < bad → Sys2Proof.Machine.exec (.patrolScrub k flips) s =
      .next (s.leave (((u.eccRead k off a).1.onDie k flips.onDie).scrubNext k).settle)) ∧
    (s.poison.contains (unitNo k off) = false → (∃ r ∈ s.retags, r.gran = granule a) →
      Sys2Proof.Machine.exec (.patrolScrub k flips) s = .next (s.leave (s.scrubNext k))) ∧
    (s.poison.contains (unitNo k off) = false → (∀ r ∈ s.retags, r.gran ≠ granule a) → s.mayStart scrubReq k 1 = false →
      Sys2Proof.Machine.exec (.patrolScrub k flips) s = .next (s.leave s))) ∧
  (∀ (s : State) (k : Nat) (flips : UnitErrs), k < s.part.stacks → s.alive = true → s.settled = true →
    (s.rfld (regAt .mc k 0x30) 0 32 = 0 ∨ bit (s.reg (regAt .mc k 0)) 0 = false) →
    Sys2Proof.Machine.exec (.patrolScrub k flips) s = .next (s.leave s)) ∧
  (∀ (s : State) (k temp : Nat), k < s.part.stacks → s.alive = true → temp ≤ 105 → s.settled = true →
    let o := regAt .mc k 0
    let old := s.rfld o 8 2
    let t := (s.setRfld o 16 8 temp).setRfld o 8 2 (heatLevel old temp)
    (heatLevel old temp ≤ old → Sys2Proof.Machine.exec (.tempSample k temp) s = .next (s.leave t)) ∧
    let hot := (t.setRfld o 32 16 Code.MC_HOT_REFRESH.toNat).raise (t.heatRec k Code.MC_HOT_REFRESH)
    let slow := fun (u : State) => (u.setRfld o 32 16 Code.MC_HOT_THROTTLE.toNat).raiseWarn 6 k (u.heatRec k Code.MC_HOT_THROTTLE)
    (old = 0 → heatLevel old temp = 1 → Sys2Proof.Machine.exec (.tempSample k temp) s = .next (s.leave hot.settle)) ∧
    (old = 0 → heatLevel old temp = 2 → Sys2Proof.Machine.exec (.tempSample k temp) s = .next (s.leave (slow hot).settle)) ∧
    (old = 1 → heatLevel old temp = 2 → Sys2Proof.Machine.exec (.tempSample k temp) s = .next (s.leave (slow t).settle))) ∧
  (∀ (s : State) (k temp : Nat), k < s.part.stacks → s.alive = true → 105 < temp → ∃ t : State,
    Sys2Proof.Machine.exec (.tempSample k temp) s = .next (s.leave t.settle) ∧ t.power.shutdown = true ∧ t.power.thermtrip = true ∧
      ∃ r ∈ t.err.fresh, r.code = Code.MC_HOT_SHUTDOWN) ∧
  (∀ old temp : Nat, old < 3 →
    (temp ≤ 82 → heatLevel old temp = 0) ∧ (85 < temp → temp ≤ 92 → heatLevel old temp = 1) ∧ (95 < temp → heatLevel old temp = 2) ∧
    (92 < temp → temp ≤ 95 → heatLevel old temp = max old 1) ∧ (82 < temp → temp ≤ 85 → heatLevel old temp = min old 1)) ∧
  (∀ (s : State) (g : Nat) (tag : BitVec 12), s.alive = true → s.settled = true → (g + 1) * 2 ^ 21 ≤ s.part.hbm → (∀ d < 4, s.homeGib d ≤ 24) →
    memWf s.mem = true → s.retags = [] →
    (∀ k < s.part.stacks, bit (s.reg (regAt .mc k 0)) 0 = true ∧ bit (s.reg (partReg k (s.partOf k 11))) 63 = false ∧
      s.budgetLevel k 3 = none) →
    ∃ t, Sys2Proof.Machine.exec (.tenantRetag g tag) s = .next (s.leave t) ∧ t.tags = s.tags.set g tag ∧
      ∀ a < s.part.hbm, memRd t.mem (s.hbmKeyOf a) = if a / 2 ^ 21 = g then 0 else memRd s.mem (s.hbmKeyOf a)) ∧
  (∀ (s : State) (g : Nat) (tag : BitVec 12), s.alive = true → Sys2Proof.Machine.exec (.tenantRetag g tag) s = .next (s.leave
    (if (g + 1) * 2 ^ 21 ≤ s.part.hbm then (s.retag g tag).runRetags else s).settle)) ∧
  (∀ (s : State) (k g : Nat) (r : SnapRun), k < s.part.stacks → s.alive = true → s.job.snap = some r → r.take = true → r.cutDone = true →
    r.phase = .copy → s.copyTurn k g = true →
    Sys2Proof.Machine.exec (.cowGranuleStaged k g) s = .next (s.leave (s.copyGranule r k g).settle)) ∧
  (∀ (s : State) (k g : Nat), k < s.part.stacks → s.alive = true → s.settled = true →
    (∀ r, s.job.snap = some r → r.take = true → r.cutDone = true → r.phase = .copy → s.copyTurn k g = false) →
    Sys2Proof.Machine.exec (.cowGranuleStaged k g) s = .next (s.leave s))

/-! # The fabric -/

namespace Sys2Proof.Claims

/-- Port p of a package that can act. -/
structure PortHere (s : State) (p : Nat) : Prop where
  present : p < 36
  alive   : s.alive = true
  quiet   : s.settled = true

/-- The first frame at FD f whose opcode satisfies `p` is x; it has passed the CRC and, where it is sealed, its seal (R516), with data d,
which leaves state u. -/
structure FrameHere (s : State) (f : Nat) (p : Byte → Bool) (x : InFrame) (d : List Byte) (u : State) : Prop where
  present : f < 2
  alive   : s.alive = true
  taken   : ∃ v, s.takeFrameP f p = some (x, v) ∧ v.openFrame f x.frame = (u, some d)
  is      : p x.frame.hdr.op = true

/-- The request of this package with a number. -/
def reqOf (s : State) (seq : Nat) (r : OutReq) : Prop := s.reqs.find? (fun x => x.seq == seq) = some r

/-- The commands that take a frame of the fabric, with the opcodes that they take (R509, R510, R536). -/
def FabricRow (e : (Nat → Instr) × (Byte → Bool)) : Prop :=
  e ∈ [(.jonathRead, fun o => o == opREAD || !knownOp o), (.get, fun o => o == opGET), (.jonathWrite, fun o => o == opWRITE),
    (.jonathAadd, fun o => o == 0x10), (.jonathAfadd, fun o => o == 0x11), (.jonathAmax, fun o => o == 0x12), (.jonathAmin, fun o => o == 0x13),
   (.jonathAswap, fun o => o == 0x14), (.jonathAcas, fun o => o == 0x15), (.jonathResp, fun o => o == opRESP), (.nak, fun o => o == opNAK),
   (.getdata, fun o => o == opGETDATA), (.crd, fun o => o == opCRD), (.crdx, fun o => o == opCRDX), (.cupg, fun o => o == opCUPG),
   (.cwb, fun o => o == opCWB), (.cevict, fun o => o == opCEVICT), (.cinv, fun o => o == opCINV), (.cfwd, fun o => o == opCFWD),
   (.cdata, fun o => o == opCDATA)]

end Sys2Proof.Claims

/-- Links (R498 to R505): a port that may train and whose lanes have trained learns its peer, makes an ephemeral key and says so; what the
peer says ends KEYING in UP with fresh keys and counters, or in FAILED with a record; a port that leaves UP drops its buffers with a
`FAB_LINK_DOWN` record; `EN` = 0 holds it down, and leaves a FAILED port FAILED; after 2³⁶ frames a new exchange starts; a sync word says the
next counter; a frame that its key does not open or whose counter is not above the last accepted one is dropped and counted, a link control
frame stays on the link, any other goes to the router; an uncorrectable codeword makes the receiver discard up to the next good sync
word. -/
def Sys2Proof.Claims.Links : Prop :=
  (∀ (s : State) (p : Nat), PortHere s p →
    (∀ peer : BitVec 14, s.mayTrain p = true → s.portState p ≤ 1 → ∃ (t : State) (k : Nat),
      Sys2Proof.Machine.exec (.linkTrained p peer) s = .next (s.leave t) ∧ t.portState p = 2 ∧ t.rfld (flReg p 0) 50 14 = peer.toNat ∧
      t.port p = { s.port p with eph := some k } ∧ t.wire = s.wire ++ [(p, .hello (linkHello k))] ∧ t.routers = s.routers) ∧
    (∀ (x : LinkHello) (k : Nat), s.portState p = 2 → (s.port p).eph = some k →
      (helloOk x = true → ∃ t : State, Sys2Proof.Machine.exec (.linkKeyed p x) s = .next (s.leave t) ∧ t.portState p = 3 ∧
        t.port p = { Port.reset with retired := (s.port p).retired, txKey := (linkKeys k x.point).1, rxKey := (linkKeys k x.point).2 } ∧
        t.rfld (flReg p 0) 8 1 = 0) ∧
      (helloOk x = false → ∃ (t : State) (r : Rec), Sys2Proof.Machine.exec (.linkKeyed p x) s = .next (s.leave t.settle) ∧
        t.portState p = 4 ∧ (t.port p).eph = none ∧ t.err.fresh = [r] ∧ r.code = Code.FAB_LINK_AUTH ∧ r.unit = uPort ∧ r.index = p)) ∧
    (∀ peer : BitVec 14, (s.mayTrain p = false ∨ 1 < s.portState p) →
      Sys2Proof.Machine.exec (.linkTrained p peer) s = .next (s.leave s)) ∧
    (∀ x : LinkHello, (s.portState p ≠ 2 ∨ (s.port p).eph = none) → Sys2Proof.Machine.exec (.linkKeyed p x) s = .next (s.leave s)) ∧
    (s.portState p = 3 → Sys2Proof.Machine.exec (.laneFail p) s = .next (s.leave (s.leaveUp p).settle)) ∧
    (s.portState p ∈ [1, 2] → Sys2Proof.Machine.exec (.laneFail p) s = .next (s.leave (s.setRfld (flReg p 0) 0 3 0))) ∧
    (s.portState p ∉ [1, 2, 3] → Sys2Proof.Machine.exec (.laneFail p) s = .next (s.leave s)) ∧
    (∀ v : Word, fld v 3 1 = 0 → s.portState p = 3 →
      Sys2Proof.Machine.exec (.flStateEnWrite p v) s = .next (s.leave ((s.setRfld (flReg p 0) 3 1 0).leaveUp p).settle)) ∧
    (∀ v : Word, fld v 3 1 = 1 → s.rfld (flReg p 0) 3 1 = 1 →
      Sys2Proof.Machine.exec (.flStateEnWrite p v) s = .next (s.leave (s.setRfld (flReg p 0) 3 1 1))) ∧
    (∀ v : Word, fld v 3 1 = 1 → s.rfld (flReg p 0) 3 1 = 0 → (s.setRfld (flReg p 0) 3 1 1).mayTrain p = false →
      ∃ t : State, Sys2Proof.Machine.exec (.flStateEnWrite p v) s = .next (s.leave t) ∧ t.portState p = 0 ∧ t.rfld (flReg p 0) 3 1 = 1) ∧
    (s.portState p ≠ 3 → ∀ (ctr : BitVec 56) (n : Nat) (x : LinkFrame),
      Sys2Proof.Machine.exec (.syncWord p ctr) s = .next (s.leave s) ∧ Sys2Proof.Machine.exec (.uncorrectableCodeword p n) s = .next (s.leave s) ∧
      Sys2Proof.Machine.exec (.frameReceive p x) s = .next (s.leave s)) ∧
    (∀ v : Word, fld v 3 1 = 0 → s.portState p ≠ 3 → ∃ t : State, Sys2Proof.Machine.exec (.flStateEnWrite p v) s = .next (s.leave t) ∧
      t.portState p = (if s.portState p = 4 then 4 else 0) ∧ t.rfld (flReg p 0) 3 1 = 0) ∧
    (∀ v : Word, fld v 3 1 = 1 → s.rfld (flReg p 0) 3 1 = 0 → (s.setRfld (flReg p 0) 3 1 1).mayTrain p = true →
      ∃ t : State, Sys2Proof.Machine.exec (.flStateEnWrite p v) s = .next (s.leave t) ∧ t.portState p = 1 ∧ t.rfld (flReg p 0) 3 1 = 1) ∧
    (s.portState p = 3 → 2 ^ 36 ≤ (s.port p).txFrames → (s.port p).eph = none →
      let d := s.drawKey
      Sys2Proof.Machine.exec (.rekey p) s = .next (s.leave ((d.2.setPort p { s.port p with eph := some d.1 }).linkControl p d.1))) ∧
    ((s.portState p ≠ 3 ∨ (s.port p).txFrames < 2 ^ 36 ∨ (s.port p).eph ≠ none) → Sys2Proof.Machine.exec (.rekey p) s = .next (s.leave s)) ∧
    (∀ ctr : BitVec 56, s.portState p = 3 → Sys2Proof.Machine.exec (.syncWord p ctr) s =
      .next (s.leave (s.setPort p { s.port p with expect := some ctr.toNat }))) ∧
    (∀ n : Nat, s.portState p = 3 → ∃ t : State, Sys2Proof.Machine.exec (.uncorrectableCodeword p n) s = .next (s.leave t.settle) ∧
      t.port p = { s.port p with lost := true, expect := none } ∧
      t.rfld (flReg p 0x08) 32 32 = (s.rfld (flReg p 0x08) 32 32 + 1) % 2 ^ 32 ∧
      t.rfld (flReg p 0x10) 0 32 = (s.rfld (flReg p 0x10) 0 32 + n) % 2 ^ 32 ∧
      ∃ x : Test, x ∈ t.err.tests ∧ x.unit = uPort ∧ x.index = p)) ∧
  (∀ (s : State) (p : Nat) (x : LinkHello),
    (helloOk x = false → s.linkExchange p x = s.keyingFails p) ∧
    (∀ k, helloOk x = true → (s.port p).eph = some k → ∃ t, s.linkExchange p x = t ∧
      t.port p = { s.port p with eph := none, txKey := (linkKeys k x.point).1, txFrames := 0, rxOther := some (linkKeys k x.point).2 } ∧
      t.rfld (flReg p 0) 8 1 = 1 - s.rfld (flReg p 0) 8 1 ∧ t.wire = s.wire) ∧
    (helloOk x = true → (s.port p).eph = none →
      let d := s.drawKey
      s.linkExchange p x = (d.2.setPort p { s.port p with rxOther := some (linkKeys d.1 x.point).2 }).linkControl p d.1)) ∧
  (∀ (s : State) (p : Nat) (x : LinkFrame), PortHere s p → s.portState p = 3 →
    let q := s.port p
    let ctr := fld x.head 0 56
    let u := (s.bump (flReg p 0x20) 0 48 (24 + x.ct.length)).bump (flReg p 0x08) 0 32 x.corr
    let dropped := fun (lo : Nat) => (u.setPort p { q with expect := none }).bump (flReg p 0x10) lo 32 1
    let taken : Port := { q with rxCtr := ctr, lost := false, expect := none }
    (q.openFrame x = none → Sys2Proof.Machine.exec (.frameReceive p x) s = .next (s.leave (dropped (if q.lost then 0 else 32)))) ∧
    (∀ l, q.openFrame x = some l →
      (q.lost = true → q.expect ≠ some ctr → Sys2Proof.Machine.exec (.frameReceive p x) s = .next (s.leave (dropped 0))) ∧
      ((q.lost = true → q.expect = some ctr) → ctr ≤ q.rxCtr → Sys2Proof.Machine.exec (.frameReceive p x) s = .next (s.leave (dropped 32))) ∧
      ((q.lost = true → q.expect = some ctr) → q.rxCtr < ctr → ∃ q' : Port,
        (bit x.head 63 = q.rxIdx → q' = taken) ∧
        (∀ k, bit x.head 63 ≠ q.rxIdx → q.rxOther = some k → q' = { taken with rxIdx := !q.rxIdx, rxKey := k, rxOther := none }) ∧
        ((frameOf l).hdr.op ≠ 0x7F → Sys2Proof.Machine.exec (.frameReceive p x) s =
          .next (s.leave ((u.setPort p q').routeFrame (p / 18) (frameOf l) p).settle)) ∧
        (∀ m, (frameOf l).hdr.op = 0x7F → Config.linkMsgOf (frameOf l).payload = some m → Sys2Proof.Machine.exec (.frameReceive p x) s =
          .next (s.leave ((u.setPort p q').linkExchange p ⟨m.1, m.2.1, m.2.2⟩).settle)) ∧
        ((frameOf l).hdr.op = 0x7F → Config.linkMsgOf (frameOf l).payload = none →
          Sys2Proof.Machine.exec (.frameReceive p x) s = .next (s.leave (u.setPort p q')))))) ∧
  (∀ (s : State) (p : Nat), p < 36 → ∃ r : Rec, (s.leaveUp p).portState p = 0 ∧ r ∈ (s.leaveUp p).err.fresh ∧ r.code = Code.FAB_LINK_DOWN ∧
    r.index = p)

/-- Routers (R512, R517 to R522): a frame of TC6 or of its ninth hop elsewhere is dropped, one whose epoch no valid bank carries is dropped
with a record, one for this package is delivered, any other waits for the port that its route entry gives, and a request without one is
answered; the pinned port where it is UP, else of the UP ports of the entry the one of least cost, the lowest
number on a tie; frames held over 2.5 µs are dropped and counted; the current bank takes no write; a bank whose epoch is written as
`CUR` + 1 becomes valid; `CUR` must name a valid bank; the old bank becomes invalid once asked for and drained. -/
def Sys2Proof.Claims.Routers : Prop :=
  (∀ (s : State) (f port : Nat) (x : JFrame),
    let h := x.hdr
    let y : JFrame := { x with hdr := { h with hops := h.hops + 1 } }
    let aged := h.tc = 6 ∨ (h.hops = 8 ∧ h.dpkg.toNat ≠ s.pkg)
    (aged → s.routeFrame f x port = s.bump (frReg f 0x20) 16 16 1) ∧
    (¬ aged → s.bankOf f h.epoch.toNat = none → ∃ t : State, s.routeFrame f x port = t ∧ t.routers = s.routers ∧
      (∃ r : Rec, t.err.fresh = s.err.fresh ++ [r] ∧ r.code = Code.FAB_EPOCH ∧ r.unit = uRouter ∧ r.index = f)) ∧
    (∀ b, ¬ aged → s.bankOf f h.epoch.toNat = some b → h.dpkg.toNat = s.pkg → s.routeFrame f x port = s.toInbox (homeFd f h) y port) ∧
    (∀ b, ¬ aged → s.bankOf f h.epoch.toNat = some b → h.dpkg.toNat ≠ s.pkg →
      let e := s.rtEntry f b h.dpkg.toNat
      (∀ p, bit e 63 = true → s.choosePort f h.tc.toNat e = some p →
        s.routeFrame f x port = s.setFr f { s.fr f with buf := (s.fr f).buf ++ [⟨y, p, s.now (fdDie f)⟩] }) ∧
      ((bit e 63 = false ∨ s.choosePort f h.tc.toNat e = none) →
        s.routeFrame f x port = if isReq h.op = true then s.noRoute f h else s))) ∧
  (∀ (s : State) (f tc : Nat) (e : Word), fld e 56 6 < 36 → s.portUp (fld e 56 6) = true → tcPort tc (fld e 56 6) = true →
    s.choosePort f tc e = some (fld e 56 6)) ∧
  (∀ (s : State) (f tc : Nat) (e : Word), fld e 56 6 = 0x3F →
    (∀ p, s.choosePort f tc e = some p → p < 36 ∧ bit e p = true ∧ s.portUp p = true ∧ tcPort tc p = true ∧
      ∀ q < 36, bit e q = true → s.portUp q = true → tcPort tc q = true →
        s.portCost f tc p < s.portCost f tc q ∨ (s.portCost f tc p = s.portCost f tc q ∧ p ≤ q)) ∧
    (s.choosePort f tc e = none ↔ ∀ q < 36, ¬ (bit e q = true ∧ s.portUp q = true ∧ tcPort tc q = true))) ∧
  (∀ (s : State) (f i : Nat) (b : BufFrame), f < 2 → s.alive = true → s.settled = true → (s.fr f).buf[i]? = some b →
    (b.since.toNat + 10000 < (s.now (fdDie f)).toNat → ∃ t : State, Sys2Proof.Machine.exec (.frameAgeDrop f i) s = .next (s.leave t) ∧
      t = (s.setFr f { s.fr f with buf := (s.fr f).buf.eraseIdx i }).bump (frReg f 0x20) 32 16 1) ∧
    ((s.now (fdDie f)).toNat ≤ b.since.toNat + 10000 → Sys2Proof.Machine.exec (.frameAgeDrop f i) s = .next (s.leave s))) ∧
  (∀ (s : State) (f i : Nat), f < 2 → s.alive = true → s.settled = true → (s.fr f).buf[i]? = none →
    Sys2Proof.Machine.exec (.frameAgeDrop f i) s = .next (s.leave s)) ∧
  (∀ (s : State) (f : Nat), f < 2 → s.alive = true → s.settled = true →
    let refused := s.setRfld (frReg f 0) 32 16 Code.FAB_REG_VALUE.toNat
    (∀ e : BitVec 2, (s.bankOf f e.toNat).isSome = true →
      Sys2Proof.Machine.exec (.frEpochCurWrite f e) s = .next (s.leave (s.setRfld (frReg f 0x08) 0 2 e.toNat))) ∧
    (∀ e : BitVec 2, s.bankOf f e.toNat = none → Sys2Proof.Machine.exec (.frEpochCurWrite f e) s = .next (s.leave refused)) ∧
    (∀ (b : Bool) (e : BitVec 2), s.curBank f ≠ some b.toNat → e.toNat = (s.curEpoch f + 1) % 4 →
      ∃ t : State, Sys2Proof.Machine.exec (.frEpochBankWrite f b e) s = .next (s.leave t) ∧ t.bankValid f b.toNat = true ∧
        t.bankEpoch f b.toNat = e.toNat ∧ t.curEpoch f = s.curEpoch f) ∧
    (∀ (b : Bool) (e : BitVec 2), (s.curBank f = some b.toNat ∨ e.toNat ≠ (s.curEpoch f + 1) % 4) →
      Sys2Proof.Machine.exec (.frEpochBankWrite f b e) s = .next (s.leave refused)) ∧
    (0 < s.drain f → Sys2Proof.Machine.exec (.frEpochRetire f) s = .next (s.leave (s.setFr f { s.fr f with retire := true }))) ∧
    (s.drain f = 0 → ∃ t : State, Sys2Proof.Machine.exec (.frEpochRetire f) s = .next (s.leave t) ∧ t.bankValid f (s.oldBank f) = false ∧
      (t.fr f).retire = false) ∧
    ((s.fr f).retire = true → s.drain f = 0 → ∃ t : State, Sys2Proof.Machine.exec (.epochBankInvalidate f) s = .next (s.leave t) ∧
      t.bankValid f (s.oldBank f) = false ∧ (t.fr f).retire = false ∧ t.curEpoch f = s.curEpoch f) ∧
    (((s.fr f).retire = false ∨ 0 < s.drain f) → Sys2Proof.Machine.exec (.epochBankInvalidate f) s = .next (s.leave s)) ∧
    (∀ v : Word, s.curBank f = some (s.rfld (frReg f 0x10) 14 1) → Sys2Proof.Machine.exec (.frRtDataWrite f v) s = .next (s.leave refused)) ∧
    (∀ v : Word, s.curBank f ≠ some (s.rfld (frReg f 0x10) 14 1) → ∃ t : State, Sys2Proof.Machine.exec (.frRtDataWrite f v) s = .next (s.leave t) ∧
      let e := t.rtEntry f (s.rfld (frReg f 0x10) 14 1) (s.rfld (frReg f 0x10) 0 14)
      fld e 0 36 = fld v 0 36 ∧ fld e 36 20 = 0 ∧ fld e 56 8 = fld v 56 8 ∧ t = s.setFr f { s.fr f with rt := (t.fr f).rt }))

/-- Sources (R511, R513 to R515, R543): nothing happens to a request that is not outstanding, waits to start, or was answered busy, until its
time; a request without an answer for 20 µs is sent again with `ATTEMPT` one higher, at most four times,
then fails, `FAB_ATOMIC_UNKNOWN` if it is tracked, else `FAB_TIMEOUT`; a `NAK` restarts its timer or asks for it again 2 µs later; a
response ends it and reaches its owner, and one that no request waits for is dropped; a tracked request stops counting when its time is reached; no two outstanding requests share
a `SEQ`. -/
def Sys2Proof.Claims.Sources : Prop :=
  (∀ (s : State) (seq : Nat), s.alive = true → s.settled = true →
    ((∀ r, reqOf s seq r → r.held = true ∨ r.busyAt ≠ none) → Sys2Proof.Machine.exec (.resendTimeout seq) s = .next (s.leave s)) ∧
    ((∀ r, reqOf s seq r → r.busyAt = none) → Sys2Proof.Machine.exec (.busyRetry seq) s = .next (s.leave s))) ∧
  (∀ (s u : State) (f : Nat) (x : InFrame) (d : List Byte), u.reqFor x.frame.hdr = none →
    (FrameHere s f (fun o => o == opRESP) x d u → Sys2Proof.Machine.exec (.jonathResp f) s = .next (s.leave u.settle)) ∧
    (FrameHere s f (fun o => o == opNAK) x d u → Sys2Proof.Machine.exec (.nak f) s = .next (s.leave u.settle)) ∧
    (FrameHere s f (fun o => o == opGETDATA) x d u → Sys2Proof.Machine.exec (.getdata f) s = .next (s.leave u.settle))) ∧
  (∀ (s : State) (seq : Nat) (r : OutReq), s.alive = true → s.settled = true → reqOf s seq r → r.held = false → r.busyAt = none →
    let f := fdOf r.die
    ((s.now r.die).toNat < r.sentAt.toNat + 80000 → Sys2Proof.Machine.exec (.resendTimeout seq) s = .next (s.leave s)) ∧
    (r.sentAt.toNat + 80000 ≤ (s.now r.die).toNat →
      (4 ≤ r.attempt → Sys2Proof.Machine.exec (.resendTimeout seq) s = .next (s.leave
        (if hdrTracked r.frame.hdr then (s.bump (frReg f 0x28) 16 16 1).failReq r Code.FAB_ATOMIC_UNKNOWN
          else (s.bump (frReg f 0x28) 0 16 1).failReq r Code.FAB_TIMEOUT).settle)) ∧
      (r.attempt < 4 →
        let r' : OutReq := { r with
          attempt := r.attempt + 1, sentAt := s.now r.die
          frame := { r.frame with hdr := { r.frame.hdr with attempt := BitVec.ofNat 3 (r.attempt + 1) } } }
        Sys2Proof.Machine.exec (.resendTimeout seq) s =
          .next (s.leave (((s.modReq seq (fun _ => r')).bump (frReg f 0x28) 32 32 1).emitReq r').settle)))) ∧
  (∀ (s : State) (seq : Nat) (r : OutReq) (t : Word), s.alive = true → s.settled = true → reqOf s seq r → r.busyAt = some t →
    ((s.now r.die).toNat < t.toNat → Sys2Proof.Machine.exec (.busyRetry seq) s = .next (s.leave s)) ∧
    (t.toNat ≤ (s.now r.die).toNat →
      (r.firstAt.toNat + 4000000 ≤ (s.now r.die).toNat →
        Sys2Proof.Machine.exec (.busyRetry seq) s = .next (s.leave (s.failReq r Code.FAB_BUSY).settle)) ∧
      ((s.now r.die).toNat < r.firstAt.toNat + 4000000 →
        let r' : OutReq := { r with busyAt := none, sentAt := s.now r.die }
        Sys2Proof.Machine.exec (.busyRetry seq) s = .next (s.leave ((s.modReq seq (fun _ => r')).emitReq r').settle)))) ∧
  (∀ (s u : State) (f : Nat) (x : InFrame) (d : List Byte) (r : OutReq), u.reqFor x.frame.hdr = some r →
    (FrameHere s f (fun o => o == opRESP) x d u →
      Sys2Proof.Machine.exec (.jonathResp f) s = .next (s.leave ((u.closeReq r false).finish r.owner x.frame.hdr.code d).settle)) ∧
    (FrameHere s f (fun o => o == opNAK) x d u →
      (x.frame.hdr.code = Code.FAB_PENDING → Sys2Proof.Machine.exec (.nak f) s =
        .next (s.leave (u.modReq r.seq (fun r' => { r' with sentAt := u.now r.die, busyAt := none })).settle)) ∧
      (x.frame.hdr.code = Code.FAB_BUSY → Sys2Proof.Machine.exec (.nak f) s =
        .next (s.leave (u.modReq r.seq (fun r' => { r' with busyAt := some (u.now r.die + 8000) })).settle)) ∧
      (x.frame.hdr.code ≠ Code.FAB_PENDING → x.frame.hdr.code ≠ Code.FAB_BUSY →
        Sys2Proof.Machine.exec (.nak f) s = .next (s.leave u.settle))) ∧
    (∀ v o, FrameHere s f (fun o => o == opGETDATA) x d u → u.localWrite (getReq r) x.frame.hdr.daddr.toNat d .none = (v, o) →
      (∀ n, o = some (.done n) → Sys2Proof.Machine.exec (.getdata f) s = .next (s.leave ((v.closeReq r false).finish r.owner 0 d).settle)) ∧
      (∀ c, o = some (.refused c) →
        Sys2Proof.Machine.exec (.getdata f) s = .next (s.leave ((v.closeReq r false).finish r.owner c []).settle)) ∧
      (o = some .wait → Sys2Proof.Machine.exec (.getdata f) s = .next (s.leave (s.keepAsk v).settle)) ∧
      (o = none → Sys2Proof.Machine.exec (.getdata f) s =
        .next (s.leave ((v.closeReq r false).finish r.owner Code.FAB_UNREACHABLE []).settle)))) ∧
  (∀ (s : State) (r : OutReq) (failed : Bool), r.held = false →
    (∀ x ∈ (s.closeReq r failed).reqs, x.seq ≠ r.seq) ∧ (∀ x ∈ s.reqs, x.seq ≠ r.seq → x ∈ (s.closeReq r failed).reqs)) ∧
  (∀ (s : State) (seq : Nat), s.alive = true →
    Sys2Proof.Machine.exec (.trackedCountRelease seq) s = .next (s.leave (({ s with
      tracked := s.tracked.filter (fun t => !(t.seq == seq && (match t.release with | some w => decide (w.toNat ≤ (s.now 6).toNat) | none => false)))
      } : State).releaseHeld).settle)) ∧
  (∀ (s : State) (die : Nat) (h : JHdr) (data : List Byte) (o : Owner), (s.reqs.map (fun r => r.seq)).Nodup → s.reqs.length < 2 ^ 20 →
    (∀ r ∈ s.reqs, r.seq < 2 ^ 24) → s.seqCtr < 2 ^ 24 → (((s.sendReq die h data o).reqs).map (fun r => r.seq)).Nodup)

/-- Destinations (R511, R516, R528, R530, R539 to R542, R544): without a frame of its opcodes a command does nothing; a frame with a bad CRC, or a
seal that does not open, is dropped and counted; a request that a check refuses is answered with the code and takes no effect; a read answers
the bytes; an untracked write stores and answers; what memory makes wait stays delivered; a tracked request enters the home agent, which
answers a repeated one from its entry, is `FAB_PENDING` while it is queued, and applies each once, in order of its line. -/
def Sys2Proof.Claims.Destinations : Prop :=
  (∀ e, FabricRow e → ∀ (s : State) (f : Nat), f < 2 → s.alive = true → s.settled = true →
    (s.takeFrameP f e.2 = none → Sys2Proof.Machine.exec (e.1 f) s = .next (s.leave s)) ∧
    (∀ x v u, s.takeFrameP f e.2 = some (x, v) → v.openFrame f x.frame = (u, none) →
      Sys2Proof.Machine.exec (e.1 f) s = .next (s.leave u.settle))) ∧
  (∀ (s : State) (f : Nat) (x : JFrame),
    let whole := x.crc = jcrc x.hdr x.payload ∧ x.payload.length = payloadLen x.hdr
    let dropped := s.bump (frReg f 0x20) 0 16 1
    (¬ whole → s.openFrame f x = (dropped, none)) ∧
    (whole → x.hdr.sealed = false → s.openFrame f x = (s, some x.payload)) ∧
    (whole → x.hdr.sealed = true → s.fabricKey x.hdr.tenant = none → s.openFrame f x = (dropped, none)) ∧
    (∀ k, whole → x.hdr.sealed = true → s.fabricKey x.hdr.tenant = some k →
      let o := gcmOpen k (sealNonce x.hdr.spkg.toNat (leNat (x.payload.take 8))) (hdrBytes x.hdr) (x.payload.drop 8)
      s.openFrame f x = if o = none then (dropped, none) else (s, o))) ∧
  (∀ (s u : State) (f : Nat) (x : InFrame) (d : List Byte),
    let h := x.frame.hdr
    (∀ e : (Nat → Instr) × (Byte → Bool) × Byte,
      e ∈ [(Instr.jonathRead, (fun (o : Byte) => o == opREAD || !knownOp o), opRESP), (Instr.get, (fun (o : Byte) => o == opGET), opGETDATA)] →
      FrameHere s f e.2.1 x d u →
      (∀ c, u.homeCheck f h d = some c → Sys2Proof.Machine.exec (e.1 f) s = .next (s.leave (u.answerReq f h opRESP c []).settle)) ∧
      (∀ v o, u.homeCheck f h d = none → u.localRead (homeReq f h) h.daddr.toNat h.len.toNat = (v, o) →
        (∀ b, o = some (.done b) → Sys2Proof.Machine.exec (e.1 f) s = .next (s.leave (v.answerReq f h e.2.2 0 b).settle)) ∧
        (∀ c, o = some (.refused c) → Sys2Proof.Machine.exec (e.1 f) s = .next (s.leave (v.answerReq f h opRESP c []).settle)) ∧
        ((o = some .wait ∨ o = none) → Sys2Proof.Machine.exec (e.1 f) s = .next (s.leave (s.keepAsk v).settle)))) ∧
    (∀ c, FrameHere s f (fun o => o == opWRITE) x d u → u.homeCheck f h d = some c →
      Sys2Proof.Machine.exec (.jonathWrite f) s = .next (s.leave (u.answerReq f h opRESP c []).settle)) ∧
    (FrameHere s f (fun o => o == opWRITE) x d u → u.homeCheck f h d = none → hdrTracked h = true →
      Sys2Proof.Machine.exec (.jonathWrite f) s = .next (s.leave (u.haArrive f x d).settle)) ∧
    (∀ v o, FrameHere s f (fun o => o == opWRITE) x d u → u.homeCheck f h d = none → hdrTracked h = false →
      u.localWrite (homeReq f h) h.daddr.toNat d (.fabric f { x.frame with payload := d }) = (v, o) →
      (o = some (.done 0) →
        Sys2Proof.Machine.exec (.jonathWrite f) s = .next (s.leave ((v.takeMarks h d.length).answerReq f h opRESP 0 []).settle)) ∧
      (∀ n, o = some (.done (n + 1)) → Sys2Proof.Machine.exec (.jonathWrite f) s = .next (s.leave v.settle)) ∧
      (∀ c, o = some (.refused c) → Sys2Proof.Machine.exec (.jonathWrite f) s = .next (s.leave (v.answerReq f h opRESP c []).settle)) ∧
      ((o = some .wait ∨ o = none) → Sys2Proof.Machine.exec (.jonathWrite f) s = .next (s.leave (s.keepAsk v).settle))) ∧
    (∀ e : (Nat → Instr) × Byte, e ∈ [(.jonathAadd, 0x10), (.jonathAfadd, 0x11), (.jonathAmax, 0x12), (.jonathAmin, 0x13),
        (.jonathAswap, 0x14), (.jonathAcas, 0x15)] → FrameHere s f (fun o => o == e.2) x d u →
      (∀ c, u.homeCheck f h d = some c → Sys2Proof.Machine.exec (e.1 f) s = .next (s.leave (u.answerReq f h opRESP c []).settle)) ∧
      (u.homeCheck f h d = none → Sys2Proof.Machine.exec (e.1 f) s = .next (s.leave (u.haArrive f x d).settle)))) ∧
  (∀ (s : State) (f a l : Nat) (h : JHdr) (d : List Byte), reqRange h d = (a, l) → s.formatOk f h d = true →
    (∀ n o, s.rangeIn a l = .imem n o → s.homeCheck f h d = some Code.FAB_UNREACHABLE) ∧
    (∀ b i o, s.rangeIn a l = .reg b i o → s.homeCheck f h d = some Code.FAB_UNREACHABLE) ∧
    (∀ x, s.rangeIn a l = .hbm x → (s.homeKey a = 0 ∨ s.homeKey a ≠ h.key) → s.homeCheck f h d = some Code.FAB_KEY_MISMATCH) ∧
    (∀ x, s.rangeIn a l = .hbm x → s.homeKey a ≠ 0 → s.homeKey a = h.key → s.homeCheck f h d = none)) ∧
  (∀ (s : State) (f : Nat) (x : InFrame) (d : List Byte),
    let h := x.frame.hdr
    let r := s.fr f
    let mine := r.haT.filter (fun e => e.spkg == h.spkg.toNat)
    (∀ e, r.haFind h.spkg.toNat h.seq.toNat = some e → e.done = true → s.haArrive f x d =
      ((s.haMod f h.spkg.toNat h.seq.toNat (fun e => { e with last := s.now (fdDie f) })).sendVia f e.resp.hdr e.resp.payload).1) ∧
    (∀ e, r.haFind h.spkg.toNat h.seq.toNat = some e → e.done = false → s.haArrive f x d = s.answerReq f h opNAK Code.FAB_PENDING []) ∧
    (r.haFind h.spkg.toNat h.seq.toNat = none → mine.length < 64 → (mine ≠ [] ∨ r.haSlots.length < 4096) →
      ∃ e, s.haArrive f x d = s.setFr f { r with
        haT := r.haT ++ [e], haQ := r.haQ ++ [{ x with frame := { x.frame with payload := d } }] } ∧
        e.spkg = h.spkg.toNat ∧ e.seq = h.seq.toNat ∧ e.done = false)) ∧
  (∀ (s : State) (f : Nat), f < 2 → s.alive = true →
    Sys2Proof.Machine.exec (.haApply f) s = .next (s.leave (s.haApply f [] (s.fr f).haQ).settle)) ∧
  (∀ (s : State) (f : Nat) (before q : List InFrame) (x : InFrame),
    let line := fun (y : InFrame) => y.frame.hdr.daddr.toNat / 128
    let blocked := (∃ y ∈ before, line y = line x) ∨ s.lineHeld (line x) = true
    let r := (s.setFr f { s.fr f with haQ := before ++ q }).haApplyOne f x
    s.haApply f before [] = s ∧
    (blocked → s.haApply f before (x :: q) = s.haApply f (before ++ [x]) q) ∧
    (∀ t, ¬ blocked → r = (t, false) → s.haApply f before (x :: q) = t) ∧
    (∀ t, ¬ blocked → r = (t, true) → s.haApply f before (x :: q) = (s.keepAsk t).haApply f (before ++ [x]) q)) ∧
  (∀ (s v : State) (f : Nat) (x : InFrame),
    let h := x.frame.hdr
    let r := s.haApplyOne f x
    (∀ o, isAtomic h.op = true →
      s.hbmAtomic (homeReq f h) h.daddr.toNat h.op (word64 x.frame.payload 0) h.arg (.fabric f x.frame) = (v, o) →
      (∀ b, o = .done b → r = (v.homeAnswer f h opRESP 0 b, false)) ∧ (∀ c, o = .refused c → r = (v.homeAnswer f h opRESP c [], false)) ∧
      (o = .held → r = (v, false)) ∧ (o = .wait → r = (v, true))) ∧
    (∀ o, h.op = opWRITE → s.localWrite (homeReq f h) h.daddr.toNat x.frame.payload (.fabric f x.frame) = (v, o) →
      (o = some (.done 0) → r = (v.homeAnswer f h opRESP 0 [], false)) ∧ (∀ n, o = some (.done (n + 1)) → r = (v, false)) ∧
      (∀ c, o = some (.refused c) → r = (v.homeAnswer f h opRESP c [], false)) ∧ (o = some .wait → r = (v, true)) ∧
      (o = none → r = (v.homeAnswer f h opRESP Code.FAB_UNREACHABLE [], false))) ∧
    (isAtomic h.op = false → h.op ≠ opWRITE → r = s.homeLine f x)) ∧
  (∀ (s : State) (f spkg seq : Nat), f < 2 → s.alive = true → s.settled = true → ∃ l,
    Sys2Proof.Machine.exec (.haEntryExpiry f spkg seq) s = .next (s.leave (s.setFr f { s.fr f with haT := l })) ∧
      ∀ e, e ∈ l ↔ (e ∈ (s.fr f).haT ∧
        ¬ (e.spkg = spkg ∧ e.seq = seq ∧ e.done = true ∧ e.last.toNat + 400000 ≤ (s.now (fdDie f)).toNat)))

/-- The valley (R536 to R538): a line request that a check refuses is answered with the code, any other enters the home agent, which lists
the twin as the holder it becomes and answers with the line, and takes back a line written back; `CEVICT` drops the holder; at the holder,
`CINV` invalidates, `CFWD` returns the line and drops to shared or invalid, and `CDATA` ends the request for a line. -/
def Obligations.Valley : Prop :=
  (∀ (s u : State) (f : Nat) (x : InFrame) (d : List Byte),
    let h := x.frame.hdr
    let a := h.daddr.toNat
    (∀ e : (Nat → Instr) × Byte, e ∈ [(.crd, opCRD), (.crdx, opCRDX), (.cupg, opCUPG), (.cwb, opCWB)] → FrameHere s f (fun o => o == e.2) x d u →
      (∀ c, u.lineCheck h d = some c → Sys2Proof.Machine.exec (e.1 f) s = .next (s.leave (u.answerReq f h opRESP c []).settle)) ∧
      (u.lineCheck h d = none → Sys2Proof.Machine.exec (e.1 f) s = .next (s.leave (u.haArrive f x d).settle))) ∧
    (∀ c, FrameHere s f (fun o => o == opCEVICT) x d u → u.lineCheck h d = some c →
      Sys2Proof.Machine.exec (.cevict f) s = .next (s.leave (u.answerReq f h opRESP c []).settle)) ∧
    (∀ (e : (Nat → Instr) × Byte) (c : BitVec 16), e ∈ [(.cinv, opCINV), (.cfwd, opCFWD)] → FrameHere s f (fun o => o == e.2) x d u →
      u.holderCheck h = some c → Sys2Proof.Machine.exec (e.1 f) s = .next (s.leave (u.answerReq f h opRESP c []).settle)) ∧
    (FrameHere s f (fun o => o == opCFWD) x d u → u.holderCheck h = none → u.lines.find a = none →
      Sys2Proof.Machine.exec (.cfwd f) s = .next (s.leave (u.answerReq f h opRESP 0 []).settle)) ∧
    (FrameHere s f (fun o => o == opCDATA) x d u → u.reqFor h = none → Sys2Proof.Machine.exec (.cdata f) s = .next (s.leave u.settle)) ∧
    (FrameHere s f (fun o => o == opCEVICT) x d u → u.lineCheck h d = none → Sys2Proof.Machine.exec (.cevict f) s =
      .next (s.leave (({ u with dir := u.dir.drop a } : State).answerReq f h opRESP 0 []).settle)) ∧
    (FrameHere s f (fun o => o == opCINV) x d u → u.holderCheck h = none → Sys2Proof.Machine.exec (.cinv f) s =
      .next (s.leave (({ u with lines := u.lines.drop a } : State).answerReq f h opRESP 0 []).settle)) ∧
    (∀ l, FrameHere s f (fun o => o == opCFWD) x d u → u.holderCheck h = none → u.lines.find a = some l →
      Sys2Proof.Machine.exec (.cfwd f) s = .next (s.leave (({ u with
        lines := if h.arg = 0 then u.lines.set a { l with excl := false, dirty := false } else u.lines.drop a } : State).answerReq f h
          opCDATA 0 l.data).settle)) ∧
    (∀ r, FrameHere s f (fun o => o == opCDATA) x d u → u.reqFor h = some r →
      ((∀ b e, r.owner ≠ .recall b e) → Sys2Proof.Machine.exec (.cdata f) s =
        .next (s.leave ((u.closeReq r false).finish r.owner h.code d).settle)) ∧
      (∀ b e, r.owner = .recall b e → d.length ≠ 128 → Sys2Proof.Machine.exec (.cdata f) s =
        .next (s.leave ((u.closeReq r false).finish r.owner h.code d).settle)) ∧
      (∀ b e, r.owner = .recall b e → d.length = 128 →
        let p := u.pageStore (homeReq f h) (u.mapAddr b.toNat).1 (u.mapAddr b.toNat).2 b.toNat d
        (p.2 = .wait → Sys2Proof.Machine.exec (.cdata f) s = .next (s.leave (s.keepAsk p.1).settle)) ∧
        (p.2 ≠ .wait → Sys2Proof.Machine.exec (.cdata f) s =
          .next (s.leave ((p.1.closeReq r false).finish r.owner h.code d).settle))))) ∧
  (∀ (s : State) (h : JHdr) (d : List Byte), (h.spkg.toNat ≠ s.twin ∨ h.daddr.toNat % 128 ≠ 0 ∨ h.tc ≠ 5) →
    s.lineCheck h d = some Code.FAB_FORMAT) ∧
  (∀ (s : State) (f : Nat) (x : InFrame),
    let h := x.frame.hdr
    let a := h.daddr.toNat
    let q := homeReq f h
    let k := (s.mapAddr a).1
    let off := (s.mapAddr a).2
    (∀ c, s.tagCheck 9 h.tenant a k = some c →
      s.homeLine f x = ((s.setRfld (regAt .mc k 0) 32 16 c.toNat).homeAnswer f h opRESP c [], false)) ∧
    (s.tagCheck 9 h.tenant a k = none →
      (h.op ∈ [opCRDX, opCUPG] → s.cowHolds k off 9 = true →
        s.homeLine f x = (s.cowHold k ⟨q, wd off, [], none, .fabric f x.frame⟩, false)) ∧
      (∀ v b, h.op ∈ [opCRD, opCRDX] → (h.op = opCRD ∨ s.cowHolds k off 9 = false) → s.pageRead q a 128 = (v, .done b) →
        s.homeLine f x = (({ v with dir := v.dir.set a (if h.op = opCRD then .shared else .exclusive) } : State).homeAnswer f h opCDATA 0 b,
          false)) ∧
      (∀ v, h.op ∈ [opCRD, opCRDX] → (h.op = opCRD ∨ s.cowHolds k off 9 = false) →
        (∀ c, s.pageRead q a 128 = (v, .refused c) → s.homeLine f x = (v.homeAnswer f h opRESP c [], false)) ∧
        (s.pageRead q a 128 = (v, .wait) → s.homeLine f x = (v, true))) ∧
      (∀ v, h.op = opCWB →
        (∀ c, s.writeBack q a x.frame.payload (.fabric f x.frame) = (v, .refused c) → s.homeLine f x = (v.homeAnswer f h opRESP c [], false)) ∧
        (s.writeBack q a x.frame.payload (.fabric f x.frame) = (v, .wait) → s.homeLine f x = (v, true)) ∧
        (s.writeBack q a x.frame.payload (.fabric f x.frame) = (v, .held) → s.homeLine f x = ({ v with dir := v.dir.drop a }, false))) ∧
      (h.op = opCUPG → s.cowHolds k off 9 = false →
        s.homeLine f x = (({ s with dir := s.dir.set a .exclusive } : State).homeAnswer f h opRESP 0 [], false)) ∧
      (∀ v b, h.op = opCWB → s.writeBack q a x.frame.payload (.fabric f x.frame) = (v, .done b) →
        s.homeLine f x = (({ v with dir := v.dir.drop a } : State).homeAnswer f h opRESP 0 [], false)))) ∧
  (∀ (s : State) (p : Nat), s.valleyLost = false → (p = 0 ∨ p = 18) → s.portState (18 - p) ≠ 3 → s.portState p = 3 →
    let t := s.leaveUp p
    t.valleyLost = true ∧ t.dir = [] ∧ t.lines = [] ∧ ∃ r : Rec, r ∈ t.err.fresh ∧ r.code = Code.FAB_VALLEY_LOST)

/-! # Node time -/

namespace Sys2Proof.Claims

/-- The package can act and nothing is left to be done. -/
structure PkgHere (s : State) : Prop where
  alive : s.alive = true
  quiet : s.settled = true

/-- The first frame of opcode `op` delivered at FD f is x, with a right CRC; u is the state without it. -/
structure TimeFrame (s : State) (f : Nat) (op : Byte) (x : InFrame) (u : State) : Prop where
  present : f < 2
  alive   : s.alive = true
  quiet   : s.settled = true
  taken   : s.takeFrame f op = some (x, u)
  crc     : x.frame.crc = jcrc x.frame.hdr x.frame.payload

end Sys2Proof.Claims

/-- The time tree (R558 to R562): a follower's `TREQ` goes to the parent; the parent answers with t2 in `ARG` over the port the request
came from; from t1 to t4 the follower computes offset and delay and applies them; a locked base slews within 100 ppm so that the offset
vanishes over the interval, an unlocked one steps forward beyond 4,000 ticks, holds still below −4,000 and slews between, and locks
after 8 good comparisons in a row; beyond 4,000 ticks, or after 1 ms without an exchange, the lock is lost with a record; a write that
changes `ROLE` or `PARENT` clears it without one. Without a frame, with one whose CRC fails (dropped and counted), without a parent that is
UP, or with an answer to no exchange of this package, nothing else happens. -/
def Sys2Proof.Claims.TimeTree : Prop :=
  (∀ s : State, PkgHere s → s.isRoot = false → s.parentPort < 36 → s.portUp s.parentPort = true →
    ∃ (t : State) (b : BufFrame) (q : Nat), Sys2Proof.Machine.exec .tmExchange s = .next (s.leave t) ∧
      (t.fr (s.parentPort / 18)).buf = (s.fr (s.parentPort / 18)).buf ++ [b] ∧ b.port = s.parentPort ∧ b.frame.hdr.op = 0x60 ∧
      b.frame.hdr.tc = 4 ∧ b.frame.hdr.dpkg.toNat = s.rfld (flReg s.parentPort 0) 50 14 ∧ b.frame.hdr.spkg = BitVec.ofNat 14 s.pkg ∧
      b.frame.hdr.seq = BitVec.ofNat 24 q ∧ t.tm = { s.tm with seq := q, t1 := none }) ∧
  (∀ (s u : State) (f : Nat) (x : InFrame), TimeFrame s f 0x60 x u → x.port < 36 → u.portUp x.port = true →
    ∃ (t : State) (b : BufFrame), Sys2Proof.Machine.exec (.treq f) s = .next (s.leave t) ∧ (t.fr f).buf = (u.fr f).buf ++ [b] ∧
      b.port = x.port ∧ b.frame.hdr.op = 0x61 ∧ b.frame.hdr.tc = respTc x.frame.hdr.tc ∧ b.frame.hdr.arg = x.at_ ∧
      b.frame.hdr.seq = x.frame.hdr.seq ∧ b.frame.hdr.dpkg = x.frame.hdr.spkg ∧ b.frame.payload.length = 8) ∧
  (∀ s : State, PkgHere s → (s.isRoot = true ∨ 36 ≤ s.parentPort ∨ s.portUp s.parentPort = false) →
    Sys2Proof.Machine.exec .tmExchange s = .next (s.leave s)) ∧
  (∀ e : (Nat → Instr) × Byte, e ∈ [(.treq, 0x60), (.tresp, 0x61)] → ∀ (s : State) (f : Nat), f < 2 → PkgHere s →
    (s.takeFrame f e.2 = none → Sys2Proof.Machine.exec (e.1 f) s = .next (s.leave s)) ∧
    (∀ x u, s.takeFrame f e.2 = some (x, u) → x.frame.crc ≠ jcrc x.frame.hdr x.frame.payload →
      Sys2Proof.Machine.exec (e.1 f) s = .next (s.leave (u.bump (frReg f 0x20) 0 16 1)))) ∧
  (∀ (s u : State) (f : Nat) (x : InFrame),
    (TimeFrame s f 0x60 x u → (36 ≤ x.port ∨ u.portUp x.port = false) → Sys2Proof.Machine.exec (.treq f) s = .next (s.leave u)) ∧
    (TimeFrame s f 0x61 x u → (u.tm.t1 = none ∨ u.isRoot = true ∨ u.tm.seq ≠ x.frame.hdr.seq.toNat) →
      Sys2Proof.Machine.exec (.tresp f) s = .next (s.leave u))) ∧
  (∀ s : State, PkgHere s → Sys2Proof.Machine.exec (.packageTimeCompare 6) s = .next (s.leave s)) ∧
  (∀ (s u : State) (f : Nat) (x : InFrame) (t1 : Word), TimeFrame s f 0x61 x u → u.tm.t1 = some t1 → u.isRoot = false →
    u.tm.seq = x.frame.hdr.seq.toNat →
    let i := fun (w : Word) => (w.toNat : Int)
    let t2 := i x.frame.hdr.arg
    let t3 := (leNat (x.frame.payload.take 8) : Int)
    let theta2 := t2 - i t1 + (t3 - i x.at_)
    let delay := divOpen (i x.at_ - i t1 - (t3 - t2)) 2
    let v := (u.setTm { u.tm with t1 := none, lastX := u.now 6 }).setReg (regAt .tm 0 0x20) (wdInt (divOpen theta2 2))
    Sys2Proof.Machine.exec (.tresp f) s = .next (s.leave
      ((v.setRfld (regAt .tm 0 0x28) 0 32 (delay % (2 ^ 32 : Nat)).toNat).applyTheta 6 rateNominal theta2 25600).settle)) ∧
  (∀ (s : State) (d : Nat), d < 8 → d ≠ 6 → s.alive = true → Sys2Proof.Machine.exec (.packageTimeCompare d) s =
    .next (s.leave ((if d = 7 then s.setReg (regAt .tm 1 0x20) (wdInt (((s.now 6).toNat : Int) - (s.now d).toNat)) else s).applyTheta d
      (s.rate 6) (2 * (((s.now 6).toNat : Int) - (s.now d).toNat)) 1600).settle)) ∧
  (∀ s : State, PkgHere s →
    (s.isRoot = false → s.locked 6 = true → s.tm.lastX.toNat + 4000000 ≤ (s.now 6).toNat →
      Sys2Proof.Machine.exec .tmLockTimeout s = .next (s.leave (s.unlock 6).settle)) ∧
    ((s.isRoot = true ∨ s.locked 6 = false ∨ (s.now 6).toNat < s.tm.lastX.toNat + 4000000) →
      Sys2Proof.Machine.exec .tmLockTimeout s = .next (s.leave s)) ∧
    (∀ v : Word, s.launched = true → Sys2Proof.Machine.exec (.tmCtrlWrite v) s = .next (s.leave s)) ∧
    (∀ v : Word, s.launched = false → ∃ t : State, Sys2Proof.Machine.exec (.tmCtrlWrite v) s = .next (s.leave t) ∧
      t.tmCtrl = v &&& wd (mask 10 8 + mask 5 0) ∧ t.err = s.err ∧
      (bit s.tmCtrl 8 ≠ bit v 8 ∨ fld s.tmCtrl 0 6 ≠ fld v 0 6 → t.locked 6 = bit v 8) ∧
      (bit s.tmCtrl 8 = bit v 8 → fld s.tmCtrl 0 6 = fld v 0 6 → t.tm = s.tm))) ∧
  (∀ (s : State) (d ref cycles : Nat) (theta2 : Int),
    let t := s.applyTheta d ref theta2 cycles
    let r := clampRate ((ref : Int) + divOpen (theta2 * 2 ^ 32) (2 * cycles))
    (s.locked d = true → theta2.natAbs ≤ 8000 → t.rate d = r ∧ t.time = s.time ∧ t.err = s.err ∧ t.locked d = true) ∧
    (s.locked d = false → -8000 ≤ theta2 → theta2 ≤ 8000 → (0 ≤ theta2 ∨ s.tm.holds.contains d = false) →
      t.rate d = r ∧ t.time = s.time ∧ t.tm.holds.contains d = false) ∧
    (s.locked d = false → (theta2 < -8000 ∨ theta2 < 0 ∧ s.tm.holds.contains d = true) → t.tm.holds.contains d = true ∧ t.time = s.time) ∧
    (s.locked d = false → 8000 < theta2 → t = let u := (s.setTm { s.tm with
        holds := s.tm.holds.filter (· != d) }).stepTime d (divOpen theta2 2).toNat
      u.setTm { u.tm with good := u.tm.good.set d 0 }) ∧
    (s.locked d = true → theta2 < -8000 → t.locked d = false ∧ t.time = s.time ∧
      ∃ x : Rec, x ∈ t.err.fresh ∧ x.code = Code.TM_UNLOCK ∧ x.die = d) ∧
    (theta2.natAbs ≤ 4 → t.tm.good.get 0 d = s.tm.good.get 0 d + 1 ∧ (7 ≤ s.tm.good.get 0 d → t.locked d = true)) ∧
    (4 < theta2.natAbs → t.tm.good.get 0 d = 0) ∧
    rateNominal - 1073741 ≤ r ∧ r ≤ rateNominal + 1073741)

/-- PTP and `SYNC_IO` (R565, R771, R772): a following root takes its offset from the four time stamps of its master; time stamps have 1 ns
resolution; a 1PPS edge is stamped and a following root slews to the nearest second; 2 s without an edge is recorded and leaves the
nominal rate; the output rises at the multiples of `CLK_SYNC.PERIOD`. -/
def Sys2Proof.Claims.OutsideTime : Prop :=
  (∀ (s : State) (via : PtpVia), s.alive = true → s.isRoot = true → bit s.tmCtrl 9 = true →
    (∀ t1 : Word, Sys2Proof.Machine.exec (.ptpMessage 0 ⟨via, .sync t1⟩) s = .next (s.leave
      ((s.setTm { s.tm with ptpT1 := some t1, ptpT2 := some (s.ptpNow 0), ptpT3 := some (s.ptpNow 0) }).hostSend 0
        (.ptp ⟨via, .delayReq⟩)).settle)) ∧
    Sys2Proof.Machine.exec (.ptpMessage 0 ⟨via, .syncTwoStep⟩) s = .next (s.leave
      (s.setTm { s.tm with ptpT1 := none, ptpT2 := some (s.ptpNow 0), ptpT3 := none }).settle) ∧
    (∀ t1 t2 : Word, s.tm.ptpT2 = some t2 → Sys2Proof.Machine.exec (.ptpMessage 0 ⟨via, .followUp t1⟩) s = .next (s.leave
      ((s.setTm { s.tm with ptpT1 := some t1, ptpT3 := some (s.ptpNow 0) }).hostSend 0 (.ptp ⟨via, .delayReq⟩)).settle)) ∧
    (∀ t1 t2 t3 t4 : Word, s.tm.ptpT1 = some t1 → s.tm.ptpT2 = some t2 → s.tm.ptpT3 = some t3 →
      Sys2Proof.Machine.exec (.ptpMessage 0 ⟨via, .delayResp t4⟩) s = .next (s.leave
        ((s.setTm { s.tm with ptpT1 := none, ptpT2 := none, ptpT3 := none }).rootTheta
          ((t1.toNat : Int) - t2.toNat + ((t4.toNat : Int) - t3.toNat))).settle))) ∧
  (∀ (s : State) (via : PtpVia), s.alive = true → bit s.tmCtrl 10 = true → Sys2Proof.Machine.exec (.ptpMessage 1 ⟨via, .delayReq⟩) s =
    .next (s.leave (s.hostSend 1 (.ptp ⟨via, .delayResp (s.ptpNow 1)⟩)).settle)) ∧
  (∀ (s : State) (f : Nat) (m : PtpMsg), f < 2 → PkgHere s →
    let slave := f = 0 ∧ s.isRoot = true ∧ bit s.tmCtrl 9 = true
    let master := f = 1 ∧ bit s.tmCtrl 10 = true
    ((¬ slave ∧ ¬ master) ∨ (slave ∧ (m.kind = .delayReq ∨ m.kind = .announce)) ∨ (master ∧ m.kind ≠ .delayReq) ∨
        (slave ∧ (∃ t1, m.kind = .followUp t1) ∧ s.tm.ptpT2 = none) ∨
        (slave ∧ (∃ t4, m.kind = .delayResp t4) ∧ (s.tm.ptpT1 = none ∨ s.tm.ptpT2 = none ∨ s.tm.ptpT3 = none)) →
      Sys2Proof.Machine.exec (.ptpMessage f m) s = .next (s.leave s))) ∧
  (∀ (s : State) (f : Nat), (s.ptpNow f).toNat % 4 = 0 ∧ (s.ptpNow f).toNat ≤ (s.now (fdDie f)).toNat ∧
    (s.now (fdDie f)).toNat < (s.ptpNow f).toNat + 4) ∧
  (∀ s : State, PkgHere s →
    (s.part.strapOut = true → Sys2Proof.Machine.exec .ppsEdge s = .next (s.leave s)) ∧
    (s.part.strapOut = false → ∃ t : State, Sys2Proof.Machine.exec .ppsEdge s = .next (s.leave t) ∧
      t.reg (regAt .clk 0 0x10) = s.now 6 ∧ t.rfld (regAt .clk 0 0) 0 1 = 1 ∧ t.tm.ppsAt = some (s.now 6) ∧
      (s.followsPps = true → t.rate 6 = clampRate ((rateNominal : Int) + divOpen (toSecond (s.now 6).toNat * 2 ^ 32) 1600000000)) ∧
      (s.followsPps = false → t.rate 6 = s.rate 6)) ∧
    (∀ w : Word, s.tm.ppsAt = some w → s.rfld (regAt .clk 0 0) 0 1 = 1 → w.toNat + 8000000000 ≤ (s.now 6).toNat →
      ∃ (t : State) (r : Rec), Sys2Proof.Machine.exec .ppsLost s = .next (s.leave t.settle) ∧ t.rfld (regAt .clk 0 0) 0 1 = 0 ∧
        t.err.fresh = [r] ∧ r.code = Code.CLK_PPS_LOST ∧ r.kind = 7 ∧ (s.followsPps = true → t.rate 6 = rateNominal)) ∧
    ((∀ w : Word, s.tm.ppsAt = some w → s.rfld (regAt .clk 0 0) 0 1 = 0 ∨ (s.now 6).toNat < w.toNat + 8000000000) →
      Sys2Proof.Machine.exec .ppsLost s = .next (s.leave s)) ∧
    ((s.part.strapOut = false ∨ s.rfld (regAt .clk 0 0x08) 0 40 = 0) → Sys2Proof.Machine.exec .syncPulse s = .next (s.leave s)) ∧
    (s.part.strapOut = true → 0 < s.rfld (regAt .clk 0 0x08) 0 40 → ∃ n, Sys2Proof.Machine.exec .syncPulse s =
        .next (s.leave { s with power := { s.power with syncOut := n * s.rfld (regAt .clk 0 0x08) 0 40 } }) ∧
      n * s.rfld (regAt .clk 0 0x08) 0 40 ≤ (s.now 6).toNat ∧ (s.now 6).toNat < (n + 1) * s.rfld (regAt .clk 0 0x08) 0 40)) ∧
  (∀ n : Nat, ((n : Int) + toSecond n) % 4000000000 = 0 ∧ (toSecond n).natAbs ≤ 2000000000)

/-! # Collective units -/

/-- Collective frames (R527, R581 to R586, R589): a check that fails is answered with its code; a group that no CU holds is `NAK` `FAB_BUSY`, or
`RESP` where it is one of the last four closed; else the frame does its work at the CU that holds the group, and `RESP` follows its effect: a
segment received before changes nothing, one whose residues fail tears the group, a contribution, gathered segment or ring segment is
stored and, once it stands in memory, noted, `CDONE` is noted and `CABORT` ends the group with the sender's code and rank; after `LIMIT`
the group fails with `CU_TIMEOUT`. -/
def Sys2Proof.Claims.CollectiveFrames : Prop :=
  (∀ (s u : State) (f : Nat) (x : InFrame) (d : List Byte) (c : Nat → Instr) (op : Byte),
    (c, op) ∈ ([(.cpart, 0x50), (.cgath, 0x51), (.cring, 0x52), (.cdone, 0x53), (.cabort, 0x54)] : List ((Nat → Instr) × Byte)) →
    FrameHere s f (fun o => o == op) x d u →
    let h := x.frame.hdr
    let k := (u.mapAddr h.daddr.toNat).1
    let tag := u.tagCheck 9 h.tenant h.daddr.toNat k
    (∀ e, u.cuCheck h d = some e → Sys2Proof.Machine.exec (c f) s = .next (s.leave (u.answerReq f h opRESP e []).settle)) ∧
    (∀ e, u.cuCheck h d = none → tag = some e → Sys2Proof.Machine.exec (c f) s =
      .next (s.leave ((u.setRfld (regAt .mc k 0) 32 16 e.toNat).answerReq f h opRESP e []).settle)) ∧
    (u.cuCheck h d = none → tag = none → u.cuOf (fld h.arg 32 32) = none →
      Sys2Proof.Machine.exec (c f) s = .next (s.leave (if u.cuClosed (fld h.arg 32 32) then u.answerReq f h opRESP 0 []
        else u.answerReq f h opNAK Code.FAB_BUSY []).settle)) ∧
    (∀ g, u.cuCheck h d = none → tag = none → u.cuOf (fld h.arg 32 32) = some g →
      (u.openGroup g = none → Sys2Proof.Machine.exec (c f) s = .next (s.leave u.settle)) ∧
      (∀ grp, u.openGroup g = some grp → grp.rankOf h.spkg.toNat = none →
        Sys2Proof.Machine.exec (c f) s = .next (s.leave (u.answerReq f h opRESP 0 []).settle))) ∧
    (∀ g grp r, u.cuCheck h d = none → tag = none → u.cuOf (fld h.arg 32 32) = some g → u.openGroup g = some grp →
      grp.rankOf h.spkg.toNat = some r →
      let t := u.cuTake f g grp r x d
      (t.2 = false → Sys2Proof.Machine.exec (c f) s = .next (s.leave t.1.settle)) ∧
      (t.2 = true → Sys2Proof.Machine.exec (c f) s = .next (s.leave (s.keepAsk t.1).settle)))) ∧
  (∀ (c : Nat → Instr) (op : Byte) (s : State) (f : Nat),
    (c, op) ∈ ([(.cpart, 0x50), (.cgath, 0x51), (.cring, 0x52), (.cdone, 0x53), (.cabort, 0x54)] : List ((Nat → Instr) × Byte)) →
    f < 2 → s.alive = true → s.settled = true →
    (s.takeFrameP f (fun o => o == op) = none → Sys2Proof.Machine.exec (c f) s = .next (s.leave s)) ∧
    (∀ x v u, s.takeFrameP f (fun o => o == op) = some (x, v) → v.openFrame f x.frame = (u, none) →
      Sys2Proof.Machine.exec (c f) s = .next (s.leave u.settle))) ∧
  (∀ (s : State) (f n : Nat) (g : Group) (r : Nat) (x : InFrame) (d : List Byte),
    let h := x.frame.hdr
    let body := d.take (d.length - 16)
    let good := 16 ≤ d.length ∧ trailer body = d.drop (d.length - 16)
    let answered := fun (t : State) => (t.answerReq f h opRESP 0 [], false)
    (h.op ∈ [0x53, 0x54] → s.cuTake f n g r x d = answered (s.cuNotice n r h x.at_)) ∧
    (h.op ∈ [0x50, 0x51, 0x52] →
      (g.got_ r h = true → s.cuTake f n g r x d = answered s) ∧
      (g.got_ r h = false → ¬ good → s.cuTake f n g r x d = answered (s.cuTorn n)) ∧
      (let twice := ∃ m ∈ s.mcs, ∃ w ∈ m.2.held, ∃ y t, w.owner = .cuSeg n g.id y t ∧ g.segKey r y.hdr = g.segKey r h ∧ y.hdr.op = h.op
       let o := s.localWrite (g.req n) h.daddr.toNat (body.take (g.segKey r h).2)
          (.cuSeg n g.id { x.frame with payload := [BitVec.ofNat 8 f] } x.at_)
       g.got_ r h = false → good →
        (twice → s.cuTake f n g r x d = (s, false)) ∧
        (∀ v, ¬ twice → o = (v, some (.done 0)) → s.cuTake f n g r x d = answered (v.cuSegIn n r h x.at_)) ∧
        (∀ v k, ¬ twice → o = (v, some (.done (k + 1))) → s.cuTake f n g r x d = (v, false)) ∧
        (∀ v e, ¬ twice → o = (v, some (.refused e)) → s.cuTake f n g r x d = (v.answerReq f h opRESP e [], false)) ∧
        (∀ v, ¬ twice → o = (v, some .wait) → s.cuTake f n g r x d = (v, true)) ∧
        (∀ v, ¬ twice → o = (v, none) → s.cuTake f n g r x d = (v.answerReq f h opRESP Code.FAB_UNREACHABLE [], false))))) ∧
  (∀ (s : State) (f : Nat) (g : Group) (r : Nat) (h : JHdr) (t : Word), s.openGroup f = some g →
    let i := fld h.arg 0 32
    let at_ := wd (max t.toNat (g.arrive.get 0 r).toNat)
    (h.op = 0x50 → g.got_ r h = g.seen.contains (0x50, r % g.m, i) ∧ (g.segKey r h).2 = segLen (g.chunk g.locIdx).2 i ∧
      (g.started = false → s.cuSegIn f r h t = (s.modGroup f (fun y => { y with
        arrive := y.arrive.set r at_, seen := y.seen ++ [(0x50, r % g.m, i)] })).cuTryLocal f)) ∧
    (h.op = 0x51 → g.got_ r h = g.out.contains (r, i) ∧ (g.segKey r h).2 = segLen (g.part r).2 i ∧
      (g.kind ≠ 2 → s.cuSegIn f r h t = (s.modGroup f (fun y => { y with out := y.out ++ [(r, i)] })).cuTryLocal f) ∧
      (g.kind = 2 → s.cuSegIn f r h t = (s.modGroup f (fun y => { y with
        arrive := y.arrive.set r at_, out := y.out ++ [(r, i)] })).cuTryLocal f)) ∧
    (h.op = 0x52 →
      let k := g.ringPart h.daddr.toNat
      g.got_ r h = g.seen.contains (0x52, k, i) ∧ (g.segKey r h).2 = segLen (g.part (k * g.m + g.locIdx)).2 i ∧
      (g.chunkDone = false → s.cuSegIn f r h t = (s.modGroup f (fun y => { y with seen := y.seen ++ [(0x52, k, i)] })).cuTryLocal f)) ∧
    (h.op = 0x53 → g.cdone.contains r = true → s.cuNotice f r h t = s.cuTryFinal f) ∧
    (h.op = 0x53 → g.cdone.contains r = false → g.kind ≠ 3 →
      s.cuNotice f r h t = (s.modGroup f (fun y => { y with cdone := y.cdone ++ [r] })).cuTryFinal f) ∧
    (h.op = 0x53 → g.cdone.contains r = false → g.kind = 3 →
      s.cuNotice f r h t = (s.modGroup f (fun y => { y with cdone := y.cdone ++ [r], arrive := y.arrive.set r t })).cuTryFinal f) ∧
    (h.op = 0x54 → s.cuNotice f r h t = s.cuFinal f (BitVec.ofNat 16 i) r 0)) ∧
  (∀ (s : State) (f : Nat) (g : Group), f < 2 → s.alive = true → s.settled = true → s.openGroup f = some g →
    let late := max g.openAt.toNat g.start.toNat + s.rfld (cuReg f 0x08) 0 40
    (late ≤ (s.now (fdDie f)).toNat →
      Sys2Proof.Machine.exec (.cuTimeout f) s = .next (s.leave (s.cuFail f Code.CU_TIMEOUT 0).settle)) ∧
    ((s.now (fdDie f)).toNat < late → Sys2Proof.Machine.exec (.cuTimeout f) s = .next (s.leave s))) ∧
  (∀ (s : State) (f : Nat), f < 2 → s.alive = true → s.settled = true → s.openGroup f = none →
    Sys2Proof.Machine.exec (.cuTimeout f) s = .next (s.leave s))

/-- How a collective ends (R585 to R589): it is not LOCAL before its output is written, nor FINAL with 0x0000 before it is LOCAL and every
other member's `CDONE` has come; at FINAL the time, code and origin stand in the group, the group joins the last four closed, and the
counts grow; a failure tells every other member and is FINAL with its code. -/
def Sys2Proof.Claims.CollectiveEnds : Prop :=
  (∀ (s : State) (f : Nat) (g : Group), s.openGroup f = some g →
    ((∃ x ∈ g.needs, x ∉ g.out) → s.cuTryLocal f = s) ∧
    (g.started = false → s.cuTryLocal f = s) ∧ (0 < g.heldW → s.cuTryLocal f = s) ∧
    (g.local_ = none → s.cuTryFinal f = s) ∧
    ((∃ r < g.n, r ≠ g.rank ∧ r ∉ g.cdone) → s.cuTryFinal f = s) ∧
    (∀ l, g.local_ = some l → (∀ r < g.n, r = g.rank ∨ r ∈ g.cdone) → s.cuTryFinal f = s.cuFinal f 0 0 0)) ∧
  (∀ (s : State) (f : Nat) (g : Group) (code : BitVec 16) (origin : Nat) (detail : BitVec 16), s.openGroup f = some g → g.entry = none →
    let t := s.cuFinal f code origin detail
    (∃ y, (t.cu f).group = some y ∧ y.final = some (s.now (fdDie f)) ∧ y.code = code ∧ y.origin = origin ∧ y.cfg = g.cfg ∧ y.id = g.id) ∧
    t.openGroup f = none ∧
    wd g.ident ∈ (t.cu f).closed ∧ ((s.cu f).closed.length ≤ 4 → (t.cu f).closed.length ≤ 4) ∧
    (code ≠ 0 → ∃ r : Rec, r ∈ t.err.fresh ∧ r.code = code ∧ r.unit = uCu ∧ r.index = f ∧ r.info = g.stepNo)) ∧
  (∀ (s : State) (f : Nat) (g : Group) (code detail : BitVec 16), s.openGroup f = some g → code ≠ Code.CU_FABRIC →
    s.cuFail f code detail = (((upTo g.n).filter (· != g.rank)).foldl (fun s r =>
      s.cuSend f g r 0x54 g.record code.toNat (leBytes 8 g.stepNo.toNat)) s).cuFinal f code g.rank detail) ∧
  (∀ (l : List (Nat × Word)) (r hi lo : Nat), slowest l = some (r, hi, lo) →
    (∃ x ∈ l, x.1 = r ∧ x.2.toNat = hi) ∧ (∀ x ∈ l, lo ≤ x.2.toNat ∧ x.2.toNat ≤ hi ∧ (x.2.toNat = hi → r ≤ x.1)))

/-- Parts and reduction (R575, R578, R579, R582): the chunks, and in each chunk the parts, follow each other without gap up to the last
element; values are reduced element by element, INT32 sums wrap; the value of a part goes round the chassis groups, the
partial of each being added last, until its owner has the total; the trailer holds each data word modulo 3. -/
def Obligations.ReductionOrder : Prop :=
  (∀ g : Group, 0 < g.m → g.m ∣ g.n → 0 < g.n →
    (g.chunk 0).1 = 0 ∧ (g.chunk (g.m - 1)).1 + (g.chunk (g.m - 1)).2 = g.elems * cuWidth g.fmt ∧
    (∀ c, c + 1 < g.m → (g.chunk (c + 1)).1 = (g.chunk c).1 + (g.chunk c).2) ∧
    (∀ c < g.m, (g.part c).1 = (g.chunk c).1 ∧ (∀ k, k + 1 < g.groups →
        (g.part ((k + 1) * g.m + c)).1 = (g.part (k * g.m + c)).1 + (g.part (k * g.m + c)).2) ∧
      (g.part ((g.groups - 1) * g.m + c)).1 + (g.part ((g.groups - 1) * g.m + c)).2 = (g.chunk c).1 + (g.chunk c).2) ∧
    (∀ c < g.m, (g.chunk c).2 ≤ g.slotBytes)) ∧
  (∀ (fmt op : Nat) (a b : List Byte) (n i : Nat), a.length = cuWidth fmt * n → b.length = a.length → i < n →
    let w := cuWidth fmt
    (cuReduce fmt op a b).length = a.length ∧
    leNat (((cuReduce fmt op a b).drop (w * i)).take w) =
      cuCombine fmt op (leNat ((a.drop (w * i)).take w)) (leNat ((b.drop (w * i)).take w)) % 2 ^ (8 * w)) ∧
  (∀ a b : Nat, cuCombine 0xD 0 a b = (a + b) % 2 ^ 32) ∧
  (∀ (s : State) (f k i : Nat) (v : List Byte) (g : Group), s.openGroup f = some g →
    (k = g.chassis → s.cuRingStep f k i v = s.cuOutput f i v) ∧
    (k ≠ g.chassis →
      let p := g.part (k * g.m + g.locIdx)
      let a := g.scratch + g.m * g.slotBytes + (p.1 - (g.chunk g.locIdx).1) + 464 * i
      s.cuRingStep f k i v = s.cuSend f g ((g.chassis + 1) % g.groups * g.m + g.locIdx) 0x52 a i (segPayload v) ∧
      ∀ (u : State) (y : List Byte), s.cuFetch f g a (segLen p.2 i) = (u, .done y) →
        s.cuRingTake f k i = u.cuRingStep f k i (cuReduce g.fmt g.redOp y (g.partial k i)))) ∧
  (∀ (d : List Byte) (n i : Nat), d.length = 8 * n → n ≤ 58 → i < n → (trailer d).length = 16 ∧
    leNat (trailer d) / 4 ^ i % 4 = leNat ((d.drop (8 * i)).take 8) % 3 ∧ leNat (trailer d) < 4 ^ n)

/-! # Jobs and snapshots -/

namespace Sys2Proof.Claims

/-- The first `JSTART`, `JACK` or `JCANCEL` (opcode `op`, payload of `len` bytes) at FD f is x with data d and a right format; u is the
state without it. -/
structure JobMsg (s : State) (f : Nat) (op : Byte) (len : Nat) (x : InFrame) (d : List Byte) (u : State) : Prop where
  frame : FrameHere s f (fun o => o == op) x d u
  form  : jobFormatOk x.frame.hdr d len = true

end Sys2Proof.Claims

/-- Starting a job (R613 to R618): without a message of its kind a command does nothing, a message of a bad format is answered `FAB_FORMAT`; a
repeated start is answered and ignored; a refused one is answered and a `JACK` with its code,
`COUNT` 0 and this package goes back at once; of any other the manifest is asked for from its sender, and once the copy is written the start
is armed, or refused; the checks come in the order of R616; the children of entry i are those whose parent is i; a child's `JACK` is noted, a silent child is recorded at the deadline, and the sum counts
this member and all its children and names the first failure. -/
def Sys2Proof.Claims.JobStarts : Prop :=
  (∀ (sender : BitVec 14) (e : (Nat → Instr) × Byte × Nat),
    e ∈ [(fun f => .jstart f sender, 0x74, 128), (.jack, 0x75, 16), (.jcancel, 0x76, 8), (.jmread, 0x77, 0)] →
    ∀ (s : State) (f : Nat), f < 2 → PkgHere s →
    (s.takeFrameP f (fun o => o == e.2.1) = none → Sys2Proof.Machine.exec (e.1 f) s = .next (s.leave s)) ∧
    (∀ x v u, s.takeFrameP f (fun o => o == e.2.1) = some (x, v) → (e.2.1 = 0x74 → x.frame.hdr.spkg = sender) →
      v.openFrame f x.frame = (u, none) → Sys2Proof.Machine.exec (e.1 f) s = .next (s.leave u.settle)) ∧
    (∀ x d u, e.2.1 ≠ 0x77 → FrameHere s f (fun o => o == e.2.1) x d u → (e.2.1 = 0x74 → x.frame.hdr.spkg = sender) →
      jobFormatOk x.frame.hdr d e.2.2 = false →
      Sys2Proof.Machine.exec (e.1 f) s = .next (s.leave (u.answerReq f x.frame.hdr opRESP Code.FAB_FORMAT []).settle))) ∧
  (∀ s : State, PkgHere s → s.job.start = none → Sys2Proof.Machine.exec .jackDeadline s = .next (s.leave s)) ∧
  (∀ (s u : State) (f : Nat) (sender : BitVec 14) (d : List Byte) (x : InFrame), JobMsg s f 0x74 128 x d u →
    let h := x.frame.hdr
    let key := (jsJob d, jsAttempt d)
    let v := u.jobHandled d
    (h.spkg ≠ sender → Sys2Proof.Machine.exec (.jstart f sender) s = .next (s.leave s.settle)) ∧
    (h.spkg = sender →
      (u.job.handled.contains key = true →
        Sys2Proof.Machine.exec (.jstart f sender) s = .next (s.leave (u.answerReq f h opRESP 0 []).settle)) ∧
      (∀ c, u.job.handled.contains key = false → v.jobEarly d = some c → Sys2Proof.Machine.exec (.jstart f sender) s =
        .next (s.leave (((v.jobCode c).jobSend h.spkg.toNat 0x75 (jackBytes (jsJob d) (jsAttempt d) c 0 v.pkg) .none).answerReq f h
          opRESP 0 []).settle)) ∧
      (u.job.handled.contains key = false → v.jobEarly d = none →
        let ps := remotePieces 512 (addrLocal (word64 d 0x20)) ((2 * jsN d + 7) / 8 * 8)
        let w : State := { v with job := { v.job with
          fetch := some ⟨some h.spkg, d, wd Config.manifestAt.toNat, none, ps.length, [], none, [], 0⟩ } }
        Sys2Proof.Machine.exec (.jstart f sender) s = .next (s.leave ((ps.foldl (fun s p => s.sendReq 4 { hdr0 with
          dpkg := h.spkg, daddr := BitVec.ofNat 50 p.1, op := 0x77, len := BitVec.ofNat 10 p.2, tc := 7, act := 5
          arg := wd (jsJob d).toNat } [] (.jman (jsJob d) (jsAttempt d) (wd p.1))) w).answerReq f h opRESP 0 []).settle)))) ∧
  (∀ (s u : State) (x : JobFetch) (m : List Byte) (r : PutRes), s.job.fetch = some x → x.m = some m →
    s.put jobReq (fun _ _ => .jcopy) x.put 0 0 = (u, r) →
    let none_ : State := { u with job := { u.job with fetch := none } }
    let p := x.sender.map (·.toNat)
    (∀ c, r.code = some c → c ≠ 0 → s.jobFetchRun = none_.jobNo p x.body x.host c) ∧
    (∀ t, r.code = none → r.rest = [] → x.heldW + r.held = 0 → none_.jobArm x.body m p x.maddr x.host = (t, 0) → s.jobFetchRun = t) ∧
    (∀ t c, r.code = none → r.rest = [] → x.heldW + r.held = 0 → none_.jobArm x.body m p x.maddr x.host = (t, c) → c ≠ 0 →
      s.jobFetchRun = t.jobNo p x.body x.host c)) ∧
  (∀ (s : State) (b m : List Byte) (sender : Option Nat),
    let late := (jsTa b).toNat < (s.now 4).toNat + (jsDepth b + 1) * 80000
    let busy := s.jobState ≠ 0 ∨ s.quiet = false ∨ (jsJob b, jsAttempt b) ∈ s.job.cancelled ∨ s.job.fetch ≠ none
    (busy → s.jobEarly b = some Code.JOB_BUSY) ∧ (¬ busy → late → s.jobEarly b = some Code.JOB_LATE) ∧
    (∀ c, s.jobEarly b = some c → s.jobRefusal b m sender = some c) ∧
    (¬ busy → ¬ late → (sha512 m ≠ (b.drop 0x40).take 64 ∨ s.pkg ∉ manifestOf m) → s.jobRefusal b m sender = some Code.JOB_MANIFEST) ∧
    (s.jobRefusal b m sender = none → s.twin ∈ manifestOf m ∧ sha512 m = (b.drop 0x40).take 64 ∧ m.length = 2 * jsN b ∧
      (∀ p, sender = some p → ∃ i, 0 < i ∧ (manifestOf m)[i]? = some s.pkg ∧ nth (manifestOf m) 0 ((i - 1) / jsFanout b) = p))) ∧
  (∀ fan n i c : Nat, 0 < fan → (c ∈ treeKids fan n i ↔ 0 < c ∧ c < n ∧ (c - 1) / fan = i)) ∧
  (∀ (s u : State) (f : Nat) (d : List Byte) (x : InFrame), JobMsg s f 0x75 16 x d u → Sys2Proof.Machine.exec (.jack f) s =
    .next (s.leave ((u.jobAck x.frame.hdr.spkg.toNat d).answerReq f x.frame.hdr opRESP 0 []).settle)) ∧
  (∀ (s : State) (p : Nat) (d : List Byte) (r : JobRun) (k : Nat), s.job.start = some r → jsJob d = r.job → jsAttempt d = r.attempt →
    r.kids.find? (fun k => nth r.manifest 0 k == p) = some k →
    ((∃ a ∈ r.acks, a.1 = k) → s.jobAck p d = s) ∧
    ((∀ a ∈ r.acks, a.1 ≠ k) → s.jobAck p d = ({ s with job := { s.job with start := some { r with
      acks := r.acks ++ [(k, BitVec.ofNat 16 (bytesAt d 6 2), bytesAt d 8 4, bytesAt d 0x0C 2)] } } } : State).tryAck)) ∧
  (∀ (s : State) (r : JobRun), PkgHere s → s.job.start = some r →
    ((s.now 4).toNat + (r.depth + 1) * 80000 < r.ta.toNat → Sys2Proof.Machine.exec .jackDeadline s = .next (s.leave s)) ∧
    (r.ta.toNat ≤ (s.now 4).toNat + (r.depth + 1) * 80000 →
      let silent := r.kids.filter (fun k => !r.acks.any (fun a => a.1 == k))
      let r' : JobRun := { r with acks := r.acks ++ silent.map (fun k => (k, Code.JOB_SILENT, 0, nth r.manifest 0 k)) }
      Sys2Proof.Machine.exec .jackDeadline s =
        .next (s.leave ({ (if silent = [] then s else s.jobCode Code.JOB_SILENT) with
          job := { s.job with start := some r' } } : State).tryAck.settle))) ∧
  (∀ (s : State) (r : JobRun) (p : BitVec 14), s.job.start = some r → r.parent = some p → r.acked = false →
    ((∃ k ∈ r.kids, ∀ a ∈ r.acks, a.1 ≠ k) → s.tryAck = s) ∧
    ((∀ k ∈ r.kids, ∃ a ∈ r.acks, a.1 = k) → s.tryAck = ({ s with job := { s.job with start := some { r with
      acked := true } } } : State).jobSend p.toNat 0x75 (jackBytes r.job r.attempt r.sum.1 r.sum.2.1 r.sum.2.2) .none)) ∧
  (∀ r : JobRun, (r.ownCode ≠ 0 → r.sum.1 = r.ownCode ∧ r.sum.2.2 = nth r.manifest 0 r.index) ∧
    (r.kids = [] → r.ownCode = 0 → r.sum = (0, 1, 0)))

/-- Ending a start and a job (R615, R620, R621, R625): at `TA` the root lets the start stand where every member is counted without a
failure, else cancels its own entry and sends `JCANCEL` to every other member; a member cancels its armed list, records a cancel of a
start that it does not hold, or answers `JOB_CANCEL_LATE`; a `JMREAD` is answered only within the terms of R615; teardown clears, once
the package is at rest, every key, the cached lines and the tenant's granules, and ends with the package IDLE when those are retagged. -/
def Sys2Proof.Claims.JobEnds : Prop :=
  (∀ (s : State) (r : JobRun), PkgHere s → s.job.start = some r →
    let decided : State := { s with job := { s.job with start := some { r with decided := true } } }
    ((r.parent.isSome = true ∨ r.decided = true ∨ (s.now 4).toNat < r.ta.toNat) →
      Sys2Proof.Machine.exec .jobDecision s = .next (s.leave s)) ∧
    (∀ u c, r.parent = none → r.decided = false → r.ta.toNat ≤ (s.now 4).toNat → (r.sum.2.1 ≠ r.n ∨ r.sum.1 ≠ 0) →
      decided.cancelStart = (u, c) →
      (c = 0 → r.others = [] → Sys2Proof.Machine.exec .jobDecision s = .next (s.leave (u.jobReissue r).settle)) ∧
      (c ≠ 0 → Sys2Proof.Machine.exec .jobDecision s = .next (s.leave (u.jobEvent r Code.JOB_CANCEL_UNKNOWN u.pkg).settle))) ∧
    (r.parent = none → r.decided = false → r.ta.toNat ≤ (s.now 4).toNat →
      (r.sum.2.1 = r.n → r.sum.1 = 0 → Sys2Proof.Machine.exec .jobDecision s = .next (s.leave (decided.jobEvent r 0 0).settle)) ∧
      (∀ u, (r.sum.2.1 ≠ r.n ∨ r.sum.1 ≠ 0) → decided.cancelStart = (u, 0) → r.others ≠ [] →
        Sys2Proof.Machine.exec .jobDecision s = .next (s.leave (r.others.foldl (fun s p =>
          s.jobSend p 0x76 (leBytes 4 r.job.toNat ++ leBytes 1 r.attempt ++ zeros 3) (.job (BitVec.ofNat 14 p))) u).settle)))) ∧
  (∀ s : State, PkgHere s → s.job.start = none → Sys2Proof.Machine.exec .jobDecision s = .next (s.leave s)) ∧
  (∀ (s u : State) (f : Nat) (d : List Byte) (x : InFrame), JobMsg s f 0x76 8 x d u →
    let h := x.frame.hdr
    let noted : State := { u with job := { u.job with cancelled := u.job.cancelled ++ [(jsJob d, jsAttempt d)] } }
    (u.job.start = none → Sys2Proof.Machine.exec (.jcancel f) s = .next (s.leave (noted.answerReq f h opRESP 0 []).settle)) ∧
    (∀ r, u.job.start = some r → (r.job, r.attempt) ≠ (jsJob d, jsAttempt d) →
      Sys2Proof.Machine.exec (.jcancel f) s = .next (s.leave (noted.answerReq f h opRESP 0 []).settle)) ∧
    (∀ r v, u.job.start = some r → (r.job, r.attempt) = (jsJob d, jsAttempt d) → u.cancelStart = (v, 0) →
      Sys2Proof.Machine.exec (.jcancel f) s = .next (s.leave (v.jobIdle.answerReq f h opRESP 0 []).settle)) ∧
    (∀ r v c, u.job.start = some r → (r.job, r.attempt) = (jsJob d, jsAttempt d) → u.cancelStart = (v, c) → c ≠ 0 →
      Sys2Proof.Machine.exec (.jcancel f) s =
        .next (s.leave ((v.jobCode Code.JOB_CANCEL_LATE).answerReq f h opRESP Code.JOB_CANCEL_LATE []).settle))) ∧
  (∀ (s u : State) (f : Nat) (d : List Byte) (x : InFrame), FrameHere s f (fun o => o == 0x77) x d u →
    let h := x.frame.hdr
    let l := h.len.toNat
    let form := h.res = 0 ∧ h.act ≠ 7 ∧ h.tc = 7 ∧ l % 8 = 0 ∧ 0 < l ∧ l ≤ 512
    (¬ form → Sys2Proof.Machine.exec (.jmread f) s = .next (s.leave (u.answerReq f h opRESP Code.FAB_FORMAT []).settle)) ∧
    (form → u.jmreadOk h = false →
      Sys2Proof.Machine.exec (.jmread f) s = .next (s.leave (u.answerReq f h opRESP Code.FAB_UNREACHABLE []).settle)) ∧
    (∀ v o, form → u.jmreadOk h = true → u.localRead ⟨12, 5, 0, false, fdDie f⟩ h.daddr.toNat l = (v, o) →
      (∀ b, o = some (.done b) → Sys2Proof.Machine.exec (.jmread f) s = .next (s.leave (v.answerReq f h opRESP 0 b).settle)) ∧
      (∀ c, o = some (.refused c) → Sys2Proof.Machine.exec (.jmread f) s = .next (s.leave (v.answerReq f h opRESP c []).settle)) ∧
      (o = some .wait → Sys2Proof.Machine.exec (.jmread f) s = .next (s.leave (s.keepAsk v).settle)) ∧
      (o = none → Sys2Proof.Machine.exec (.jmread f) s =
        .next (s.leave (v.answerReq f h opRESP Code.FAB_UNREACHABLE []).settle)))) ∧
  (∀ (s : State) (h : JHdr), s.jmreadOk h = true → ∃ (r : JobRun) (k : Nat), s.job.start = some r ∧ r.job.toNat = fld h.arg 0 32 ∧
    (s.jobState = 1 ∨ (r.parent.isSome = true ∧ r.acked = false) ∨ (r.parent = none ∧ r.decided = false ∧ s.now 4 < r.ta)) ∧ k ∈ r.kids ∧ nth r.manifest 0 k = h.spkg.toNat ∧ r.maddr.toNat ≤ h.daddr.toNat) ∧
  (∀ s : State, PkgHere s →
    let gone := fun (v : State) => v.job.localTag = 0 ∨ ∀ x ∈ v.tags, x.2 ≠ v.job.localTag
    let v := s.tearClear.runRetags
    (s.jobState = 3 → s.job.tearStep = 3 → s.atRest = true →
      (gone v → Sys2Proof.Machine.exec .teardownDone s = .next (s.leave v.tearFinish.settle)) ∧
      (¬ gone v → Sys2Proof.Machine.exec .teardownDone s = .next (s.leave v.settle))) ∧
    (s.jobState = 3 → s.job.tearStep = 7 →
      (gone s → Sys2Proof.Machine.exec .teardownDone s = .next (s.leave s.tearFinish.settle)) ∧
      (¬ gone s → Sys2Proof.Machine.exec .teardownDone s = .next (s.leave s))) ∧
    ((s.jobState ≠ 3 ∨ s.job.tearStep ∉ [3, 7] ∨ (s.job.tearStep = 3 ∧ s.atRest = false)) → Sys2Proof.Machine.exec .teardownDone s = .next (s.leave s)) ∧
    let c := s.tearClear
    let t := s.tearFinish
    c.homeKeys = [] ∧ c.fontKeys = [] ∧ c.outKeys = [] ∧ c.lines = [] ∧ c.job.tearStep = 7 ∧
      (s.job.localTag ≠ 0 → ∀ x ∈ s.tags, x.2 = s.job.localTag → ∃ y ∈ c.retags, y.gran = x.1 ∧ y.tag = 0) ∧
      t.jobState = 0 ∧ t.jobId = 0 ∧ t.job.localTag = 0 ∧ t.job.tearStep = 0 ∧
      t.job.start = none ∧ (s.job.localTag ≠ 0 → ∀ k ∈ t.sec.fabric, k.1 ≠ s.job.localTag))

/-- Snapshots (R634 to R636, R642, R643): a TAKE is refused in the order of R634; at `CUT` each die lists every declared
granule of its stacks for copying and, in COW mode, arms it; the slot with the lower `SEQ` is cleared, and once every copy write is answered its commit record is written,
`SEQ` last; the commit shows slot and `SEQ`, sets `CLEAN` and clears `WANT`; `WANT` is set one period after the newest `CUT`; a
RESTORE takes the slot with the highest `SEQ` of those that qualify, or fails with `SE_NO_GEN`. -/
def Obligations.Snapshots : Prop :=
  (∀ (s : State) (r : SnapRun), PkgHere s → s.job.snap = some r →
    (r.take = true → r.cutDone = false → Sys2Proof.Machine.exec .snapshotCut s = .next (s.leave (s.takeCut r).settle)) ∧
    ((r.take = false ∨ r.cutDone = true ∨ ∀ d < 4, (s.now d).toNat < r.cut.toNat) →
      Sys2Proof.Machine.exec .snapshotCut s = .next (s.leave s)) ∧
    (s.copyDone r = true → Sys2Proof.Machine.exec .snapshotCommit s = .next (s.leave (({ s with job := { s.job with snap := some { r with
      phase := .body } } } : State).snapSend r opWRITE (r.table.slotAt r.slot + 8) 56 ((r.commitRec 0 (s.now 0)).drop 8)).settle)) ∧
    (s.copyDone r = false → Sys2Proof.Machine.exec .snapshotCommit s = .next (s.leave s))) ∧
  (∀ s : State, PkgHere s → s.job.snap = none →
    Sys2Proof.Machine.exec .snapshotCut s = .next (s.leave s) ∧ Sys2Proof.Machine.exec .snapshotCommit s = .next (s.leave s)) ∧
  (∀ s : State, PkgHere s →
    (∀ d t, s.job.decl = some d → s.job.lastCut = some t → d.period ≠ 0 → t.toNat + d.period.toNat < (s.now 0).toNat →
      Sys2Proof.Machine.exec .snapshotWant s = .next (s.leave (s.setRfld seStatus 6 1 1))) ∧
    (∀ d t, s.job.decl = some d → s.job.lastCut = some t → (d.period = 0 ∨ (s.now 0).toNat ≤ t.toNat + d.period.toNat) →
      Sys2Proof.Machine.exec .snapshotWant s = .next (s.leave s)) ∧
    ((s.job.decl = none ∨ s.job.lastCut = none) → Sys2Proof.Machine.exec .snapshotWant s = .next (s.leave s))) ∧
  (∀ (s : State) (r : SnapRun) (x : Word × Word) (i : Nat), x ∈ r.table.regions → i < x.2.toNat / 4096 →
    let a := s.mapAddr (x.1.toNat + i * 4096)
    let m := (s.takeCut r).mc a.1
    let d := s.part.dieOfStack a.1
    a.1 < s.part.stacks → r.cut.toNat ≤ (s.now d).toNat → r.cuts.contains d = false → a.2 / 65536 ∈ m.sweep ∧ (r.table.stop = false → a.2 / 65536 ∈ m.cow) ∧ (r.table.stop = true → m.cow = [])) ∧
  (∀ (s : State) (cut : Word) (d : SnapDecl),
    (s.job.decl = none → s.takeRefusal cut = some Code.SE_NOT_DECLARED) ∧
    (s.job.decl = some d → s.job.snap ≠ none → s.takeRefusal cut = some Code.SE_BUSY) ∧
    (s.job.decl = some d → s.job.snap = none → cut.toNat < (s.now 0).toNat + 40000 → s.takeRefusal cut = some Code.SE_LATE) ∧
    (s.job.decl = some d → s.job.snap = none → (s.now 0).toNat + 40000 ≤ cut.toNat →
      (d.stop = false → s.beyondChassis = true → s.takeRefusal cut = some Code.SE_MODE) ∧
      ((d.stop = true ∨ s.beyondChassis = false) → s.portUp 0 = false → s.portUp 18 = false →
        s.takeRefusal cut = some Code.SE_TWIN_LOST) ∧
      ((d.stop = true ∨ s.beyondChassis = false) → (s.portUp 0 = true ∨ s.portUp 18 = true) → s.takeRefusal cut = none))) ∧
  (∀ (s : State) (r : SnapRun) (b : List Byte), s.job.snap = some r →
    let a0 := (word64 r.rec0 0).toNat
    let b0 := (word64 b 0).toNat
    (∀ c, c ≠ 0 → s.snapAnswer c b = s.endSnap Code.SE_COPY_FAULT) ∧
    (r.phase = .read1 → r.take = true →
      let g := if b0 < a0 then 1 else 0
      let r' : SnapRun := { r with rec1 := b, slot := g, phase := .clear }
      s.snapAnswer 0 b = ({ s with job := { s.job with snap := some r' } } : State).snapSend r' opWRITE (r.table.slotAt g) 8 (zeros 8)) ∧
    (r.phase = .read1 → r.take = false → r.qualifies r.rec0 = false → r.qualifies b = false → s.snapAnswer 0 b = s.endSnap Code.SE_NO_GEN) ∧
    (r.phase = .read1 → r.take = false → r.qualifies r.rec0 = true → r.qualifies b = true →
      s.snapAnswer 0 b = ({ s with job := { s.job with snap := some { r with
        rec1 := b, slot := if b0 ≤ a0 then 0 else 1, phase := .copy } } } : State).restoreNext) ∧
    (r.phase = .seq → s.snapAnswer 0 b = s.committed r) ∧
    (r.slot < 4 → (∀ k, (s.mc k).held = []) →
      let t := s.committed r
      t.rfld seStatus 0 2 = r.slot ∧ t.rfld seStatus 7 1 = 1 ∧ t.rfld seStatus 6 1 = 0 ∧ t.reg (regAt .se 0 0x10) = wd r.newSeq ∧
        t.job.snap = none ∧ t.job.lastCut = some r.cut)) ∧
  (∀ (r : SnapRun) (seq : Nat) (now : Word), (r.commitRec seq now).length = 64)

/-! # Host sessions and security -/

namespace Sys2Proof.Claims

/-- The commands that carry a message of a session, and the message (R692). -/
inductive BwCommand (h : BHdr) : Instr → BwMsg → Prop
  | report (n : List Byte) : BwCommand h (.attestReport h n) (.report n)
  | keypkg (p : List Byte) : BwCommand h (.attestKeypkg h p) (.keypkg p)
  | nonce : BwCommand h (.attestNonce h) .nonce
  | token (t : List Byte) : BwCommand h (.attestToken h t) (.token t)
  | list (pd : Nat) (l st r t : Word) : BwCommand h (.launchList h pd l st r t) (.list pd l st r t)
  | jobStart (b : List Byte) : BwCommand h (.launchJobStart h 0 b) (.jobStart b)
  | teardown (j : BitVec 32) (p : BitVec 14) : BwCommand h (.launchTeardown h 0 j p) (.teardown j p)
  | boot (n : Nat) : BwCommand h (.launchBoot h 0 n) (.boot n)
  | reset (p : BitVec 14) : BwCommand h (.launchReset h 0 p) (.reset p)
  | snuff (p : BitVec 14) : BwCommand h (.launchSnuff h 0 p) (.snuff p)
  | jobStartPd (pd : Nat) (b : List Byte) : 0 < pd → BwCommand h (.launchJobStart h pd b) (.badPd false)
  | teardownPd (pd : Nat) (j : BitVec 32) (p : BitVec 14) : 0 < pd → BwCommand h (.launchTeardown h pd j p) (.badPd false)
  | bootPd (pd n : Nat) : 0 < pd → BwCommand h (.launchBoot h pd n) (.badPd true)
  | resetPd (pd : Nat) (p : BitVec 14) : 0 < pd → BwCommand h (.launchReset h pd p) (.badPd false)
  | snuffPd (pd : Nat) (p : BitVec 14) : 0 < pd → BwCommand h (.launchSnuff h pd p) (.badPd false)
  | write (a : Word) (d : List Byte) : BwCommand h (.buwenWrite h a d) (.write a d)
  | read (a : Word) (n : Nat) : BwCommand h (.buwenRead h a n) (.read a n)
  | regWrite (a v : Word) : BwCommand h (.buwenRegWrite h a v) (.regWrite a v)
  | regRead (a : Word) : BwCommand h (.buwenRegRead h a) (.regRead a)

/-- A datagram of session x arrives at a port that is up and passes R682, R685 to R687; `seen` is the window of counters with its
own. -/
structure Datagram (s : State) (h : BHdr) (x : Session) (seen : List Nat) : Prop where
  present : h.port < 2
  alive   : s.alive = true
  link    : s.hostUp h.port = true
  fits    : h.fits = true
  tag     : h.tagOk = true
  counter : 0 < h.nctr ∧ h.nctr < 2 ^ 32
  named   : h.session ≠ 0
  session : s.session h.port h.session = some x
  fresh   : nctrWindow x.seen h.nctr = some seen

/-- It carries the next message, and the session has nothing else to do. -/
structure NextMessage (s : State) (h : BHdr) (x : Session) (seen : List Nat) : Prop extends Datagram s h x seen where
  next   : h.seq = x.rxSeq + 1
  small  : h.seq < 2 ^ 32
  idle   : x.held = [] ∧ x.unack = [] ∧ x.resps = [] ∧ x.events = [] ∧ x.relays = 0 ∧ x.writes = []

/-- The session once the message m has been received (R687, R689). -/
def received (s : State) (h : BHdr) (m : BwMsg) (x : Session) (seen : List Nat) : Session :=
  let now := s.now (6 + h.port)
  { x with
    seen := seen, heard := now, held := [(h.seq, m)], rxSeq := h.seq, ackDue := some (x.ackDue.getD (now + 80000)) }

/-- The state in which the message takes its effect: it is taken from those received. -/
def acting (s : State) (h : BHdr) (m : BwMsg) (x : Session) (seen : List Nat) : State :=
  (s.modSess h.port x.id (fun _ => received s h m x seen)).modSess h.port x.id (fun y => { y with
    held := y.held.filter (fun z => z.1 != h.seq) })

end Sys2Proof.Claims

/-- A message that comes in order runs at once (R689 to R691): it acts on the state in which it has been received, and is answered with
one response unless its answer comes later; one that comes again is only acknowledged; one of a broken datagram is dropped and
counted; an `ACK` ends the keeping of what it covers. -/
def Sys2Proof.Claims.HostMessages : Prop :=
  (∀ (s : State) (h : BHdr) (c : Instr) (m : BwMsg) (x : Session) (seen : List Nat), BwCommand h c m → NextMessage s h x seen →
    let y := received s h m x seen
    (∀ u e d, (acting s h m x seen).bwAct h.port y h.seq m = (u, .answer e d) → Sys2Proof.Machine.exec c s =
      .next (s.leave (State.runN h.port x.id 511 (u.bwResp h.port x.id h.seq e d)).settle)) ∧
    (∀ u, (acting s h m x seen).bwAct h.port y h.seq m = (u, .later) → u.power.frozen = false → Sys2Proof.Machine.exec c s =
      .next (s.leave (State.runN h.port x.id 511 u).settle)) ∧
    (∀ u, (acting s h m x seen).bwAct h.port y h.seq m = (u, .later) → u.power.frozen = true → Sys2Proof.Machine.exec c s =
      .next (s.leave u.settle)) ∧
    (∀ u, (acting s h m x seen).bwAct h.port y h.seq m = (u, .wait) → Sys2Proof.Machine.exec c s =
      .next (s.leave (u.modSess h.port x.id (fun z => { z with held := (h.seq, m) :: z.held })).settle))) ∧
  (∀ (s : State) (h : BHdr) (c : Instr) (m : BwMsg), BwCommand h c m → h.port < 2 → PkgHere s → s.hostUp h.port = true →
    (h.fits = false ∨ h.session = 0 ∨ h.tagOk = false ∨ h.nctr = 0 ∨ h.seq = 0) → Sys2Proof.Machine.exec c s =
      .next (s.leave (s.bump (regAt .he h.port 0x40) 0 16 1))) ∧
  (∀ (s : State) (h : BHdr) (c : Instr) (m : BwMsg) (x : Session), BwCommand h c m → h.port < 2 → PkgHere s → s.hostUp h.port = true →
    s.session h.port h.session = some x → nctrWindow x.seen h.nctr = none → Sys2Proof.Machine.exec c s =
      .next (s.leave (s.bump (regAt .he h.port 0x40) 0 16 1))) ∧
  (∀ (s : State) (h : BHdr) (x : Session) (seen : List Nat), Datagram s h x seen → s.settled = true → h.seq = 0 → x.held = [] →
    x.resps = [] → x.events = [] →
    let left := x.unack.filter (fun u => decide (h.ack < u.1))
    Sys2Proof.Machine.exec (.buwenAck h) s = .next (s.leave (s.modSess h.port x.id (fun _ => { x with
      seen := seen, heard := s.now (6 + h.port), unack := left
      resent := if left.length = x.unack.length then x.resent else 0 })))) ∧
  (∀ (seen : List Nat) (n : Nat),
    (n ∈ seen → nctrWindow seen n = none) ∧
    (n ∉ seen → seen.length < 4096 → nctrWindow seen n = some (insertUp n seen) ∧ ∀ k, k ∈ insertUp n seen ↔ k = n ∨ k ∈ seen) ∧
    (∀ x r, seen = x :: r → n < x → 4096 ≤ seen.length → nctrWindow seen n = none))

namespace Sys2Proof.Claims

/-- A session of this role may write (or read) what the range names (R699, R701): HBM, fonts, and instruction memories, of which a running
cluster's takes no write. -/
inductive HostMemory (s : State) (r : Role) (write : Bool) : Region → Prop
  | hbm (x : Nat) : HostMemory s r write (.hbm x)
  | font (n o : Nat) : s.mayUseFonts r = true → HostMemory s r write (.font n o)
  | imem (n o : Nat) : s.mayUseFonts r = true → (write = true → ¬ ((s.cl n).st = .running ∨ (s.cl n).pendingLl = true)) →
      HostMemory s r write (.imem n o)

end Sys2Proof.Claims

/-- Rights and effects of messages (R699 to R708): each message in each role, outside boot mode and in it. -/
def Sys2Proof.Claims.HostRights : Prop :=
  (∀ (s : State) (f seq : Nat) (x : Session), s.netBoot = false →
    let refuse := fun (c : BitVec 16) => (s.heCode f c, BwRes.answer c [])
    let local_ := fun (p : BitVec 14) => p = 0 ∨ p.toNat = s.pkg
    (∀ n, n.length = 64 → s.bwAct f x seq (.report n) = ((s.attestReport n).1, .answer 0 (s.attestReport n).2)) ∧
    (∀ p, p.length = 536 → s.bwAct f x seq (.keypkg p) = ((s.keypkg p).1, .answer (s.keypkg p).2 [])) ∧
    s.bwAct f x seq .nonce = (s, .answer 0 (padTo 64 s.sec.nonce)) ∧
    (∀ t, t.length = 272 → (x.role = .operator → s.bwAct f x seq (.token t) = ((s.token t).1, .answer (s.token t).2 [])) ∧
      (x.role ≠ .operator → s.bwAct f x seq (.token t) = refuse Code.HE_RIGHTS)) ∧
    (∀ pd l st r t, (2 ≤ pd → s.bwAct f x seq (.list pd l st r t) = refuse Code.HE_PROTO) ∧
      (pd < 2 → s.mayLaunch x.role = false → s.bwAct f x seq (.list pd l st r t) = refuse Code.HE_RIGHTS) ∧
      (pd < 2 → s.mayLaunch x.role = true → s.bwAct f x seq (.list pd l st r t) =
        ((s.submit pd l st r t (.host f x.id)).1, .answer (s.submit pd l st r t (.host f x.id)).2.1 []))) ∧
    (∀ b, b.length = 128 →
      let j := s.jobRoot b (some (f, x.id))
      (∀ c, x.role = .operator → j.2 = some c → s.bwAct f x seq (.jobStart b) = (j.1, .answer c [])) ∧
      (x.role = .operator → j.2 = none → s.bwAct f x seq (.jobStart b) = (j.1, .wait)) ∧
      (x.role ≠ .operator → s.bwAct f x seq (.jobStart b) = refuse Code.HE_RIGHTS)) ∧
    (∀ j p, (x.role ≠ .operator → s.bwAct f x seq (.teardown j p) = refuse Code.HE_RIGHTS) ∧
      (x.role = .operator → local_ p → s.bwAct f x seq (.teardown j p) =
        ((s.teardown j (some (f, x.id))).1, .answer (s.teardown j (some (f, x.id))).2 [])) ∧
      (x.role = .operator → ¬ local_ p → s.bwAct f x seq (.teardown j p) =
        (s.relay f x.id seq p.toNat 0x73 0 4 (leBytes 4 j.toNat), .later))) ∧
    (∀ p, (x.role ≠ .operator → s.bwAct f x seq (.reset p) = refuse Code.HE_RIGHTS ∧ s.bwAct f x seq (.snuff p) = refuse Code.HE_RIGHTS) ∧
      (x.role = .operator → local_ p → s.canAnswer f x = true →
        s.bwAct f x seq (.reset p) = ((s.bwResp f x.id seq 0 []).packageReset, .later) ∧
        s.bwAct f x seq (.snuff p) = ((s.bwResp f x.id seq 0 []).freeze, .later)) ∧
      (x.role = .operator → ¬ local_ p → s.bwAct f x seq (.reset p) = (s.relay f x.id seq p.toNat 0x72 0 0 [], .later) ∧
        s.bwAct f x seq (.snuff p) = (s.relay f x.id seq p.toNat 0x7E 0 0 [], .later))) ∧
    (∀ n, s.bwAct f x seq (.boot n) = refuse Code.HE_NOT_BOOT) ∧ (∀ b, s.bwAct f x seq (.badPd b) = refuse Code.HE_PROTO) ∧
    (∀ a d, x.role = .none → s.bwAct f x seq (.write a d) = refuse Code.HE_RIGHTS) ∧
    (∀ a n, x.role = .none → s.bwAct f x seq (.read a n) = refuse Code.HE_RIGHTS) ∧
    (∀ a d o t p, x.role ≠ .none → s.bwRange f a d.length = some o → HostMemory s x.role true (s.rangeIn o d.length) →
      (∀ w ∈ x.writes, w.seq ≠ seq) →
      s.put (hostReq f x.role) (fun _ _ => .host f x.id seq) (putPieces [(wd o, d)]) 0 0 = (t, p) →
      let u := t.modSess f x.id (fun y => { y with writes := y.writes.filter (fun v => v.seq != seq) })
      let left := if p.code.isSome then [] else p.rest
      let keeps := fun (w : HostWrite) => u.modSess f x.id (fun y => { y with writes := y.writes ++ [w] })
      (left = [] → p.held = 0 → s.bwAct f x seq (.write a d) = (u, .answer (p.code.getD 0) [])) ∧
      (left = [] → 0 < p.held → s.bwAct f x seq (.write a d) = (keeps ⟨seq, [], p.held, p.code.getD 0⟩, .later)) ∧
      (left ≠ [] → s.bwAct f x seq (.write a d) = (keeps ⟨seq, left, p.held, 0⟩, .wait))) ∧
    (∀ a n o t got, x.role ≠ .none → s.bwRange f a n = some o → HostMemory s x.role false (s.rangeIn o n) →
      let keeps := fun (l : List (Word × List Byte)) => t.modSess f x.id (fun y => { y with got := l })
      (∀ b, s.fetch (hostReq f x.role) x.got o n = (t, got, .done b) → s.bwAct f x seq (.read a n) = (keeps [], .answer 0 b)) ∧
      (∀ c, s.fetch (hostReq f x.role) x.got o n = (t, got, .refused c) → s.bwAct f x seq (.read a n) = (keeps [], .answer c [])) ∧
      (s.fetch (hostReq f x.role) x.got o n = (t, got, .wait) → s.bwAct f x seq (.read a n) = (keeps got, .wait))) ∧
    (∀ a d o k m, x.role ≠ .none → s.bwRange f a d.length = some o → s.rangeIn o d.length = .imem k m →
      (s.mayUseFonts x.role = false → s.bwAct f x seq (.write a d) = refuse Code.HE_RIGHTS) ∧
      (s.mayUseFonts x.role = true → ((s.cl k).st = .running ∨ (s.cl k).pendingLl = true) →
        s.bwAct f x seq (.write a d) = (s, .answer Code.CL_DM_RANGE []))) ∧
    (∀ a v, (x.role ≠ .operator → s.bwAct f x seq (.regWrite a v) = refuse Code.HE_RIGHTS) ∧
      (x.role = .operator → a.toNat % 8 ≠ 0 → s.bwAct f x seq (.regWrite a v) = refuse Code.HE_ADDR) ∧
      (x.role = .operator → a.toNat % 8 = 0 → (addrPkg a = 0 ∨ addrPkg a = s.pkg) → s.bwAct f x seq (.regWrite a v) =
        ((s.opWrite f (addrLocal a) v).1, .answer (s.opWrite f (addrLocal a) v).2 []))) ∧
    (∀ a, (x.role = .none → s.bwAct f x seq (.regRead a) = refuse Code.HE_RIGHTS) ∧
      (x.role ≠ .none → a.toNat % 8 = 0 → (addrPkg a = 0 ∨ addrPkg a = s.pkg) → s.bwAct f x seq (.regRead a) =
        ((s.opRead f (addrLocal a)).1, .answer (s.opRead f (addrLocal a)).2.1 (s.opRead f (addrLocal a)).2.2)))) ∧
  (∀ (s : State) (f seq : Nat) (x : Session), s.netBoot = true →
    (∀ a d, 0 < d.length → d.length ≤ s.bwMax f → a.toNat + d.length ≤ 2 ^ 24 → s.bwAct f x seq (.write a d) =
      ({ s with mem := memWrL s.mem (bootKey a.toNat) d }, .answer 0 [])) ∧
    (∀ a n, s.bwAct f x seq (.read a n) = (s.heCode f Code.HE_NOT_BOOT, .answer Code.HE_NOT_BOOT [])) ∧
    (∀ n, n ≤ 2 ^ 24 → s.imageCode (memRdN s.mem (bootKey 0) n) = 0 → s.canAnswer f x = true → ∃ (config : List Byte) (u : State),
      s.bwAct f x seq (.boot n) = (u.imageIn (memRdN s.mem (bootKey 0) n) config 2, .later) ∧ u.session f x.id = none) ∧
    (∀ n c, n ≤ 2 ^ 24 → s.imageCode (memRdN s.mem (bootKey 0) n) = c → c ≠ 0 →
      s.bwAct f x seq (.boot n) = (s.imageFails c, .answer c []))) ∧
  (∀ (s : State) (t : BitVec 12), (s.mayLaunch (.tenant t) = true ↔ (s.jobState = 1 ∨ s.jobState = 2) ∧ s.job.localTag = t) ∧
    (s.mayLaunch .operator = true ↔ ¬ (s.launched = true ∧ s.job.localTag ≠ 0)) ∧ s.mayLaunch .none = false)

/-- The SEC block (R654, R655, R658 to R662, R668 to R671): extending a measurement register; the fused security version is raised and never
falls; a report has 800 bytes and draws a fresh key, of which at most four are held; a key package uses up its key, and loads nothing
with one of the codes of R661; an accepted one binds the tag and loads every controller; a token is checked at a quiet IDLE point, and a
new nonce is drawn whatever the outcome; the package is unlocked once no granule is left to be retagged (that this takes time, and that
no other token is taken meanwhile, is log 47); the alias key is certified with what R656 lists. -/
def Obligations.Security : Prop :=
  (∀ s : State, s.alive = true → Sys2Proof.Machine.exec .secSvnAdvance s =
    .next (s.leave ({ s with part := { s.part with svn := max s.part.svn s.sec.svnRun } } : State).settle)) ∧
  (∀ (s : State) (r : Nat) (m x : List Byte), s.sec.mr[r]? = some m → (s.extendMr r x).sec.mr[r]? = some (sha512 (m ++ x)) ∧
    (∀ q, q ≠ r → (s.extendMr r x).sec.mr[q]? = s.sec.mr[q]?)) ∧
  (∀ (s : State) (nonce : List Byte),
    let t := (s.attestReport nonce).1
    (∃ k, (k, padTo 64 nonce) ∈ t.sec.kx) ∧ (s.sec.kx.length ≤ 4 → t.sec.kx.length ≤ 4) ∧ t.mem = s.mem ∧ t.sec.mr = s.sec.mr) ∧
  (∀ (s : State) (p : List Byte),
    let k := s.sec.kx.find? (fun x => x.1 == Config.kxNamed p)
    let t := (s.keypkg p).1
    let c := (s.keypkg p).2
    c = s.keypkgCode k p ∧ (∀ x ∈ t.sec.kx, x.1 ≠ Config.kxNamed p) ∧
    (c ≠ 0 → t.mcs = s.mcs ∧ t.sec.bind = s.sec.bind ∧ t.sec.fabric = s.sec.fabric ∧ t.mem = s.mem) ∧
    (c = 0 → (keypkgTag p, keypkgId p) ∈ t.sec.bind ∧ ∀ i < s.part.stacks, ∃ y ∈ (t.mc i).keys, y.tag = keypkgTag p)) ∧
  (∀ (s : State) (p : List Byte) (k : Nat × List Byte), s.keypkgCode none p = Code.SEC_KX_EXPIRED ∧
    (s.keypkgCode (some k) p = 0 → keypkgForm p = true ∧ s.debug = false ∧ s.sec.unlock = none ∧
      (∀ x, s.sec.bind.find? (fun x => x.1 == keypkgTag p) = some x → x.2 = keypkgId p ∧ s.quiet = true) ∧
      (s.sec.bind.find? (fun x => x.1 == keypkgTag p) = none → s.sec.bind.length < 64))) ∧
  (∀ (s : State) (b : List Byte),
    let t := (s.token b).1
    (∃ n, t.sec.nonce = padTo 64 (Config.entropy n)) ∧
    ((s.jobState ≠ 0 ∨ s.quiet = false) → (s.token b).2 = Code.SEC_NOT_QUIET ∧ t.debug = s.debug) ∧
    (s.sec.unlock ≠ none → (s.token b).2 = Code.SEC_NOT_QUIET ∧ t.debug = s.debug) ∧
    (s.jobState = 0 → s.quiet = true → s.sec.unlock = none → s.tokenOk b = false → (s.token b).2 = Code.SEC_TOKEN ∧ t.debug = s.debug) ∧
    (s.jobState = 0 → s.quiet = true → s.sec.unlock = none → s.tokenOk b = true →
      (s.token b).2 = 0 ∧ t.sec.kx = [] ∧
      (s.retags = [] → (∀ g ∈ s.tags, g.2 = 0) → t.debug = true ∧ t.rfld secStatus 16 3 = bytesAt b 6 2 ∧ t.sec.unlock = none) ∧
      ((∃ g ∈ s.tags, g.2 ≠ 0) → t.debug = s.debug ∧ t.sec.unlock = some b))) ∧
  (∀ (s : State) (b : List Byte), s.sec.unlock = some b →
    (s.retags = [] → s.unlockEnd.debug = true ∧ s.unlockEnd.rfld secStatus 16 3 = bytesAt b 6 2 ∧ s.unlockEnd.sec.unlock = none) ∧
    (s.retags ≠ [] → s.unlockEnd = s)) ∧
  (∀ s : State, ∃ k,
    let body := Config.aliasBody (s.aliasFields k)
    s.makeAlias.sec.alias_ = some k ∧ s.makeAlias.rfld secStatus 1 2 = 3 ∧
    s.makeAlias.sec.aliasCert = Config.aliasCert body (padTo 132 (Config.sign deviceKey body)))

/-! # Host ports and management -/

namespace Sys2Proof.Claims

/-- A `HELLO` with `SESSION` 0 arrives at a port of a package whose firmware runs. -/
structure HelloIn (s : State) (h : BHdr) : Prop where
  present : h.port < 2
  alive   : s.alive = true
  quiet   : s.settled = true
  link    : s.hostUp h.port = true
  runs    : 3 < s.power.phase
  notBoot : s.netBoot = false
  form    : h.fits = true ∧ h.session = 0 ∧ h.seq = 0 ∧ h.nctr = 0

/-- A session of a port of a package that can act. -/
structure SessHere (s : State) (f id : Nat) (x : Session) : Prop where
  present : f < 2
  alive   : s.alive = true
  quiet   : s.settled = true
  is      : s.session f id = some x

/-- A management request of opcode `op` at FD f, of the form of R709, with data d; u is the state without it. -/
structure MgmtIn (s : State) (f : Nat) (op : Byte) (anyAddr : Bool) (len : Nat) (x : InFrame) (d : List Byte) (u : State) : Prop where
  frame : FrameHere s f (fun o => o == op) x d u
  form  : x.frame.hdr.res = 0 ∧ x.frame.hdr.act ≠ 7 ∧ x.frame.hdr.tc = 7 ∧ x.frame.hdr.len.toNat = len ∧
    (anyAddr = false → x.frame.hdr.daddr = 0)

end Sys2Proof.Claims

/-- Sessions (R689, R694 to R698): a host whose role is granted gets a new session, one whose role is not is counted and gets none,
and a 17th none; a resend after `RTO`, and the loss of the session after eight; an acknowledgement that is due is sent; a session closes after
10 s without a datagram; a device announces itself every second, or every 10 s once an operator is there. -/
def Sys2Proof.Claims.Sessions : Prop :=
  (∀ (s : State) (h : BHdr) (b : List Byte), HelloIn s h →
    let f := h.port
    (∀ r, (s.he f).sessions.length < 16 → s.helloRole b = some r → ∃ (t : State) (keys : List Byte),
      Sys2Proof.Machine.exec (.hello h b) s = .next (s.leave t) ∧
      (t.he f).sessions = (s.he f).sessions ++ [Session.fresh (s.he f).nextSess r keys (s.now (6 + f))] ∧ t.err = s.err ∧ t.regs = s.regs) ∧
    ((s.he f).sessions.length < 16 → s.helloRole b = none → ∃ t : State, Sys2Proof.Machine.exec (.hello h b) s = .next (s.leave t) ∧
      (t.he f).sessions = (s.he f).sessions ∧ t.rfld (regAt .he f 0x40) 24 8 = (s.rfld (regAt .he f 0x40) 24 8 + 1) % 256 ∧
      t.rfld (regAt .he f 0) 32 16 = Code.HE_AUTH.toNat) ∧
    (16 ≤ (s.he f).sessions.length → ∃ t : State, Sys2Proof.Machine.exec (.hello h b) s = .next (s.leave t) ∧
      (t.he f).sessions = (s.he f).sessions ∧ t.rfld (regAt .he f 0) 32 16 = Code.HE_SESSIONS_FULL.toNat)) ∧
  (∀ (s : State) (b : List Byte), s.netBoot = false →
    (s.helloRole b = some .operator → sha512 ((b.drop 0xC8).take 133) ∈ s.part.opDigests ∧ bytesAt b 0 1 = 1) ∧
    (∀ t, s.helloRole b = some (.tenant t) → (t, sha512 ((b.drop 0xC8).take 133)) ∈ s.sec.bind ∧ bytesAt b 0 1 = 2) ∧
    (s.helloRole b = some .none → bytesAt b 0 1 = 0)) ∧
  (∀ (s : State) (f id : Nat) (x : Session), SessHere s f id x →
    let now := s.now (6 + f)
    let rto := max 1 (s.rfld (regAt .he f 0x08) 32 16) * 4000
    (∀ seq t m r, x.unack = (seq, t, m) :: r →
      (now.toNat < t.toNat + rto → Sys2Proof.Machine.exec (.buwenRto f id) s = .next (s.leave s)) ∧
      (t.toNat + rto ≤ now.toNat → 8 ≤ x.resent → Sys2Proof.Machine.exec (.buwenRto f id) s = .next (s.leave (s.loseSess f id).settle)) ∧
      (t.toNat + rto ≤ now.toNat → x.resent < 8 → Sys2Proof.Machine.exec (.buwenRto f id) s = .next (s.leave (((s.modSess f id (fun x => { x with
        unack := (seq, now, m) :: r, resent := x.resent + 1 })).bump (regAt .he f 0x40) 32 32 1).bwEmit f id seq m).settle))) ∧
    (x.unack = [] → Sys2Proof.Machine.exec (.buwenRto f id) s = .next (s.leave s)) ∧
    (x.ackDue.isSome = true → Sys2Proof.Machine.exec (.ackTimer f id) s = .next (s.leave (s.bwEmit f id 0 (.ack x.id x.rxSeq)).settle)) ∧
    (x.ackDue = none → Sys2Proof.Machine.exec (.ackTimer f id) s = .next (s.leave s)) ∧
    (x.heard.toNat + 40000000000 ≤ now.toNat → ∃ t : State, Sys2Proof.Machine.exec (.sessionIdle f id) s = .next (s.leave t) ∧
      t.session f id = none ∧ ∀ y, y ∈ (t.he f).sessions ↔ (y ∈ (s.he f).sessions ∧ y.id ≠ id)) ∧
    (now.toNat < x.heard.toNat + 40000000000 → Sys2Proof.Machine.exec (.sessionIdle f id) s = .next (s.leave s)) ∧
    (x.txCtr < 0xFFFFFFFF → ∀ seq m, s.bwEmit f id seq m = (s.modSess f id (fun x => { x with
      txCtr := x.txCtr + 1, ackDue := none })).hostSend f (.gram id seq x.rxSeq (x.txCtr + 1) m)) ∧
    (0xFFFFFFFF ≤ x.txCtr → ∀ seq m, s.bwEmit f id seq m = s.loseSess f id)) ∧
  (∀ (s : State) (f : Nat), f < 2 → PkgHere s → s.hostUp f = true → 2 ≤ s.power.phase →
    let wait := if s.operatorHere then 40000000000 else 4000000000
    ((∀ t, (s.he f).lastAnn = some t → t.toNat + wait ≤ (s.now (6 + f)).toNat) → ∃ t : State,
      Sys2Proof.Machine.exec (.announce f) s = .next (s.leave t) ∧ (t.he f).lastAnn = some (s.now (6 + f)) ∧
      (s.hostPaused f = false → ∃ b l, (t.he f).out = (s.he f).out ++ .announce false b :: l)) ∧
    (∀ t, (s.he f).lastAnn = some t → (s.now (6 + f)).toNat < t.toNat + wait →
      Sys2Proof.Machine.exec (.announce f) s = .next (s.leave s)))

/-- The host port and the management channel (R666, R682, R684, R703, R709 to R711, R713, R743): a pause holds messages back until it ends;
control frames for an address of the port are answered; link changes show in `HE_STATUS`; a management request acts only with the key
and from a manager, else it is answered with `HE_MGMT_KEY` and counted; the operator paths reach registers outside the SEC
block, and in a tenant job only what R666 leaves them. -/
def Sys2Proof.Claims.Management : Prop :=
  (∀ (s : State) (f prio : Nat), f < 2 → PkgHere s →
    (∃ t : State, Sys2Proof.Machine.exec (.pfcPause f prio true) s = .next (s.leave t) ∧ (t.he f).paused.contains prio = true) ∧
    (∃ t : State, Sys2Proof.Machine.exec (.pfcPause f prio false) s = .next (s.leave t) ∧
      ((s.he f).paused = [prio] → prio = s.rfld (regAt .he f 0x08) 29 3 → s.hostUp f = true →
        (t.he f).stalled = [] ∧ (t.he f).out = (s.he f).out ++ (s.he f).stalled)) ∧
    (∀ m, (s.hostPaused f = true → s.hostSend f m = s.setHe f { s.he f with stalled := (s.he f).stalled ++ [m] }) ∧
      (s.hostPaused f = false → s.hostUp f = true → s.hostSend f m = s.setHe f { s.he f with out := (s.he f).out ++ [m] }) ∧
      (s.hostPaused f = false → s.hostUp f = false → s.hostSend f m = s)) ∧
    (∀ x : CtlFrame,
      let mine := match x with
        | .arp t => s.ownV4 f t
        | .neighbour t => s.ownV6 f t
        | .echo4 t _ => s.ownV4 f t
        | .echo6 t _ => s.ownV6 f t
      (s.hostUp f = true → mine = true → Sys2Proof.Machine.exec (.hostControlFrame f x) s = .next (s.leave (s.hostSend f (.control x)))) ∧
      ((s.hostUp f = false ∨ mine = false) → Sys2Proof.Machine.exec (.hostControlFrame f x) s = .next (s.leave s))) ∧
    (∃ t : State, Sys2Proof.Machine.exec (.hostLinkUp f) s = .next (s.leave t) ∧ t.hostUp f = true) ∧
    (s.hostUp f = true → ∃ (t : State) (r : Rec), Sys2Proof.Machine.exec (.hostLinkDown f) s = .next (s.leave t.settle) ∧
      t.rfld (regAt .he f 0) 0 2 = 0 ∧ t.rfld (regAt .he f 0) 32 16 = Code.HE_LINK_DOWN.toNat ∧ t.err.fresh = [r] ∧
      r.code = Code.HE_LINK_DOWN ∧ r.kind = 6 ∧ r.unit = uHost ∧ r.index = f)) ∧
  (∀ (s u : State) (f : Nat) (x : InFrame) (d : List Byte),
    let h := x.frame.hdr
    (MgmtIn s f 0x70 true 8 x d u → u.keyed f h = true → Sys2Proof.Machine.exec (.mregRead f) s = .next (s.leave
      ((u.opRead f h.daddr.toNat).1.answerReq f h opRESP (u.opRead f h.daddr.toNat).2.1 (u.opRead f h.daddr.toNat).2.2).settle)) ∧
    (MgmtIn s f 0x71 true 8 x d u → u.keyed f h = true → Sys2Proof.Machine.exec (.mregWrite f) s = .next (s.leave
      ((u.opWrite f h.daddr.toNat (word64 d 0)).1.answerReq f h opRESP (u.opWrite f h.daddr.toNat (word64 d 0)).2 []).settle)) ∧
    (MgmtIn s f 0x72 false 0 x d u → u.keyed f h = true → Sys2Proof.Machine.exec (.mreset f) s = .next (s.leave (({ u.answerReq f h opRESP 0 []
      with power := { (u.answerReq f h opRESP 0 []).power with
        after := some (false, mkFrame (respHdr h (u.answerReq f h opRESP 0 []).pkg opRESP 0 0) []) } } : State)).settle)) ∧
    (MgmtIn s f 0x73 false 4 x d u → u.keyed f h = true → Sys2Proof.Machine.exec (.mtear f) s = .next (s.leave
      ((u.teardown (BitVec.ofNat 32 (bytesAt d 0 4)) none).1.answerReq f h opRESP
        (u.teardown (BitVec.ofNat 32 (bytesAt d 0 4)) none).2 []).settle)) ∧
    (MgmtIn s f 0x7E false 0 x d u → u.keyed f h = true → Sys2Proof.Machine.exec (.snuff f) s = .next (s.leave (({ u.answerReq f h opRESP 0 []
      with power := { (u.answerReq f h opRESP 0 []).power with
        after := some (true, mkFrame (respHdr h (u.answerReq f h opRESP 0 []).pkg opRESP 0 0) []) } } : State)).settle)) ∧
    (∀ (c : Nat → Instr) (op : Byte) (any : Bool) (len : Nat), (c, op, any, len) ∈ ([(.mregRead, 0x70, true, 8), (.mregWrite, 0x71, true, 8),
        (.mreset, 0x72, false, 0), (.mtear, 0x73, false, 4), (.snuff, 0x7E, false, 0)] : List ((Nat → Instr) × Byte × Bool × Nat)) →
      MgmtIn s f op any len x d u → u.keyed f h = false → Sys2Proof.Machine.exec (c f) s = .next (s.leave
        (((u.bump (regAt .he f 0x40) 16 8 1).heCode f Code.HE_MGMT_KEY).answerReq f h opRESP Code.HE_MGMT_KEY []).settle))) ∧
  (∀ (s : State) (f : Nat) (h : JHdr), s.keyed f h = true ↔ (s.reg (regAt .he f 0x38) ≠ 0 ∧ h.arg = s.reg (regAt .he f 0x38) ∧
    ∃ j < 4, bit (s.reg (regAt .he f 0x30)) (16 * j + 15) = true ∧ fld (s.reg (regAt .he f 0x30)) (16 * j) 14 = h.spkg.toNat)) ∧
  (∀ s : State, s.power.after = none → s.runAfter = s) ∧
  (∀ (s : State) (fz : Bool) (x : JFrame), s.power.after = some (fz, x) →
    (s.answerWaits x = true → s.runAfter = s) ∧
    (s.answerWaits x = false → s.runAfter = if fz then ({ s with power := { s.power with after := none } } : State).freeze
      else ({ s with power := { s.power with after := none } } : State).packageReset)) ∧
  (∀ s : State, s.freeze.power.frozen = true ∧ s.freeze.alive = false ∧ s.freeze.mem = s.mem ∧ s.freeze.regs = s.regs) ∧
  (∀ (s : State) (a : Nat) (w : Bool) (b : Blk) (i o : Nat), s.region a = .reg b i o → a % 8 = 0 →
    (s.tenantJob = true → tenantBlocked b o w = true → s.opReg a w = .inr Code.SEC_TENANT_STATE) ∧
    (s.tenantJob = false → b = .sec → s.opReg a w = .inr Code.HE_ADDR) ∧
    ((s.tenantJob = false ∨ tenantBlocked b o w = false) → b ≠ .sec → b ≠ .bootBuf → b ≠ .bootRom → s.opReg a w = .inl (b, i, o))) ∧
  (∀ (s : State) (a : Nat) (w : Bool),
    (a % 8 ≠ 0 → s.opReg a w = .inr Code.HE_ADDR) ∧
    (a % 8 = 0 → ∀ n o, (s.region a = .font n o ∨ s.region a = .imem n o) →
      s.opReg a w = .inr (if s.tenantJob then Code.SEC_TENANT_STATE else Code.HE_ADDR)) ∧
    (a % 8 = 0 → ∀ x, s.region a = .hbm x →
      s.opReg a w = .inr (if s.tenantJob ∧ s.tagOf x ≠ 0 then Code.MC_TENANT else Code.HE_ADDR)) ∧
    (a % 8 = 0 → s.region a = .unmapped → s.opReg a w = .inr Code.HE_ADDR))

/-! # Errors, debug and registers -/

namespace Sys2Proof.Claims

/-- The JTAG port answers, and nothing is left to be done. -/
structure TapHere (s : State) : Prop where
  powered : s.power.powered = true
  out     : s.power.pinReset = false
  quiet   : s.settled = true

/-- What a JTAG instruction that leads to t answers: while the package is frozen no record is written. -/
def tapEnds (s t : State) : Host.Outcome State Fault Refusal :=
  .next (s.leave (if t.alive then t.settle else { t with err := { t.err with fresh := [] } }))

/-- The core c can be told to halt: it is there, debug is unlocked with the scope of R747, and nothing is left to be done. -/
structure HaltHere (s : State) (c : Nat) : Prop where
  core     : c < s.part.sc ∧ c < 128
  alive    : s.alive = true
  quiet    : s.settled = true
  unlocked : s.haltOk = true

end Sys2Proof.Claims

/-- Records, warnings and budgets (R717 to R723, R730, R731, R733, R750): a record has 64 bytes; without a ring it is kept, up to 16, with
`LATE`, and further ones are counted; with one it is written at its number's place, its number last, as memory lets it, and kept on
chip where memory refuses it; the write that enables a ring writes what was kept first;
the count that reaches a threshold raises one warning; every window starts the counts again; a period refills every level up to its
budget. -/
def Sys2Proof.Claims.ErrorRecords : Prop :=
  (∀ (r : Rec) (n : Nat), (recBytes r n).length = 64 ∧ leNat ((recBytes r n).take 2) = r.code.toNat ∧
    leNat (((recBytes r n).drop 8).take 8) = r.time.toNat) ∧
  (∀ (s : State) (r : Rec),
    let held := s.err.held.get [] r.die
    ((s.ring r.die).queue = [] → s.ringOn r.die = false → held.length < 16 →
      (s.writeRec r).err.held.get [] r.die = held ++ [{ r with late := true }] ∧ (s.writeRec r).mem = s.mem) ∧
    ((s.ring r.die).queue = [] → s.ringOn r.die = false → 16 ≤ held.length → s.writeRec r = s.bump (ringReg r.die 0x10) 32 32 1) ∧
    (s.ring r.die = Ring.reset → s.ringOn r.die = true → ∀ t p,
      let n := (s.rfld (ringReg r.die 0x10) 0 32 + 1) % 2 ^ 32
      let writing : Ring := ⟨[r], some n, s.ringPieces r.die n r, 0, false⟩
      (s.setRing r.die writing).put (ringReq r.die) (fun _ _ => .ring r.die) (s.ringPieces r.die n r) 0 0 = (t, p) →
      (p.code = none → p.rest = [] → p.held = 0 → ∃ u : State, s.writeRec r = u.ringStands r.die n r ∧
        u.ring r.die = Ring.reset ∧ u.mem = t.mem ∧ u.regs = t.regs) ∧
      (p.code = none → (p.rest ≠ [] ∨ p.held ≠ 0) → (s.writeRec r).ring r.die = ⟨[r], some n, p.rest, p.held, false⟩ ∧
        (s.writeRec r).mem = t.mem ∧ (s.writeRec r).regs = t.regs) ∧
      (p.code.isSome = true → p.held = 0 → ∃ u : State, s.writeRec r = u.holdRec r ∧ u.ring r.die = Ring.reset ∧ u.mem = t.mem ∧
        u.regs = (t.setRfld (ringReg r.die 0) 0 1 0).regs))) ∧
  (∀ (s : State) (d n : Nat) (r : Rec),
    let size := s.rfld (ringReg d 0x08) 0 5
    let slot := fld (s.reg (ringReg d 0)) 6 44 * 64 + ((n + 2 ^ 32 - 1) % 2 ^ size) * 64
    let ahead := (s.rfld (ringReg d 0x10) 0 32 + 2 ^ 32 - s.rfld (ringReg d 0x18) 0 32) % 2 ^ 32
    let told := fun (u : State) => ((u.setRfld (ringReg d 0x10) 0 32 n).eventOps 3 (recBytes r n)).errInterrupt d
    s.ringPieces d n r = [(wd slot, (recBytes r n).take 56), (wd (slot + 56), (recBytes r n).drop 56)] ∧
    (ahead < 2 ^ size → s.ringStands d n r = told s) ∧
    (2 ^ size ≤ ahead → ahead < 2 ^ 31 → s.ringStands d n r = told (s.bump (ringReg d 0x10) 32 32 1))) ∧
  (∀ (s : State) (d : Nat) (v : Word), d < 8 → PkgHere s →
    let a := fld v 6 44 * 64
    let len := 2 ^ s.rfld (ringReg d 0x08) 0 5 * 64
    let base := s.setReg (ringReg d 0) (v &&& wd (mask 49 6 + 1))
    (bit v 0 = false → Sys2Proof.Machine.exec (.dbgRingBaseWrite d v) s = .next (s.leave (base.runRing d).settle)) ∧
    (bit v 0 = false → s.ring d = Ring.reset → base.runRing d = base) ∧
    (bit v 0 = true → s.ringOn d = false → a % len = 0 → a + len ≤ s.part.hbm →
      Sys2Proof.Machine.exec (.dbgRingBaseWrite d v) s = .next (s.leave ((({ base with err := { base.err with held := base.err.held.set d [] } }
        : State).setRing d { s.ring d with queue := s.err.held.get [] d ++ (s.ring d).queue }).runRing d).settle)) ∧
    (bit v 0 = true → (s.ringOn d = true ∨ a % len ≠ 0 ∨ s.part.hbm < a + len) →
      Sys2Proof.Machine.exec (.dbgRingBaseWrite d v) s = .next (s.leave (s.setRfld (regAt .dbg 0 0) 32 16 Code.DBG_REG_VALUE.toNat)))) ∧
  (∀ s : State, PkgHere s →
    Sys2Proof.Machine.exec .warningWindow s = .next (s.leave { s with err := { s.err with warns := [] } }) ∧
    ∃ t : State, Sys2Proof.Machine.exec .budgetPeriod s = .next (s.leave t) ∧ ∀ r a, r < 76 → a < 7 →
      s.budgetOf r a < 2 ^ 31 →
      sfld (t.reg (budgetReg r a)) 32 32 = min (sfld (s.reg (budgetReg r a)) 32 32 + (s.budgetOf r a : Int)) (s.budgetOf r a : Int) ∧
      t.rfld (budgetReg r a) 0 32 = s.rfld (budgetReg r a) 0 32) ∧
  (∀ (s : State) (cls unit : Nat) (r : Rec),
    let n := countOf s.err.warns (cls, unit) + 1
    (n = s.warnTh cls → (s.raiseWarn cls unit r).rfld (regAt .dbg 0 0) 0 1 = 1 ∧
      ∃ x : Rec, x ∈ (s.raiseWarn cls unit r).err.fresh ∧ x.code = r.code ∧ x.flags = r.flags ||| 1) ∧
    (n ≠ s.warnTh cls → (s.raiseWarn cls unit r).regs = s.regs ∧ (s.raiseWarn cls unit r).err.fresh = s.err.fresh ++ [r]))

/-- Self-tests and retirement (R724 to R729): a test that may run starts, a port leaving UP for it; its end is a record of the verdict, and a
lasting fault marks the unit; a job mapping at a quiet IDLE point gives each retired unit the lowest spare of its class and die, and
degrades the package where there is none. -/
def Sys2Proof.Claims.SelfTests : Prop :=
  (∀ (s : State) (i : Nat) (t : Test), PkgHere s → s.err.tests[i]? = some t →
    let on : State := { s with err := { s.err with tests := modAt s.err.tests i (fun t => { t with running := true }) } }
    ((t.running = true ∨ s.mayTest t = false) → Sys2Proof.Machine.exec (.selfTest i) s = .next (s.leave s)) ∧
    (t.running = false → s.mayTest t = true → t.unit ≠ uPort → Sys2Proof.Machine.exec (.selfTest i) s = .next (s.leave on)) ∧
    (t.running = false → s.mayTest t = true → t.unit = uPort → s.portUp t.index = true →
      Sys2Proof.Machine.exec (.selfTest i) s = .next (s.leave (on.leaveUp t.index).settle)) ∧
    (t.running = false → s.mayTest t = true → t.unit = uPort → s.portUp t.index = false →
      Sys2Proof.Machine.exec (.selfTest i) s = .next (s.leave (on.setPortState t.index 0))) ∧
    (∀ lasting, t.running = false → Sys2Proof.Machine.exec (.selfTestDone i lasting) s = .next (s.leave s)) ∧
    (∀ lasting, t.running = true → (lasting = true ∨ s.threeHits t = true) → ∃ (u : State) (r : Rec),
      Sys2Proof.Machine.exec (.selfTestDone i lasting) s = .next (s.leave u.settle) ∧ r ∈ u.err.fresh ∧ r.kind = 3 ∧ r.test = 3 ∧
        r.unit = t.unit ∧ r.index = t.index ∧ u.err.tests = s.err.tests.eraseIdx i ∧
        (∀ b, t.unit ≠ uPort → t.unit ≠ uMc → b < 1024 → s.mapBit t.unit t.index = some b → u.err.retired.getLsbD b = true)) ∧
    (t.running = true → s.threeHits t = false → ∃ (u : State) (r : Rec),
      Sys2Proof.Machine.exec (.selfTestDone i false) s = .next (s.leave u.settle) ∧ u.err.fresh = [r] ∧ r.kind = 3 ∧ r.test = 2 ∧
        r.unit = t.unit ∧ r.index = t.index ∧ u.err.tests = s.err.tests.eraseIdx i ∧ u.err.retired = s.err.retired)) ∧
  (∀ (s : State) (lo per b x : Nat), lo ≤ b → b < 1024 → x < 1024 →
    (spareFor s.part.spare lo per b = some x →
      let t := s.replaceUnit lo per b
      s.part.spare.getLsbD x = true ∧ (x - lo) / per = (b - lo) / per ∧ t.part.spare.getLsbD x = false ∧ t.err.retired.getLsbD b = false ∧
      t.part.dumap.getLsbD x = false ∧ (x ≠ b → t.part.dumap.getLsbD b = true)) ∧
    (spareFor s.part.spare lo per b = none → s.replaceUnit lo per b = s.setRfld (regAt .dbg 0 0) 1 1 1)) ∧
  (∀ s : State, PkgHere s →
    ((s.jobState ≠ 0 ∨ s.atRest = false) → Sys2Proof.Machine.exec .jobMapping s = .next (s.leave s)) ∧
    (s.jobState = 0 → s.atRest = true → s.err.retired = 0 → s.err.rows = [] →
      Sys2Proof.Machine.exec .jobMapping s = .next (s.leave (s.setRfld (regAt .dbg 0 0) 2 1 0))) ∧
    (s.jobState = 0 → s.atRest = true → Sys2Proof.Machine.exec .jobMapping s = .next (s.leave s.jobMapping.settle)))

/-- JTAG and the freeze (R667, R743 to R747): each instruction's data register; on a locked package chains read zero and the bridge refuses
with `SEC_LOCKED`; a core halts, resumes, steps and takes register writes only when unlocked; the freeze pin stops everything and
changes no register or memory. -/
def Sys2Proof.Claims.Jtag : Prop :=
  (∀ s : State, TapHere s →
    let out := fun (l : List Bool) => ({ s with jtag := { s.jtag with out := l } } : State)
    Sys2Proof.Machine.exec .idcode s = .next (s.leave (out s.idcode)) ∧
    (∀ b, Sys2Proof.Machine.exec (.bypass b) s = .next (s.leave (out [false]))) ∧
    (∀ v, Sys2Proof.Machine.exec (.scanSel v) s = .next (s.leave { s with jtag := { s.jtag with sel := v } })) ∧
    (∀ a, Sys2Proof.Machine.exec (.memAddr a) s = .next (s.leave { s with jtag := { s.jtag with addr := a } })) ∧
    (∀ bits, ∃ l free, Sys2Proof.Machine.exec (.extest bits) s = .next (s.leave { s with
      jtag := { s.jtag with pins := bits, out := l }, free := free }) ∧ l.length = bits.length) ∧
    (∀ bits, ∃ l free, Sys2Proof.Machine.exec (.samplePreload bits) s = .next (s.leave { s with
      jtag := { s.jtag with pre := bits, out := l }, free := free }) ∧ l.length = bits.length) ∧
    (∀ bits, (s.unlocked = false ∨ s.scope 0 = false) → Sys2Proof.Machine.exec (.scanDr bits) s =
      .next (s.leave (out (List.replicate bits.length false)))) ∧
    (∀ bits, s.unlocked = true → s.scope 0 = true → ∃ l free, Sys2Proof.Machine.exec (.scanDr bits) s = .next (s.leave { s with
      jtag := { s.jtag with out := l }, free := free }) ∧ l.length = bits.length) ∧
    (∀ wr d, (s.unlocked = false ∨ s.scope 1 = false) → Sys2Proof.Machine.exec (.memData wr d) s = .next (s.leave { s with
      jtag := { s.jtag with out := List.replicate 512 false, code := Code.SEC_LOCKED } })) ∧
    (∀ wr d, s.unlocked = true → s.scope 1 = true →
      let a := addrLocal s.jtag.addr / 64 * 64
      let (k, off) := s.mapAddr a
      let x := s.bridgeAccess wr a (padTo 64 d)
      ((∀ y, s.region a ≠ .hbm y) → Sys2Proof.Machine.exec (.memData wr d) s = tapEnds s (s.tapOut [])) ∧
      (∀ y b, s.region a = .hbm y → x.2 = .done b →
        Sys2Proof.Machine.exec (.memData wr d) s = tapEnds s ((x.1.tapOut (bitsOf 512 (leNat b))).tapCode 0)) ∧
      (∀ y c, s.region a = .hbm y → x.2 = .refused c →
        Sys2Proof.Machine.exec (.memData wr d) s = tapEnds s ((x.1.tapOut (List.replicate 512 false)).tapCode c)) ∧
      (∀ y, s.region a = .hbm y → x.2 = .wait → Sys2Proof.Machine.exec (.memData wr d) s = tapEnds s x.1) ∧
      (s.power.frozen = true → s.tagCheck 13 0 a k = none → s.bridgeAccess true a (padTo 64 d) = (s.unitWrite k off a (padTo 64 d), .done []))) ∧
    (s.unlocked = false → ∀ wr v, Sys2Proof.Machine.exec (.regData wr v) s = .next (s.leave { s with
        jtag := { s.jtag with out := List.replicate 64 false, code := Code.SEC_LOCKED } })) ∧
    (s.unlocked = true → (∀ b i o, s.region (addrLocal s.jtag.addr / 8 * 8) ≠ .reg b i o) → ∀ wr v,
      Sys2Proof.Machine.exec (.regData wr v) s = .next (s.leave (out []))) ∧
    (s.unlocked = true → ∀ b i o, s.region (addrLocal s.jtag.addr / 8 * 8) = .reg b i o → (b = .sec ∨ b = .bootBuf ∨ b = .bootRom) →
      ∀ wr v, Sys2Proof.Machine.exec (.regData wr v) s = .next (s.leave (out []))) ∧
    (∀ (b : Blk) (i o : Nat), s.region (addrLocal s.jtag.addr / 8 * 8) = .reg b i o → b ≠ .sec → b ≠ .bootBuf → b ≠ .bootRom →
      (s.bridgeMay b o = false → ∀ wr v, Sys2Proof.Machine.exec (.regData wr v) s = .next (s.leave { s with
        jtag := { s.jtag with out := List.replicate 64 false, code := Code.SEC_LOCKED } })) ∧
      (s.bridgeMay b o = true → ∀ v,
        Sys2Proof.Machine.exec (.regData true v) s = tapEnds s ((s.regWrite false b i o v).1.tapCode (s.regWrite false b i o v).2) ∧
        Sys2Proof.Machine.exec (.regData false v) s = tapEnds s (((s.regRead b i o).1.tapOut (bitsOf 64 (s.regRead b i o).2.toNat)).tapCode 0)))) ∧
  (∀ (s : State) (c : Nat), HaltHere s c →
    (∃ t : State, Sys2Proof.Machine.exec (.dbgHalt c) s = .next (s.leave t) ∧ (t.sc c).halted = true ∧ ∀ k, k ≠ c → t.sc k = s.sc k) ∧
    (∃ t : State, Sys2Proof.Machine.exec (.dbgResume c) s = .next (s.leave t) ∧ (t.sc c).halted = false ∧ ∀ k, k ≠ c → t.sc k = s.sc k) ∧
    ((s.sc c).halted = true → ∃ t : State, Sys2Proof.Machine.exec (.dbgStep c) s = .next (s.leave t) ∧
      t.sc c = { s.sc c with halted := false, stepping := true } ∧ ∀ k, k ≠ c → t.sc k = s.sc k) ∧
    (∀ v, s.dbgSel.1 = c → (s.sc c).halted = true → ∃ t : State, Sys2Proof.Machine.exec (.dbgScregWrite v) s = .next (s.leave t) ∧
      t.sc c = (s.sc c).setDbgReg s.dbgSel.2 v ∧ (∀ k, k ≠ c → t.sc k = s.sc k) ∧ t.mem = s.mem)) ∧
  (∀ (s : State) (c : Nat), c < s.part.sc → PkgHere s → s.haltOk = false →
    let locked := s.setRfld (regAt .dbg 0 0) 32 16 Code.SEC_LOCKED.toNat
    Sys2Proof.Machine.exec (.dbgHalt c) s = .next (s.leave locked) ∧ Sys2Proof.Machine.exec (.dbgResume c) s = .next (s.leave locked) ∧
    Sys2Proof.Machine.exec (.dbgStep c) s = .next (s.leave locked) ∧ ∀ v, Sys2Proof.Machine.exec (.dbgScregWrite v) s = .next (s.leave locked)) ∧
  (∀ s : State, PkgHere s → Sys2Proof.Machine.exec .snuffN s = .next (s.leave s.freeze))

/-- Registers (R7 to R10, R203, R810): a read clears the RC bits of a register to their reset value and no other bit; a typed write
sets the RW bits, the RWL bits while no job is launched, clears the W1C bits that it writes as 1, and leaves the rest; wick memory
takes no write while the element engine is busy. -/
def Sys2Proof.Claims.Registers : Prop :=
  (∀ (s : State) (a : Word) (b : Blk) (i o : Nat), PkgHere s → s.region a.toNat = .reg b i o → o % 8 = 0 →
    let d := regDef b i o
    let x := s.reg (regAt b i o)
    (s.absent b i = false → d.rc ≠ 0 → Sys2Proof.Machine.exec (.rcRead a) s =
      .next (s.leave (s.setReg (regAt b i o) ((x &&& ~~~ (wd d.rc)) ||| (wd d.reset &&& wd d.rc))))) ∧
    ((s.absent b i = true ∨ d.rc = 0) → Sys2Proof.Machine.exec (.rcRead a) s = .next (s.leave s)) ∧
    (∀ v, Sys2Proof.Machine.exec (.registerWrite a v) s = .next (s.leave (s.regWrite true b i o v).1.settle)) ∧
    (∀ v, (b = .clk ∨ b = .ll ∨ b = .dsp ∨ b = .cu ∨ b = .se ∨ b = .sys) → s.absent b i = false →
      let m := wd (d.rw ||| (if s.launched then 0 else d.rwl))
      Sys2Proof.Machine.exec (.registerWrite a v) s =
        .next (s.leave (s.setReg (regAt b i o) (((x &&& ~~~ m) ||| (v &&& m)) &&& ~~~ (v &&& wd d.w1c)))))) ∧
  (∀ (s : State) (n off : Nat) (v : Word), n < s.part.clusters → PkgHere s → off % 8 = 0 → off < 0x800 →
    ((s.cl n).eeBusy = false → Sys2Proof.Machine.exec (.wickMemoryWrite n off v) s =
      .next (s.leave { s with mem := memWrL s.mem (wickKey n off) (leBytes 8 v.toNat) })) ∧
    ((s.cl n).eeBusy = true → Sys2Proof.Machine.exec (.wickMemoryWrite n off v) s =
      .next (s.leave (s.setRfld (clReg n 0x3000) 16 16 Code.CL_WICK_BUSY.toNat))))

/-! # Power, clocks and start-up; the block as a whole -/

namespace Sys2Proof.Claims

/-- What a reset keeps over a state in which all else is as `base` (R774): fuses, what has been sent, the numbers that do not come again,
and that the valley is lost; the nonce is drawn anew (logs 23 and 47, the model's choices). -/
def keptOver (s base : State) (nonce : List Byte) (free : Nat) : State :=
  { base with
    part := s.part, wire := s.wire, hosts := s.hosts.map (fun x => (x.1, x.2.after)), free := free
    sec := { base.sec with sealCtr := s.sec.sealCtr, nonce := nonce }
    valleyLost := s.valleyLost, valleyOwn := s.valleyLost }

/-- What a pin or package reset leaves (R774): the records that the processor dies hold, and the state of the attempts; `keep` keeps the
time bases of the processor dies (a failed attempt leaves their uncores running, R778). -/
def afterReset (s : State) (keep : Bool) (nonce : List Byte) (free : Nat) : State :=
  keptOver s { State.reset with
    time := if keep then s.time.filter (fun x => x.1 == 4 || x.1 == 5) else []
    err := { State.reset.err with held := [4, 5].filterMap (fun d => if s.heldRecs d = [] then none else some (d, s.heldRecs d)) }
    power := { State.reset.power with
      powered := s.power.powered, attempts := s.power.attempts, fails := s.power.fails, lastFail := s.power.lastFail } } nonce free

/-- The attempt under way has failed with code c (R775, R778): everything but the processor uncores is reset, the code is a record, and
the next attempt waits min(2^(f − 1), 60) s, where f counts the failures in a row. -/
structure AttemptFailed (s t : State) (c : BitVec 16) : Prop where
  phase    : t.power.phase = 0
  attempts : t.power.attempts = s.power.attempts
  fails    : t.power.fails = s.power.fails + 1
  backoff  : t.power.backoff = some (s.now s.bootDie, s.now s.bootDie + wd (min (2 ^ s.power.fails) 60 * 4000000000))
  units    : t.clusters = [] ∧ t.cores = [] ∧ t.disps = [] ∧ t.tags = [] ∧ (∃ nonce, t.sec = { State.reset.sec with
    sealCtr := s.sec.sealCtr, nonce := nonce }) ∧ t.job = State.reset.job
  record   : ∃ r, t.err.fresh = [r] ∧ r.code = c ∧ r.die = s.bootDie

/-- A write of `PWR_DOMAIN` that would switch domain k is refused (R757, R758). -/
def domainRefused (s : State) (v : Word) (k : Nat) : Prop :=
  (16 ≤ k ∧ k < 20) ∨ (24 ≤ k ∧ k < 26) ∨ 30 ≤ k ∨
  (bit v k = false ∧
    ((k < 16 ∧ ∃ n, n < s.part.clusters ∧ s.part.physCl n / 52 = k ∧ ((s.cl n).st = .running ∨ (s.cl n).pendingLl = true)) ∨
     (20 ≤ k ∧ k < 24 ∧ s.bootCore ∈ s.coresOfHalf (k - 20)) ∨
     (k = 26 ∧ (s.portUp 18 = false ∨ bit v 28 = false)) ∨ (k = 28 ∧ (s.portUp 0 = false ∨ bit v 26 = false))))

/-- A cause other than the ceiling holds die d down after a junction reading (R763). -/
def holdsDown (s : State) (d tj : Nat) : Prop :=
  100 < tj ∨ (97 ≤ tj ∧ d ∈ s.power.hotTj) ∨
  (d < 4 ∧ (s.power.overP = true ∨ d ∈ s.power.overI ∨ ∃ i, i < s.part.stPerAd ∧ 2 ≤ s.rfld (regAt .mc (d * s.part.stPerAd + i) 0) 8 2))

end Sys2Proof.Claims

/-- Resets (R753, R769, R770, R773, R774): a power-on reset leaves only the fuses and samples the strap; a pin or package reset leaves also
the attempt count, the back-off state and the records that the processor dies hold; a firmware release starts the cores that wait. -/
def Obligations.Resets : Prop :=
  (∀ (s : State) (strap : Bool),
    (∃ nonce free, Sys2Proof.Machine.exec (.pwrokRise strap) s =
      .next (s.leave (keptOver { s with part := { s.part with strapOut := strap } } State.reset nonce free))) ∧
    (∃ nonce free, Sys2Proof.Machine.exec .powerRemoved s = .next (s.leave { keptOver s State.reset nonce free with
      power := { State.reset.power with powered := false } }))) ∧
  (∀ s : State, s.power.powered = true → s.power.shutdown = false →
    (∃ nonce free, let t := afterReset s false nonce free
      Sys2Proof.Machine.exec (.resetN true) s = .next (s.leave { t with power := { t.power with pinReset := true } })) ∧
    Sys2Proof.Machine.exec (.resetN false) s = .next (s.leave { s with power := { s.power with pinReset := false } })) ∧
  (∀ (s : State) (low : Bool), s.power.powered = false ∨ s.power.shutdown = true →
    Sys2Proof.Machine.exec (.resetN low) s = .next (s.leave s)) ∧
  (∀ s : State, PkgHere s →
    (∃ nonce free, Sys2Proof.Machine.exec .pwrCtrlReset s = .next (s.leave (afterReset s false nonce free))) ∧
    (∃ t : State, Sys2Proof.Machine.exec .pwrCtrlRelease s = .next (s.leave t) ∧ t.regs = s.regs ∧ t.mem = s.mem ∧ ∀ c, c < s.part.sc →
      t.sc c = if (s.sc c).run = true ∨ (s.sc c).stopped = true ∨ s.coreOn c = false then s.sc c
        else { Core.reset with pc := s.reg (regAt .pwr 0 0x40), run := true }) ∧
    (∀ d, d < 8 → ∃ t u nonce free, Sys2Proof.Machine.exec (.pllUnlock d) s = .next (s.leave t) ∧ t = afterReset u false nonce free ∧
      u = (s.setRfld (regAt .pwr 0 0) 32 16 Code.CLK_PLL_UNLOCK.toNat).writeRec (s.rec0 d uPower d Code.CLK_PLL_UNLOCK 0)) ∧
    (∀ i, i < 2 → ∃ t u nonce free, Sys2Proof.Machine.exec (.refclkLost i) s = .next (s.leave t) ∧ t = afterReset u false nonce free ∧
      u = (s.setRfld (regAt .pwr 0 0) 32 16 Code.CLK_REF_LOST.toNat).writeRec (s.rec0 (4 + i) uPower (4 + i) Code.CLK_REF_LOST 0))) ∧
  (State.reset.alive = true ∧ State.reset.power.phase = 0 ∧ State.reset.jobState = 0 ∧ State.reset.sec.alias_ = none ∧
    State.reset.sec.fabric = [] ∧ State.reset.tags = [] ∧ (∀ n, (State.reset.cl n).st = .empty) ∧ (∀ c, (State.reset.sc c).run = false) ∧
    ∀ p, p < 36 → State.reset.portState p = 0)

/-- Power domains (R757 to R760): a write that a case of R758 forbids changes nothing but the code; else each domain that loses its bit is
switched off and each that gains one is on 20 µs later; what switching a quadrant, a half of the cores or a bank off does; and what
reaching full operation starts. -/
def Sys2Proof.Claims.PowerDomains : Prop :=
  (∀ (s : State) (v : Word), PkgHere s →
    let old := s.reg (regAt .pwr 0 0x10)
    let changed := (upTo 44).filter (fun k => bit old k != bit v k)
    ((∃ k ∈ changed, domainRefused s v k) → Sys2Proof.Machine.exec (.pwrDomainWrite v) s =
      .next (s.leave (s.setRfld (regAt .pwr 0 0) 32 16 Code.PWR_DOMAIN_BUSY.toNat))) ∧
    ((∀ k ∈ changed, ¬ domainRefused s v k) → ∃ t : State,
      Sys2Proof.Machine.exec (.pwrDomainWrite v) s = .next (s.leave t.settle) ∧ t.reg (regAt .pwr 0 0x10) = wd (fld v 0 44) ∧
      (∀ k ∈ changed, bit v k = true → (k, s.now 4 + 80000) ∈ t.power.turningOn ∧ t.domainOn k = false) ∧
      ((∀ k ∈ changed, bit v k = true) → t.clusters = s.clusters ∧ t.cores = s.cores ∧ t.mem = s.mem ∧ t.err = s.err) ∧
      (∀ k, changed = [k] → bit v k = false → t = { (s.domainOff k).setReg (regAt .pwr 0 0x10) (wd (fld v 0 44)) with power := t.power }))) ∧
  (∀ (s : State) (k : Nat), k < 16 → ∀ n, n < s.part.clusters →
    if s.part.physCl n / 52 = k then ((s.domainOff k).cl n).st = .empty ∧
      (∀ o, o < 0x100000 → memRd (s.domainOff k).mem (fontKey n o) = 0) ∧ (∀ o, o < 0x8000 → memRd (s.domainOff k).mem (imemKey n o) = 0) ∧
      ∀ o, o < 0x800 → memRd (s.domainOff k).mem (wickKey n o) = 0
    else (s.domainOff k).cl n = s.cl n) ∧
  (∀ (s : State) (k : Nat), k < 4 → (s.domainOff (20 + k)).lines = [] ∧ ∀ c,
    (s.domainOff (20 + k)).sc c = if c ∈ s.coresOfHalf k then Core.reset else s.sc c) ∧
  (∀ (s : State) (k p : Nat), k < 4 → 9 * k ≤ p → p < 9 * k + 9 → (s.domainOff (26 + k)).portState p = 0 ∧
    ∃ r ∈ (s.domainOff (26 + k)).err.fresh, r.kind = 7 ∧ r.unit = uPort ∧ r.index = p) ∧
  (∀ (s : State) (k : Nat), k < 44 → PkgHere s → (∀ x ∈ s.power.turningOn, x.1 ≠ k) →
    Sys2Proof.Machine.exec (.domainOnComplete k) s = .next (s.leave s)) ∧
  (∀ (s : State) (k : Nat) (at_ : Word), k < 44 → PkgHere s → s.power.turningOn.find? (fun x => x.1 == k) = some (k, at_) →
    ((s.now 4).toNat < at_.toNat → Sys2Proof.Machine.exec (.domainOnComplete k) s = .next (s.leave s)) ∧
    (at_.toNat ≤ (s.now 4).toNat → ∃ t : State, Sys2Proof.Machine.exec (.domainOnComplete k) s = .next (s.leave t) ∧
      t.power = { s.power with turningOn := s.power.turningOn.filter (fun x => x.1 != k) } ∧ t.mem = s.mem ∧
      (20 ≤ k → k < 24 → ∀ c, t.sc c = if c ∈ s.coresOfHalf (k - 20) then
        { Core.reset with pc := s.reg (regAt .pwr 0 0x40), run := true } else s.sc c) ∧
      (26 ≤ k → k < 30 → ∀ p, 9 * (k - 26) ≤ p → p < 9 * (k - 26) + 9 → t.mayTrain p = true → t.portState p = 1)))

/-- Levels, currents and heat (R755, R761 to R766): at each interval a die that a cause or its ceiling holds down steps one level down,
to 12 at most, with `PWR_THROTTLE`, and else one level up towards its ceiling; the causes' own thresholds; above 115 °C the package
shuts down; a regulator that fails after Ready keeps its die at the lowest level; and a droop counts its skipped edges. -/
def Sys2Proof.Claims.FrequencyLevels : Prop :=
  (∀ (s : State) (d tj : Nat), d < 8 → 115 < tj → PkgHere s → ∃ t : State,
    Sys2Proof.Machine.exec (.frequencyStep d tj) s = .next (s.leave t.settle) ∧ t.power.shutdown = true ∧ t.power.thermtrip = true ∧
    ∃ r, t.err.fresh = [r] ∧ r.code = Code.PWR_THERMTRIP ∧ r.die = d) ∧
  (∀ (s : State) (d tj : Nat), d < 6 → tj ≤ 115 → PkgHere s → ∃ t : State,
    Sys2Proof.Machine.exec (.frequencyStep d tj) s = .next (s.leave t.settle) ∧ t.power.tj = s.power.tj.set d tj ∧ t.mem = s.mem ∧
    (∀ e, e < 8 → e ≠ d → t.level e = s.level e) ∧
    (d ∈ t.power.hotTj ↔ 100 < tj ∨ (97 ≤ tj ∧ d ∈ s.power.hotTj)) ∧
    (d ∈ s.power.stuckLow → t.level d = s.level d ∧ t.err.fresh = []) ∧
    (d ∉ s.power.stuckLow → (holdsDown s d tj ∨ s.level d < s.ceilOf d) →
      (s.level d < 12 → t.level d = s.level d + 1 ∧ ∃ r ∈ t.err.fresh, r.code = Code.PWR_THROTTLE ∧ r.die = d ∧ r.kind = 5) ∧
      (12 ≤ s.level d → t.level d = s.level d ∧ t.err.fresh = [])) ∧
    (d ∉ s.power.stuckLow → ¬ holdsDown s d tj → s.ceilOf d ≤ s.level d →
      t.err.fresh = [] ∧ t.level d = if s.ceilOf d < s.level d then s.level d - 1 else s.level d)) ∧
  (∀ (s : State) (d : Nat), d < 4 → PkgHere s → d ∉ s.power.stuckLow → s.level d < 12 → ∃ t : State,
    Sys2Proof.Machine.exec (.pmbAlert d) s = .next (s.leave t.settle) ∧ d ∈ t.power.overI ∧ t.level d = s.level d + 1 ∧
    ∃ r ∈ t.err.fresh, r.code = Code.PWR_THROTTLE ∧ r.die = d) ∧
  (∀ (s : State) (r : PmbusReadings), PkgHere s → r.bad = [] → ∃ p : Power,
    Sys2Proof.Machine.exec (.pmbusPoll r) s = .next (s.leave { s with power := p }) ∧
    p.pins = (s.power.pins ++ [r.pin]).drop (s.power.pins.length + 1 - 4) ∧
    (let sum := p.pins.foldl (· + ·) 0
     let cap := p.pins.length * s.part.envelope
     p.overP = if cap < sum then true else if sum * 100 < cap * 97 then false else s.power.overP) ∧
    ∀ d, d < 4 →
      let i := r.iout.getD d 0
      let lim := s.rfld (regAt .pwr 0 0x28) (16 * d) 16
      (lim < i → d ∈ p.overI) ∧ (i * 100 < lim * 95 → d ∉ p.overI) ∧ (i ≤ lim → lim * 95 ≤ i * 100 → (d ∈ p.overI ↔ d ∈ s.power.overI))) ∧
  (∀ (s : State) (r : PmbusReadings) (d : Nat), PkgHere s → d < 6 → r.bad = [0x40 + d] →
    (s.power.phase = 7 → ∃ t : State, Sys2Proof.Machine.exec (.pmbusPoll r) s = .next (s.leave t.settle) ∧ t.level d = 12 ∧
      d ∈ t.power.stuckLow ∧ ∃ x, t.err.fresh = [x] ∧ x.code = Code.PWR_PMBUS ∧ x.die = d) ∧
    (0 < s.power.phase → s.power.phase < 7 → ∃ t : State,
      Sys2Proof.Machine.exec (.pmbusPoll r) s = .next (s.leave t.settle) ∧ AttemptFailed s t Code.PWR_PMBUS)) ∧
  (∀ (s : State) (d edges : Nat), d < 4 → PkgHere s → Sys2Proof.Machine.exec (.droop d edges) s =
    .next (s.leave (s.setRfld (regAt .pwr 0 0) 0 32 (s.rfld (regAt .pwr 0 0) 0 32 + edges))))

/-- Start and retry (R653, R775, R777, R778): attempt n runs on PD((n − 1) mod 2); each phase leads to the next or fails the attempt with
the code of R775; the watchdog and network boot fail it when their time is over; and the back-off ends in the next attempt. -/
def Obligations.StartAttempts : Prop :=
  (∀ s : State, s.bootDie = 4 + (s.power.attempts - 1) % 2 ∧ s.bootCore = if s.bootDie = 4 then 0 else s.part.sc / 2) ∧
  (∀ s : State, PkgHere s →
    let begun := fun (p : Power) => ({ p with attempts := min (p.attempts + 1) 65535, phase := 1 } : Power)
    (s.power.phase ≠ 0 ∨ s.power.backoff ≠ none → Sys2Proof.Machine.exec .startAttempt s = .next (s.leave s)) ∧
    (s.power.phase = 0 → s.power.backoff = none →
      Sys2Proof.Machine.exec .startAttempt s = .next (s.leave { s with power := begun s.power })) ∧
    (s.power.backoff = none → Sys2Proof.Machine.exec .backoffExpiry s = .next (s.leave s)) ∧
    (∀ a b, s.power.backoff = some (a, b) → (s.now s.bootDie).toNat < b.toNat →
      Sys2Proof.Machine.exec .backoffExpiry s = .next (s.leave s)) ∧
    (∀ a b, s.power.backoff = some (a, b) → b.toNat ≤ (s.now s.bootDie).toNat → s.power.phase = 0 →
      Sys2Proof.Machine.exec .backoffExpiry s = .next (s.leave { s with power := begun { s.power with backoff := none } })) ∧
    (∀ by_, s.power.netBy = some by_ → by_.toNat ≤ (s.now s.bootDie).toNat → ∃ t : State,
      Sys2Proof.Machine.exec .networkBootTimeout s = .next (s.leave t.settle) ∧ AttemptFailed s t Code.PWR_NO_IMAGE) ∧
    ((∀ by_, s.power.netBy = some by_ → (s.now s.bootDie).toNat < by_.toNat) →
      Sys2Proof.Machine.exec .networkBootTimeout s = .next (s.leave s)) ∧
    (∀ by_, s.power.phase5By = some by_ → by_.toNat ≤ (s.now s.bootDie).toNat → ∃ t : State,
      Sys2Proof.Machine.exec .bootWatchdog s = .next (s.leave t.settle) ∧ AttemptFailed s t Code.PWR_BOOT_TIMEOUT) ∧
    ((∀ by_, s.power.phase5By = some by_ → (s.now s.bootDie).toNat < by_.toNat) →
      Sys2Proof.Machine.exec .bootWatchdog s = .next (s.leave s))) ∧
  (∀ (s : State) (r : BootResult), PkgHere s →
    let at_ := fun (n : Nat) => ({ s with power := { s.power with phase := n } } : State)
    let good := fun (l : List Byte) => l ≠ [] ∧ s.imageCode l = 0
    let taken := fun (img : List Byte) (source : Nat) => ∃ t : State, Sys2Proof.Machine.exec (.bootPhase r) s = .next (s.leave t.settle) ∧
      t.power.phase = 4 ∧ t.power.netBy = none ∧ t.power.phase5By = some (s.now s.bootDie + wd 120000000000) ∧
      t.rfld (regAt .pwr 0 0x38) 0 2 = source ∧
      (memWf s.mem = true → ∀ i, i < img.length → i < 2 ^ 24 → memRd t.mem (bootKey i) = img.getD i 0)
    (s.power.phase = 1 → r.badRegs = [] → ∃ t : State, Sys2Proof.Machine.exec (.bootPhase r) s = .next (s.leave t) ∧ t.power.phase = 2 ∧
      (t.sc s.bootCore).run = true ∧ (t.sc s.bootCore).pc = 0x000200000F000000 ∧ ∀ c, c ≠ s.bootCore → t.sc c = s.sc c) ∧
    (s.power.phase = 1 → r.badRegs ≠ [] → ∃ t : State,
      Sys2Proof.Machine.exec (.bootPhase r) s = .next (s.leave t.settle) ∧ AttemptFailed s t Code.PWR_PMBUS) ∧
    (s.power.phase = 2 → Sys2Proof.Machine.exec (.bootPhase r) s = .next (s.leave (at_ 3))) ∧
    (s.power.phase = 3 → s.power.netBy = none → good r.slotA → taken r.slotA 0) ∧
    (s.power.phase = 3 → s.power.netBy = none → r.slotA = [] → good r.slotB → taken r.slotB 1) ∧
    (s.power.phase = 3 → s.power.netBy = none → r.slotA = [] → r.slotB = [] → Sys2Proof.Machine.exec (.bootPhase r) s =
      .next (s.leave { s with power := { s.power with netBy := some (s.now s.bootDie + wd 80000000000) } })) ∧
    (s.power.phase = 4 → r.badStacks = [] → ∃ t : State, Sys2Proof.Machine.exec (.bootPhase r) s = .next (s.leave t) ∧ t.power.phase = 5 ∧
      t.power.phase5By = none ∧ (∀ k, k < s.part.stacks → bit (t.reg (regAt .mc k 0)) 0 = true) ∧
      ∀ a, memRd t.mem a = if a < s.part.hbm then 0 else memRd s.mem a) ∧
    (s.power.phase = 4 → r.badStacks ≠ [] → ∃ t : State,
      Sys2Proof.Machine.exec (.bootPhase r) s = .next (s.leave t.settle) ∧ AttemptFailed s t Code.PWR_HBM_TRAIN) ∧
    (s.power.phase = 5 → Sys2Proof.Machine.exec (.bootPhase r) s = .next (s.leave (at_ 6))) ∧
    (s.power.phase = 6 → Sys2Proof.Machine.exec (.bootPhase r) s =
      .next (s.leave { s with power := { s.power with phase := 7, fails := 0 } })))

/-- With an empty queue a step is one cycle of UCLK (log 14, the model's choice of a time unit): every time base that is not held advances by
its rate, the cycle counters of running clusters and cores advance, and a package that cannot act stands still. -/
def Sys2Proof.Claims.EmptyQueue : Prop :=
  (∀ s : State, s.pending = [] → s.alive = false → Sys2Proof.Machine.step s = .next s) ∧
  (∀ s : State, s.pending = [] → s.alive = true → ∃ t : State, Sys2Proof.Machine.step s = .next t ∧ t = s.leave s.cycle.settle ∧
    t.pending = [] ∧ memWf t.mem = true) ∧
  (∀ (s : State) (d : Nat), d < 8 → s.advanceTime.base d = if d ∈ s.tm.holds then s.base d else s.base d + s.rate d) ∧
  (∀ (c : Cluster) (k : Nat), (c.st = .running → (c.tick k).cyc = c.cyc + k) ∧ (c.st ≠ .running → c.tick k = c)) ∧
  (∀ (x : Core) (k : Nat), x.tick k = if x.run then { x with cyc := x.cyc + k } else x)

/-- The frame of a core's loads and stores in local HBM (R25, R292, R461, R467): a store that is done leaves its bytes in the unit that
holds its address, as the controller returns that unit, and changes no other unit and no other byte that is stored; a read that is done
changes no byte. Bytes found bad are at most what the code corrects or reports (R466 to R469). -/
def Sys2Proof.Claims.StoreFrame : Prop :=
  (∀ (s t : State) (c a : Nat) (data : List Byte) (word : Bool), memWf s.mem = true → a < s.part.hbm → data.length ∈ [1, 2, 4, 8] →
    a % data.length = 0 → (∀ u, s.flips.get 0 u ≤ 4) → s.scWriteLocal c a data word = (t, .done []) →
    let (k, off) := s.mapAddr a
    t.unitPlain k off a = patch (s.unitPlain k off a) (off % 64) data ∧
    (∀ k' off' a', unitNo k' off' ≠ unitNo k off → t.unitPlain k' off' a' = s.unitPlain k' off' a') ∧
    (∀ i, i / 64 ≠ unitNo k off → memRd t.mem i = memRd s.mem i) ∧
    t.cores = s.cores ∧ t.poison = s.poison ∧ t.tags = s.tags) ∧
  (∀ (s t : State) (q : Req) (a len : Nat) (d : List Byte), a + len ≤ s.part.hbm → (∀ u, s.flips.get 0 u ≤ 4) →
    s.hbmRead q a len = (t, .done d) → t.mem = s.mem ∧ t.cores = s.cores ∧ d.length = len)

/-! # The statements that have several parts -/

/-- What a step does to the queue, and what a cycle without a command does. -/
def Obligations.QueueMoves : Prop :=
  Sys2Proof.Claims.QueueFifo ∧ Sys2Proof.Claims.EmptyQueue

/-- Integer instructions of a solver core: result, PC and nothing else. -/
def Obligations.CoreInteger : Prop :=
  Sys2Proof.Claims.ScInteger ∧ Sys2Proof.Claims.ScDivide ∧ Sys2Proof.Claims.ScImmediate

/-- Loads and stores of a solver core, and their frame in memory. -/
def Obligations.CoreMemory : Prop :=
  Sys2Proof.Claims.ScLoads ∧ Sys2Proof.Claims.ScStores ∧ Sys2Proof.Claims.StoreFrame

/-- Branches and jumps of a solver core. -/
def Obligations.CoreBranches : Prop :=
  Sys2Proof.Claims.ScBranches ∧ Sys2Proof.Claims.ScJumps

/-- Scalar FP64 instructions: results, flags and nothing else. -/
def Obligations.CoreFp : Prop :=
  Sys2Proof.Claims.ScFp ∧ Sys2Proof.Claims.ScFused

/-- Atomics and fences of a solver core. -/
def Obligations.CoreOrdering : Prop :=
  Sys2Proof.Claims.ScAtomics ∧ Sys2Proof.Claims.ScFences

/-- Fetching; interrupts, WFE and SIG. -/
def Obligations.CoreInterrupts : Prop :=
  Sys2Proof.Claims.CoreFetch ∧ Sys2Proof.Claims.Interrupts ∧ Sys2Proof.Claims.WaitForEvent ∧ Sys2Proof.Claims.Signal

/-- SRR, SRW and POST: privilege, effect and answer. -/
def Obligations.CoreRegistersAndLists : Prop :=
  Sys2Proof.Claims.SystemRegisters ∧ Sys2Proof.Claims.Post

/-- Element-wise vector operations: active elements take results, others stand. -/
def Obligations.VectorElementwise : Prop :=
  Sys2Proof.Claims.VectorFp ∧ Sys2Proof.Claims.VectorFused ∧ Sys2Proof.Claims.VectorInteger

/-- Vector permutes and reductions. -/
def Obligations.VectorAcross : Prop :=
  Sys2Proof.Claims.VectorPermute ∧ Sys2Proof.Claims.VectorReduce

/-- Control-core instructions: scalars, branches, hardware loops. -/
def Obligations.ControlCore : Prop :=
  Sys2Proof.Claims.CcFetch ∧ Sys2Proof.Claims.CcScalar ∧ Sys2Proof.Claims.CcBranches ∧ Sys2Proof.Claims.CcLoops

/-- MOVU, WAITSUM, ECHK and HALT. -/
def Obligations.ProgramEnds : Prop :=
  Sys2Proof.Claims.CcSummaries ∧ Sys2Proof.Claims.CcHalt

/-- MARK, WAIT, issue to the engines and QPUSH. -/
def Obligations.TokensAndIssue : Prop :=
  Sys2Proof.Claims.Tokens ∧ Sys2Proof.Claims.Issue

/-- Control-core loads and stores, and the watchdog. -/
def Obligations.ControlMemory : Prop :=
  Sys2Proof.Claims.CcMemory ∧ Sys2Proof.Claims.Watchdog

/-- The order of sums in MMA and the accumulator addition. -/
def Obligations.MatrixSums : Prop :=
  Sys2Proof.Claims.SummationOrder ∧ Sys2Proof.Claims.AccumulatorAdd

/-- MMA, MSAVE, MREST and MDROP. -/
def Obligations.MatrixChains : Prop :=
  Sys2Proof.Claims.MatrixMultiply ∧ Sys2Proof.Claims.MatrixSaves

/-- The relight decision and the commit of an output tile. -/
def Obligations.MatrixEnds : Prop :=
  Sys2Proof.Claims.RelightDecision ∧ Sys2Proof.Claims.MatrixCommit

/-- The element engine: operations, programs, moves and commit. -/
def Obligations.ElementEngine : Prop :=
  Sys2Proof.Claims.WickOperation ∧ Sys2Proof.Claims.ElementProgram ∧ Sys2Proof.Claims.ElementMoves ∧ Sys2Proof.Claims.ElementCommit

/-- The side reduction unit and the statistic sets. -/
def Obligations.SideUnit : Prop :=
  Sys2Proof.Claims.SideReductions ∧ Sys2Proof.Claims.StatisticSets

/-- The data mover: start and completion of DLOAD, DSTORE and DCOPY. -/
def Obligations.DataMover : Prop :=
  Sys2Proof.Claims.MoverStarts ∧ Sys2Proof.Claims.MoverCompletes

/-- Control entries of a command list and its completion record. -/
def Obligations.CommandLists : Prop :=
  Sys2Proof.Claims.ListControl ∧ Sys2Proof.Claims.ListCompletes

/-- Entries for clusters, and region keys. -/
def Obligations.ListEntries : Prop :=
  Sys2Proof.Claims.ClusterEntries ∧ Sys2Proof.Claims.RegionKeys

/-- Entries for collectives, engines and snapshots, and DIGEST. -/
def Obligations.EngineLists : Prop :=
  Sys2Proof.Claims.EngineEntries ∧ Sys2Proof.Claims.SnapshotEntries ∧ Sys2Proof.Claims.DigestEntries

/-- The least-squares engine: fixed point and the phases of an iteration. -/
def Obligations.LseSteps : Prop :=
  Sys2Proof.Claims.LseArithmetic ∧ Sys2Proof.Claims.LsePhases

/-- The least-squares engine: batches and how a solve ends. -/
def Obligations.LseOutcomes : Prop :=
  Sys2Proof.Claims.LseBatches ∧ Sys2Proof.Claims.LseEnds

/-- The update unit: layers, rules and stochastic rounding. -/
def Obligations.UpdateUnit : Prop :=
  Sys2Proof.Claims.UpdateLayers ∧ Sys2Proof.Claims.UpdateRules

/-- Link states, counters and the choice of a port; route-table epochs. -/
def Obligations.LinksAndRouters : Prop :=
  Sys2Proof.Claims.Links ∧ Sys2Proof.Claims.Routers

/-- Requests from first send to answer, at source and destination. -/
def Obligations.RequestLifetimes : Prop :=
  Sys2Proof.Claims.Sources ∧ Sys2Proof.Claims.Destinations

/-- The time tree, PTP and the sync pins. -/
def Obligations.NodeTime : Prop :=
  Sys2Proof.Claims.TimeTree ∧ Sys2Proof.Claims.OutsideTime

/-- Collective frames, LOCAL and FINAL. -/
def Obligations.Collectives : Prop :=
  Sys2Proof.Claims.CollectiveFrames ∧ Sys2Proof.Claims.CollectiveEnds

/-- Starting, cancelling and tearing down a job. -/
def Obligations.JobLife : Prop :=
  Sys2Proof.Claims.JobStarts ∧ Sys2Proof.Claims.JobEnds

/-- Host messages run once, in order, with the rights of their role. -/
def Obligations.HostDatagrams : Prop :=
  Sys2Proof.Claims.HostMessages ∧ Sys2Proof.Claims.HostRights

/-- Sessions of the host port and the management channel. -/
def Obligations.SessionsAndManagement : Prop :=
  Sys2Proof.Claims.Sessions ∧ Sys2Proof.Claims.Management

/-- Records, warnings, budgets, self-tests and retirement. -/
def Obligations.ErrorsAndTests : Prop :=
  Sys2Proof.Claims.ErrorRecords ∧ Sys2Proof.Claims.SelfTests

/-- JTAG, halts, the freeze pin and typed register accesses. -/
def Obligations.DebugAndRegisters : Prop :=
  Sys2Proof.Claims.Jtag ∧ Sys2Proof.Claims.Registers

/-- Power domains, frequency levels, currents and heat. -/
def Obligations.PowerAndFrequency : Prop :=
  Sys2Proof.Claims.PowerDomains ∧ Sys2Proof.Claims.FrequencyLevels
end

