-- ==== Sys2Proof/Laws/Memory.lean ====
section
/-! SUPPORT. Laws of the byte memory: what a read after a write gives, and that every operation keeps the canonical form. -/

namespace Sys2Proof.Machine

/-! ## Reads after writes -/

@[simp] theorem memRd_nil (a : Nat) : memRd [] a = unlisted := rfl

theorem memRd_memCons (k : Nat) (b : Byte) (r : List Host.Cell) (a : Nat) (h : memRd r k = unlisted) :
    memRd (memCons k b r) a = if a = k then b else memRd r a := by
  unfold memCons
  split
  · next e => subst e; split <;> simp_all
  · simp only [memRd]; split <;> simp_all [eq_comm]

/-- Every listed address is above `a` (all of them, in a canonical list). -/
theorem memRd_above {r : List Host.Cell} (h : memWf r = true) {a j : Nat} (ha : memAbove a r = true) (hj : j ≤ a) :
    memRd r j = unlisted := by
  induction r generalizing a with
  | nil => rfl
  | cons c r ih =>
    obtain ⟨k, b⟩ := c
    simp only [memWf, memAbove, Bool.and_eq_true, decide_eq_true_eq] at h ha
    simp only [memRd]
    rw [if_neg (by omega)]
    exact ih h.2 (a := k) h.1.2 (by omega)

theorem memAbove_memCons {a k : Nat} {b : Byte} {r : List Host.Cell} (h : a < k) (hr : memAbove a r = true) :
    memAbove a (memCons k b r) = true := by
  unfold memCons; split <;> simp_all [memAbove]

theorem memWf_memCons {k : Nat} {b : Byte} {r : List Host.Cell} (h : memWf r = true) (ha : memAbove k r = true) :
    memWf (memCons k b r) = true := by
  unfold memCons; split <;> simp_all [memWf]

theorem memAbove_mono {a k : Nat} {r : List Host.Cell} (h : a ≤ k) (hr : memAbove k r = true) : memAbove a r = true := by
  cases r with
  | nil => rfl
  | cons c r => simp only [memAbove, decide_eq_true_eq] at hr ⊢; omega

theorem memAbove_memWr {m : List Host.Cell} {a k : Nat} {b : Byte} (h : a < k) (hm : memAbove a m = true) (hw : memWf m = true) :
    memAbove a (memWr m k b) = true := by
  cases m with
  | nil => exact memAbove_memCons h rfl
  | cons c r =>
    obtain ⟨j, d⟩ := c
    simp only [memAbove, decide_eq_true_eq] at hm
    simp only [memWf, Bool.and_eq_true, decide_eq_true_eq] at hw
    simp only [memWr]
    split
    · exact memAbove_memCons h (by simpa [memAbove] using hm)
    · split
      · exact memAbove_memCons h (memAbove_mono (by omega) hw.1.2)
      · simpa [memAbove] using hm

/-- A write keeps the canonical form. -/
theorem memWf_memWr {m : List Host.Cell} (a : Nat) (b : Byte) (h : memWf m = true) : memWf (memWr m a b) = true := by
  induction m with
  | nil => exact memWf_memCons rfl rfl
  | cons c r ih =>
    obtain ⟨j, d⟩ := c
    have h' := h
    simp only [memWf, Bool.and_eq_true, decide_eq_true_eq] at h'
    simp only [memWr]
    split
    · next hlt => exact memWf_memCons h (by simpa [memAbove] using hlt)
    · split
      · next e => subst e; exact memWf_memCons h'.2 h'.1.2
      · simp only [memWf, Bool.and_eq_true, decide_eq_true_eq]
        exact ⟨⟨h'.1.1, memAbove_memWr (by omega) h'.1.2 h'.2⟩, ih h'.2⟩

/-- A write of several bytes keeps the canonical form. -/
theorem memWf_memWrL {m : List Host.Cell} (a : Nat) (l : List Byte) (h : memWf m = true) : memWf (memWrL m a l) = true := by
  induction l generalizing m a with
  | nil => exact h
  | cons b r ih => exact ih (a + 1) (memWf_memWr a b h)

theorem memAbove_filter {a : Nat} {p : Host.Cell → Bool} {m : List Host.Cell} (h : memAbove a m = true) (hw : memWf m = true) :
    memAbove a (m.filter p) = true := by
  induction m with
  | nil => rfl
  | cons c r ih =>
    obtain ⟨j, d⟩ := c
    simp only [memAbove, decide_eq_true_eq] at h
    simp only [memWf, Bool.and_eq_true, decide_eq_true_eq] at hw
    simp only [List.filter_cons]
    split
    · simpa [memAbove] using h
    · exact ih (memAbove_mono (by omega) hw.1.2) hw.2

/-- Clearing a range keeps the canonical form. -/
theorem memWf_memClear {m : List Host.Cell} (lo hi : Nat) (h : memWf m = true) : memWf (memClear m lo hi) = true := by
  unfold memClear
  induction m with
  | nil => rfl
  | cons c r ih =>
    obtain ⟨j, d⟩ := c
    have h' := h
    simp only [memWf, Bool.and_eq_true, decide_eq_true_eq] at h'
    simp only [List.filter_cons]
    split
    · simp only [memWf, Bool.and_eq_true, decide_eq_true_eq]
      exact ⟨⟨h'.1.1, memAbove_filter h'.1.2 h'.2⟩, ih h'.2⟩
    · exact ih h'.2

/-- A read after a write: the byte written at its address, and elsewhere what stood there. -/
theorem memRd_memWr {m : List Host.Cell} (a j : Nat) (b : Byte) (h : memWf m = true) :
    memRd (memWr m a b) j = if j = a then b else memRd m j := by
  induction m with
  | nil => exact memRd_memCons a b [] j rfl
  | cons c r ih =>
    obtain ⟨k, d⟩ := c
    have h' := h
    simp only [memWf, Bool.and_eq_true, decide_eq_true_eq] at h'
    simp only [memWr]
    split
    · next hlt =>
      exact memRd_memCons _ _ _ _ (memRd_above h (a := a) (by simpa [memAbove] using hlt) (Nat.le_refl _))
    · split
      · next e =>
        subst e
        rw [memRd_memCons _ _ _ _ (memRd_above h'.2 h'.1.2 (Nat.le_refl _))]
        split
        · rfl
        · simp only [memRd]; rw [if_neg (by omega)]
      · simp only [memRd]
        split
        · next e => rw [if_neg (by omega)]
        · exact ih h'.2

/-- A read after a write of several bytes. -/
theorem memRd_memWrL {m : List Host.Cell} (a j : Nat) (l : List Byte) (h : memWf m = true) :
    memRd (memWrL m a l) j = if a ≤ j ∧ j < a + l.length then l.getD (j - a) unlisted else memRd m j := by
  induction l generalizing m a with
  | nil =>
    rw [if_neg (by simp only [List.length_nil]; omega)]
    rfl
  | cons b r ih =>
    simp only [memWrL]
    rw [ih (a + 1) (memWf_memWr a b h), memRd_memWr a j b h]
    by_cases e : j = a
    · subst e
      have : ¬ (j + 1 ≤ j) := by omega
      simp [this]
    · rw [if_neg e]
      by_cases hr : a + 1 ≤ j ∧ j < a + 1 + r.length
      · have : j - a = (j - (a + 1)) + 1 := by omega
        rw [if_pos hr, if_pos ⟨by omega, by simp; omega⟩, this]
        simp
      · rw [if_neg hr, if_neg (by simp; omega)]

/-! ## The canonical form of any list -/

/-- The canonical form of any list is canonical. -/
@[simp] theorem memWf_memNorm (m : List Host.Cell) : memWf (memNorm m) = true := by
  induction m with
  | nil => rfl
  | cons c r ih => exact memWf_memWr c.1 c.2 ih

/-- It reads as the list does. -/
@[simp] theorem memRd_memNorm (m : List Host.Cell) (a : Nat) : memRd (memNorm m) a = memRd m a := by
  induction m with
  | nil => rfl
  | cons c r ih =>
    obtain ⟨k, b⟩ := c
    have e : memNorm ((k, b) :: r) = memWr (memNorm r) k b := rfl
    rw [e, memRd_memWr _ _ _ (memWf_memNorm r), ih]
    simp only [memRd, eq_comm]

theorem memWr_above {m : List Host.Cell} {k : Nat} {b : Byte} (hb : b ≠ unlisted) (ha : memAbove k m = true) :
    memWr m k b = (k, b) :: m := by
  cases m with
  | nil => simp [memWr, memCons, hb]
  | cons c r =>
    obtain ⟨j, d⟩ := c
    simp only [memAbove, decide_eq_true_eq] at ha
    simp [memWr, memCons, hb, ha]

/-- A canonical list is its own canonical form. -/
theorem memNorm_of_memWf {m : List Host.Cell} (h : memWf m = true) : memNorm m = m := by
  induction m with
  | nil => rfl
  | cons c r ih =>
    obtain ⟨k, b⟩ := c
    simp only [memWf, Bool.and_eq_true, decide_eq_true_eq] at h
    have e : memNorm ((k, b) :: r) = memWr (memNorm r) k b := rfl
    rw [e, ih h.2, memWr_above h.1.1 h.1.2]

end Sys2Proof.Machine
end

