-- ==== Sys2Proof/Laws/State.lean ====
section
/-! SUPPORT. Laws of State: for each update, one lemma for each field that it leaves alone and for each unit that it does not
write, and what it reads back. -/

namespace Sys2Proof.Machine

variable (s : State)

/-! ## setCl -/

@[simp] theorem State.setCl_pending (n : Nat) (c : Cluster) : (s.setCl n c).pending = s.pending := rfl
@[simp] theorem State.setCl_part (n : Nat) (c : Cluster) : (s.setCl n c).part = s.part := rfl
@[simp] theorem State.setCl_mem (n : Nat) (c : Cluster) : (s.setCl n c).mem = s.mem := rfl
@[simp] theorem State.setCl_regs (n : Nat) (c : Cluster) : (s.setCl n c).regs = s.regs := rfl
@[simp] theorem State.setCl_cores (n : Nat) (c : Cluster) : (s.setCl n c).cores = s.cores := rfl
@[simp] theorem State.setCl_disps (n : Nat) (c : Cluster) : (s.setCl n c).disps = s.disps := rfl
@[simp] theorem State.setCl_lamps (n : Nat) (c : Cluster) : (s.setCl n c).lamps = s.lamps := rfl
@[simp] theorem State.setCl_lses (n : Nat) (c : Cluster) : (s.setCl n c).lses = s.lses := rfl
@[simp] theorem State.setCl_upds (n : Nat) (c : Cluster) : (s.setCl n c).upds = s.upds := rfl
@[simp] theorem State.setCl_mcs (n : Nat) (c : Cluster) : (s.setCl n c).mcs = s.mcs := rfl
@[simp] theorem State.setCl_tags (n : Nat) (c : Cluster) : (s.setCl n c).tags = s.tags := rfl
@[simp] theorem State.setCl_retags (n : Nat) (c : Cluster) : (s.setCl n c).retags = s.retags := rfl
@[simp] theorem State.setCl_cryptP (n : Nat) (c : Cluster) : (s.setCl n c).cryptP = s.cryptP := rfl
@[simp] theorem State.setCl_cryptU (n : Nat) (c : Cluster) : (s.setCl n c).cryptU = s.cryptU := rfl
@[simp] theorem State.setCl_poison (n : Nat) (c : Cluster) : (s.setCl n c).poison = s.poison := rfl
@[simp] theorem State.setCl_flips (n : Nat) (c : Cluster) : (s.setCl n c).flips = s.flips := rfl
@[simp] theorem State.setCl_answer (n : Nat) (c : Cluster) : (s.setCl n c).answer = s.answer := rfl
@[simp] theorem State.setCl_ports (n : Nat) (c : Cluster) : (s.setCl n c).ports = s.ports := rfl
@[simp] theorem State.setCl_routers (n : Nat) (c : Cluster) : (s.setCl n c).routers = s.routers := rfl
@[simp] theorem State.setCl_wire (n : Nat) (c : Cluster) : (s.setCl n c).wire = s.wire := rfl
@[simp] theorem State.setCl_seqCtr (n : Nat) (c : Cluster) : (s.setCl n c).seqCtr = s.seqCtr := rfl
@[simp] theorem State.setCl_reqs (n : Nat) (c : Cluster) : (s.setCl n c).reqs = s.reqs := rfl
@[simp] theorem State.setCl_tracked (n : Nat) (c : Cluster) : (s.setCl n c).tracked = s.tracked := rfl
@[simp] theorem State.setCl_homeKeys (n : Nat) (c : Cluster) : (s.setCl n c).homeKeys = s.homeKeys := rfl
@[simp] theorem State.setCl_fontKeys (n : Nat) (c : Cluster) : (s.setCl n c).fontKeys = s.fontKeys := rfl
@[simp] theorem State.setCl_outKeys (n : Nat) (c : Cluster) : (s.setCl n c).outKeys = s.outKeys := rfl
@[simp] theorem State.setCl_dir (n : Nat) (c : Cluster) : (s.setCl n c).dir = s.dir := rfl
@[simp] theorem State.setCl_lines (n : Nat) (c : Cluster) : (s.setCl n c).lines = s.lines := rfl
@[simp] theorem State.setCl_recalls (n : Nat) (c : Cluster) : (s.setCl n c).recalls = s.recalls := rfl
@[simp] theorem State.setCl_done (n : Nat) (c : Cluster) : (s.setCl n c).done = s.done := rfl
@[simp] theorem State.setCl_valleyLost (n : Nat) (c : Cluster) : (s.setCl n c).valleyLost = s.valleyLost := rfl
@[simp] theorem State.setCl_valleyOwn (n : Nat) (c : Cluster) : (s.setCl n c).valleyOwn = s.valleyOwn := rfl
@[simp] theorem State.setCl_cus (n : Nat) (c : Cluster) : (s.setCl n c).cus = s.cus := rfl
@[simp] theorem State.setCl_time (n : Nat) (c : Cluster) : (s.setCl n c).time = s.time := rfl
@[simp] theorem State.setCl_tm (n : Nat) (c : Cluster) : (s.setCl n c).tm = s.tm := rfl
@[simp] theorem State.setCl_job (n : Nat) (c : Cluster) : (s.setCl n c).job = s.job := rfl
@[simp] theorem State.setCl_sec (n : Nat) (c : Cluster) : (s.setCl n c).sec = s.sec := rfl
@[simp] theorem State.setCl_hosts (n : Nat) (c : Cluster) : (s.setCl n c).hosts = s.hosts := rfl
@[simp] theorem State.setCl_err (n : Nat) (c : Cluster) : (s.setCl n c).err = s.err := rfl
@[simp] theorem State.setCl_power (n : Nat) (c : Cluster) : (s.setCl n c).power = s.power := rfl
@[simp] theorem State.setCl_jtag (n : Nat) (c : Cluster) : (s.setCl n c).jtag = s.jtag := rfl
@[simp] theorem State.setCl_free (n : Nat) (c : Cluster) : (s.setCl n c).free = s.free := rfl
@[simp] theorem State.sc_setCl (n j : Nat) (c : Cluster) : (s.setCl n c).sc j = s.sc j := rfl
@[simp] theorem State.dsp_setCl (n j : Nat) (c : Cluster) : (s.setCl n c).dsp j = s.dsp j := rfl
@[simp] theorem State.lamp_setCl (n j : Nat) (c : Cluster) : (s.setCl n c).lamp j = s.lamp j := rfl
@[simp] theorem State.lse_setCl (n j : Nat) (c : Cluster) : (s.setCl n c).lse j = s.lse j := rfl
@[simp] theorem State.uu_setCl (n j : Nat) (c : Cluster) : (s.setCl n c).uu j = s.uu j := rfl
@[simp] theorem State.mc_setCl (n j : Nat) (c : Cluster) : (s.setCl n c).mc j = s.mc j := rfl
@[simp] theorem State.port_setCl (n j : Nat) (c : Cluster) : (s.setCl n c).port j = s.port j := rfl
@[simp] theorem State.fr_setCl (n j : Nat) (c : Cluster) : (s.setCl n c).fr j = s.fr j := rfl
@[simp] theorem State.cu_setCl (n j : Nat) (c : Cluster) : (s.setCl n c).cu j = s.cu j := rfl
@[simp] theorem State.he_setCl (n j : Nat) (c : Cluster) : (s.setCl n c).he j = s.he j := rfl
@[simp] theorem State.reg_setCl (n j : Nat) (c : Cluster) : (s.setCl n c).reg j = s.reg j := rfl

@[simp] theorem State.setCl_setCl (n : Nat) (a b : Cluster) : (s.setCl n a).setCl n b = s.setCl n b := by
  simp [State.setCl, Tab.set_set]

@[simp] theorem State.cl_setCl_same (n : Nat) (c : Cluster) : (s.setCl n c).cl n = c := Tab.get_set_same _ _ _ _

theorem State.cl_setCl_ne (n j : Nat) (c : Cluster) (h : j ≠ n) : (s.setCl n c).cl j = s.cl j :=
  Tab.get_set_ne _ _ _ _ _ h

/-! ## setSc -/

@[simp] theorem State.setSc_pending (c : Nat) (x : Core) : (s.setSc c x).pending = s.pending := rfl
@[simp] theorem State.setSc_part (c : Nat) (x : Core) : (s.setSc c x).part = s.part := rfl
@[simp] theorem State.setSc_mem (c : Nat) (x : Core) : (s.setSc c x).mem = s.mem := rfl
@[simp] theorem State.setSc_regs (c : Nat) (x : Core) : (s.setSc c x).regs = s.regs := rfl
@[simp] theorem State.setSc_clusters (c : Nat) (x : Core) : (s.setSc c x).clusters = s.clusters := rfl
@[simp] theorem State.setSc_disps (c : Nat) (x : Core) : (s.setSc c x).disps = s.disps := rfl
@[simp] theorem State.setSc_lamps (c : Nat) (x : Core) : (s.setSc c x).lamps = s.lamps := rfl
@[simp] theorem State.setSc_lses (c : Nat) (x : Core) : (s.setSc c x).lses = s.lses := rfl
@[simp] theorem State.setSc_upds (c : Nat) (x : Core) : (s.setSc c x).upds = s.upds := rfl
@[simp] theorem State.setSc_mcs (c : Nat) (x : Core) : (s.setSc c x).mcs = s.mcs := rfl
@[simp] theorem State.setSc_tags (c : Nat) (x : Core) : (s.setSc c x).tags = s.tags := rfl
@[simp] theorem State.setSc_retags (c : Nat) (x : Core) : (s.setSc c x).retags = s.retags := rfl
@[simp] theorem State.setSc_cryptP (c : Nat) (x : Core) : (s.setSc c x).cryptP = s.cryptP := rfl
@[simp] theorem State.setSc_cryptU (c : Nat) (x : Core) : (s.setSc c x).cryptU = s.cryptU := rfl
@[simp] theorem State.setSc_poison (c : Nat) (x : Core) : (s.setSc c x).poison = s.poison := rfl
@[simp] theorem State.setSc_flips (c : Nat) (x : Core) : (s.setSc c x).flips = s.flips := rfl
@[simp] theorem State.setSc_answer (c : Nat) (x : Core) : (s.setSc c x).answer = s.answer := rfl
@[simp] theorem State.setSc_ports (c : Nat) (x : Core) : (s.setSc c x).ports = s.ports := rfl
@[simp] theorem State.setSc_routers (c : Nat) (x : Core) : (s.setSc c x).routers = s.routers := rfl
@[simp] theorem State.setSc_wire (c : Nat) (x : Core) : (s.setSc c x).wire = s.wire := rfl
@[simp] theorem State.setSc_seqCtr (c : Nat) (x : Core) : (s.setSc c x).seqCtr = s.seqCtr := rfl
@[simp] theorem State.setSc_reqs (c : Nat) (x : Core) : (s.setSc c x).reqs = s.reqs := rfl
@[simp] theorem State.setSc_tracked (c : Nat) (x : Core) : (s.setSc c x).tracked = s.tracked := rfl
@[simp] theorem State.setSc_homeKeys (c : Nat) (x : Core) : (s.setSc c x).homeKeys = s.homeKeys := rfl
@[simp] theorem State.setSc_fontKeys (c : Nat) (x : Core) : (s.setSc c x).fontKeys = s.fontKeys := rfl
@[simp] theorem State.setSc_outKeys (c : Nat) (x : Core) : (s.setSc c x).outKeys = s.outKeys := rfl
@[simp] theorem State.setSc_dir (c : Nat) (x : Core) : (s.setSc c x).dir = s.dir := rfl
@[simp] theorem State.setSc_lines (c : Nat) (x : Core) : (s.setSc c x).lines = s.lines := rfl
@[simp] theorem State.setSc_recalls (c : Nat) (x : Core) : (s.setSc c x).recalls = s.recalls := rfl
@[simp] theorem State.setSc_done (c : Nat) (x : Core) : (s.setSc c x).done = s.done := rfl
@[simp] theorem State.setSc_valleyLost (c : Nat) (x : Core) : (s.setSc c x).valleyLost = s.valleyLost := rfl
@[simp] theorem State.setSc_valleyOwn (c : Nat) (x : Core) : (s.setSc c x).valleyOwn = s.valleyOwn := rfl
@[simp] theorem State.setSc_cus (c : Nat) (x : Core) : (s.setSc c x).cus = s.cus := rfl
@[simp] theorem State.setSc_time (c : Nat) (x : Core) : (s.setSc c x).time = s.time := rfl
@[simp] theorem State.setSc_tm (c : Nat) (x : Core) : (s.setSc c x).tm = s.tm := rfl
@[simp] theorem State.setSc_job (c : Nat) (x : Core) : (s.setSc c x).job = s.job := rfl
@[simp] theorem State.setSc_sec (c : Nat) (x : Core) : (s.setSc c x).sec = s.sec := rfl
@[simp] theorem State.setSc_hosts (c : Nat) (x : Core) : (s.setSc c x).hosts = s.hosts := rfl
@[simp] theorem State.setSc_err (c : Nat) (x : Core) : (s.setSc c x).err = s.err := rfl
@[simp] theorem State.setSc_power (c : Nat) (x : Core) : (s.setSc c x).power = s.power := rfl
@[simp] theorem State.setSc_jtag (c : Nat) (x : Core) : (s.setSc c x).jtag = s.jtag := rfl
@[simp] theorem State.setSc_free (c : Nat) (x : Core) : (s.setSc c x).free = s.free := rfl
@[simp] theorem State.cl_setSc (c j : Nat) (x : Core) : (s.setSc c x).cl j = s.cl j := rfl
@[simp] theorem State.dsp_setSc (c j : Nat) (x : Core) : (s.setSc c x).dsp j = s.dsp j := rfl
@[simp] theorem State.lamp_setSc (c j : Nat) (x : Core) : (s.setSc c x).lamp j = s.lamp j := rfl
@[simp] theorem State.lse_setSc (c j : Nat) (x : Core) : (s.setSc c x).lse j = s.lse j := rfl
@[simp] theorem State.uu_setSc (c j : Nat) (x : Core) : (s.setSc c x).uu j = s.uu j := rfl
@[simp] theorem State.mc_setSc (c j : Nat) (x : Core) : (s.setSc c x).mc j = s.mc j := rfl
@[simp] theorem State.port_setSc (c j : Nat) (x : Core) : (s.setSc c x).port j = s.port j := rfl
@[simp] theorem State.fr_setSc (c j : Nat) (x : Core) : (s.setSc c x).fr j = s.fr j := rfl
@[simp] theorem State.cu_setSc (c j : Nat) (x : Core) : (s.setSc c x).cu j = s.cu j := rfl
@[simp] theorem State.he_setSc (c j : Nat) (x : Core) : (s.setSc c x).he j = s.he j := rfl
@[simp] theorem State.reg_setSc (c j : Nat) (x : Core) : (s.setSc c x).reg j = s.reg j := rfl

@[simp] theorem State.setSc_setSc (c : Nat) (a b : Core) : (s.setSc c a).setSc c b = s.setSc c b := by
  simp [State.setSc, Tab.set_set]

@[simp] theorem State.sc_setSc_same (c : Nat) (x : Core) : (s.setSc c x).sc c = x := Tab.get_set_same _ _ _ _

theorem State.sc_setSc_ne (c j : Nat) (x : Core) (h : j ≠ c) : (s.setSc c x).sc j = s.sc j :=
  Tab.get_set_ne _ _ _ _ _ h

/-! ## setDsp -/

@[simp] theorem State.setDsp_pending (pd : Nat) (d : Disp) : (s.setDsp pd d).pending = s.pending := rfl
@[simp] theorem State.setDsp_part (pd : Nat) (d : Disp) : (s.setDsp pd d).part = s.part := rfl
@[simp] theorem State.setDsp_mem (pd : Nat) (d : Disp) : (s.setDsp pd d).mem = s.mem := rfl
@[simp] theorem State.setDsp_regs (pd : Nat) (d : Disp) : (s.setDsp pd d).regs = s.regs := rfl
@[simp] theorem State.setDsp_clusters (pd : Nat) (d : Disp) : (s.setDsp pd d).clusters = s.clusters := rfl
@[simp] theorem State.setDsp_cores (pd : Nat) (d : Disp) : (s.setDsp pd d).cores = s.cores := rfl
@[simp] theorem State.setDsp_lamps (pd : Nat) (d : Disp) : (s.setDsp pd d).lamps = s.lamps := rfl
@[simp] theorem State.setDsp_lses (pd : Nat) (d : Disp) : (s.setDsp pd d).lses = s.lses := rfl
@[simp] theorem State.setDsp_upds (pd : Nat) (d : Disp) : (s.setDsp pd d).upds = s.upds := rfl
@[simp] theorem State.setDsp_mcs (pd : Nat) (d : Disp) : (s.setDsp pd d).mcs = s.mcs := rfl
@[simp] theorem State.setDsp_tags (pd : Nat) (d : Disp) : (s.setDsp pd d).tags = s.tags := rfl
@[simp] theorem State.setDsp_retags (pd : Nat) (d : Disp) : (s.setDsp pd d).retags = s.retags := rfl
@[simp] theorem State.setDsp_cryptP (pd : Nat) (d : Disp) : (s.setDsp pd d).cryptP = s.cryptP := rfl
@[simp] theorem State.setDsp_cryptU (pd : Nat) (d : Disp) : (s.setDsp pd d).cryptU = s.cryptU := rfl
@[simp] theorem State.setDsp_poison (pd : Nat) (d : Disp) : (s.setDsp pd d).poison = s.poison := rfl
@[simp] theorem State.setDsp_flips (pd : Nat) (d : Disp) : (s.setDsp pd d).flips = s.flips := rfl
@[simp] theorem State.setDsp_answer (pd : Nat) (d : Disp) : (s.setDsp pd d).answer = s.answer := rfl
@[simp] theorem State.setDsp_ports (pd : Nat) (d : Disp) : (s.setDsp pd d).ports = s.ports := rfl
@[simp] theorem State.setDsp_routers (pd : Nat) (d : Disp) : (s.setDsp pd d).routers = s.routers := rfl
@[simp] theorem State.setDsp_wire (pd : Nat) (d : Disp) : (s.setDsp pd d).wire = s.wire := rfl
@[simp] theorem State.setDsp_seqCtr (pd : Nat) (d : Disp) : (s.setDsp pd d).seqCtr = s.seqCtr := rfl
@[simp] theorem State.setDsp_reqs (pd : Nat) (d : Disp) : (s.setDsp pd d).reqs = s.reqs := rfl
@[simp] theorem State.setDsp_tracked (pd : Nat) (d : Disp) : (s.setDsp pd d).tracked = s.tracked := rfl
@[simp] theorem State.setDsp_homeKeys (pd : Nat) (d : Disp) : (s.setDsp pd d).homeKeys = s.homeKeys := rfl
@[simp] theorem State.setDsp_fontKeys (pd : Nat) (d : Disp) : (s.setDsp pd d).fontKeys = s.fontKeys := rfl
@[simp] theorem State.setDsp_outKeys (pd : Nat) (d : Disp) : (s.setDsp pd d).outKeys = s.outKeys := rfl
@[simp] theorem State.setDsp_dir (pd : Nat) (d : Disp) : (s.setDsp pd d).dir = s.dir := rfl
@[simp] theorem State.setDsp_lines (pd : Nat) (d : Disp) : (s.setDsp pd d).lines = s.lines := rfl
@[simp] theorem State.setDsp_recalls (pd : Nat) (d : Disp) : (s.setDsp pd d).recalls = s.recalls := rfl
@[simp] theorem State.setDsp_done (pd : Nat) (d : Disp) : (s.setDsp pd d).done = s.done := rfl
@[simp] theorem State.setDsp_valleyLost (pd : Nat) (d : Disp) : (s.setDsp pd d).valleyLost = s.valleyLost := rfl
@[simp] theorem State.setDsp_valleyOwn (pd : Nat) (d : Disp) : (s.setDsp pd d).valleyOwn = s.valleyOwn := rfl
@[simp] theorem State.setDsp_cus (pd : Nat) (d : Disp) : (s.setDsp pd d).cus = s.cus := rfl
@[simp] theorem State.setDsp_time (pd : Nat) (d : Disp) : (s.setDsp pd d).time = s.time := rfl
@[simp] theorem State.setDsp_tm (pd : Nat) (d : Disp) : (s.setDsp pd d).tm = s.tm := rfl
@[simp] theorem State.setDsp_job (pd : Nat) (d : Disp) : (s.setDsp pd d).job = s.job := rfl
@[simp] theorem State.setDsp_sec (pd : Nat) (d : Disp) : (s.setDsp pd d).sec = s.sec := rfl
@[simp] theorem State.setDsp_hosts (pd : Nat) (d : Disp) : (s.setDsp pd d).hosts = s.hosts := rfl
@[simp] theorem State.setDsp_err (pd : Nat) (d : Disp) : (s.setDsp pd d).err = s.err := rfl
@[simp] theorem State.setDsp_power (pd : Nat) (d : Disp) : (s.setDsp pd d).power = s.power := rfl
@[simp] theorem State.setDsp_jtag (pd : Nat) (d : Disp) : (s.setDsp pd d).jtag = s.jtag := rfl
@[simp] theorem State.setDsp_free (pd : Nat) (d : Disp) : (s.setDsp pd d).free = s.free := rfl
@[simp] theorem State.cl_setDsp (pd j : Nat) (d : Disp) : (s.setDsp pd d).cl j = s.cl j := rfl
@[simp] theorem State.sc_setDsp (pd j : Nat) (d : Disp) : (s.setDsp pd d).sc j = s.sc j := rfl
@[simp] theorem State.lamp_setDsp (pd j : Nat) (d : Disp) : (s.setDsp pd d).lamp j = s.lamp j := rfl
@[simp] theorem State.lse_setDsp (pd j : Nat) (d : Disp) : (s.setDsp pd d).lse j = s.lse j := rfl
@[simp] theorem State.uu_setDsp (pd j : Nat) (d : Disp) : (s.setDsp pd d).uu j = s.uu j := rfl
@[simp] theorem State.mc_setDsp (pd j : Nat) (d : Disp) : (s.setDsp pd d).mc j = s.mc j := rfl
@[simp] theorem State.port_setDsp (pd j : Nat) (d : Disp) : (s.setDsp pd d).port j = s.port j := rfl
@[simp] theorem State.fr_setDsp (pd j : Nat) (d : Disp) : (s.setDsp pd d).fr j = s.fr j := rfl
@[simp] theorem State.cu_setDsp (pd j : Nat) (d : Disp) : (s.setDsp pd d).cu j = s.cu j := rfl
@[simp] theorem State.he_setDsp (pd j : Nat) (d : Disp) : (s.setDsp pd d).he j = s.he j := rfl
@[simp] theorem State.reg_setDsp (pd j : Nat) (d : Disp) : (s.setDsp pd d).reg j = s.reg j := rfl

@[simp] theorem State.setDsp_setDsp (pd : Nat) (a b : Disp) : (s.setDsp pd a).setDsp pd b = s.setDsp pd b := by
  simp [State.setDsp, Tab.set_set]

@[simp] theorem State.dsp_setDsp_same (pd : Nat) (d : Disp) : (s.setDsp pd d).dsp pd = d := Tab.get_set_same _ _ _ _

theorem State.dsp_setDsp_ne (pd j : Nat) (d : Disp) (h : j ≠ pd) : (s.setDsp pd d).dsp j = s.dsp j :=
  Tab.get_set_ne _ _ _ _ _ h

/-! ## setLamp -/

@[simp] theorem State.setLamp_pending (d : Nat) (l : Lamp) : (s.setLamp d l).pending = s.pending := rfl
@[simp] theorem State.setLamp_part (d : Nat) (l : Lamp) : (s.setLamp d l).part = s.part := rfl
@[simp] theorem State.setLamp_mem (d : Nat) (l : Lamp) : (s.setLamp d l).mem = s.mem := rfl
@[simp] theorem State.setLamp_regs (d : Nat) (l : Lamp) : (s.setLamp d l).regs = s.regs := rfl
@[simp] theorem State.setLamp_clusters (d : Nat) (l : Lamp) : (s.setLamp d l).clusters = s.clusters := rfl
@[simp] theorem State.setLamp_cores (d : Nat) (l : Lamp) : (s.setLamp d l).cores = s.cores := rfl
@[simp] theorem State.setLamp_disps (d : Nat) (l : Lamp) : (s.setLamp d l).disps = s.disps := rfl
@[simp] theorem State.setLamp_lses (d : Nat) (l : Lamp) : (s.setLamp d l).lses = s.lses := rfl
@[simp] theorem State.setLamp_upds (d : Nat) (l : Lamp) : (s.setLamp d l).upds = s.upds := rfl
@[simp] theorem State.setLamp_mcs (d : Nat) (l : Lamp) : (s.setLamp d l).mcs = s.mcs := rfl
@[simp] theorem State.setLamp_tags (d : Nat) (l : Lamp) : (s.setLamp d l).tags = s.tags := rfl
@[simp] theorem State.setLamp_retags (d : Nat) (l : Lamp) : (s.setLamp d l).retags = s.retags := rfl
@[simp] theorem State.setLamp_cryptP (d : Nat) (l : Lamp) : (s.setLamp d l).cryptP = s.cryptP := rfl
@[simp] theorem State.setLamp_cryptU (d : Nat) (l : Lamp) : (s.setLamp d l).cryptU = s.cryptU := rfl
@[simp] theorem State.setLamp_poison (d : Nat) (l : Lamp) : (s.setLamp d l).poison = s.poison := rfl
@[simp] theorem State.setLamp_flips (d : Nat) (l : Lamp) : (s.setLamp d l).flips = s.flips := rfl
@[simp] theorem State.setLamp_answer (d : Nat) (l : Lamp) : (s.setLamp d l).answer = s.answer := rfl
@[simp] theorem State.setLamp_ports (d : Nat) (l : Lamp) : (s.setLamp d l).ports = s.ports := rfl
@[simp] theorem State.setLamp_routers (d : Nat) (l : Lamp) : (s.setLamp d l).routers = s.routers := rfl
@[simp] theorem State.setLamp_wire (d : Nat) (l : Lamp) : (s.setLamp d l).wire = s.wire := rfl
@[simp] theorem State.setLamp_seqCtr (d : Nat) (l : Lamp) : (s.setLamp d l).seqCtr = s.seqCtr := rfl
@[simp] theorem State.setLamp_reqs (d : Nat) (l : Lamp) : (s.setLamp d l).reqs = s.reqs := rfl
@[simp] theorem State.setLamp_tracked (d : Nat) (l : Lamp) : (s.setLamp d l).tracked = s.tracked := rfl
@[simp] theorem State.setLamp_homeKeys (d : Nat) (l : Lamp) : (s.setLamp d l).homeKeys = s.homeKeys := rfl
@[simp] theorem State.setLamp_fontKeys (d : Nat) (l : Lamp) : (s.setLamp d l).fontKeys = s.fontKeys := rfl
@[simp] theorem State.setLamp_outKeys (d : Nat) (l : Lamp) : (s.setLamp d l).outKeys = s.outKeys := rfl
@[simp] theorem State.setLamp_dir (d : Nat) (l : Lamp) : (s.setLamp d l).dir = s.dir := rfl
@[simp] theorem State.setLamp_lines (d : Nat) (l : Lamp) : (s.setLamp d l).lines = s.lines := rfl
@[simp] theorem State.setLamp_recalls (d : Nat) (l : Lamp) : (s.setLamp d l).recalls = s.recalls := rfl
@[simp] theorem State.setLamp_done (d : Nat) (l : Lamp) : (s.setLamp d l).done = s.done := rfl
@[simp] theorem State.setLamp_valleyLost (d : Nat) (l : Lamp) : (s.setLamp d l).valleyLost = s.valleyLost := rfl
@[simp] theorem State.setLamp_valleyOwn (d : Nat) (l : Lamp) : (s.setLamp d l).valleyOwn = s.valleyOwn := rfl
@[simp] theorem State.setLamp_cus (d : Nat) (l : Lamp) : (s.setLamp d l).cus = s.cus := rfl
@[simp] theorem State.setLamp_time (d : Nat) (l : Lamp) : (s.setLamp d l).time = s.time := rfl
@[simp] theorem State.setLamp_tm (d : Nat) (l : Lamp) : (s.setLamp d l).tm = s.tm := rfl
@[simp] theorem State.setLamp_job (d : Nat) (l : Lamp) : (s.setLamp d l).job = s.job := rfl
@[simp] theorem State.setLamp_sec (d : Nat) (l : Lamp) : (s.setLamp d l).sec = s.sec := rfl
@[simp] theorem State.setLamp_hosts (d : Nat) (l : Lamp) : (s.setLamp d l).hosts = s.hosts := rfl
@[simp] theorem State.setLamp_err (d : Nat) (l : Lamp) : (s.setLamp d l).err = s.err := rfl
@[simp] theorem State.setLamp_power (d : Nat) (l : Lamp) : (s.setLamp d l).power = s.power := rfl
@[simp] theorem State.setLamp_jtag (d : Nat) (l : Lamp) : (s.setLamp d l).jtag = s.jtag := rfl
@[simp] theorem State.setLamp_free (d : Nat) (l : Lamp) : (s.setLamp d l).free = s.free := rfl
@[simp] theorem State.cl_setLamp (d j : Nat) (l : Lamp) : (s.setLamp d l).cl j = s.cl j := rfl
@[simp] theorem State.sc_setLamp (d j : Nat) (l : Lamp) : (s.setLamp d l).sc j = s.sc j := rfl
@[simp] theorem State.dsp_setLamp (d j : Nat) (l : Lamp) : (s.setLamp d l).dsp j = s.dsp j := rfl
@[simp] theorem State.lse_setLamp (d j : Nat) (l : Lamp) : (s.setLamp d l).lse j = s.lse j := rfl
@[simp] theorem State.uu_setLamp (d j : Nat) (l : Lamp) : (s.setLamp d l).uu j = s.uu j := rfl
@[simp] theorem State.mc_setLamp (d j : Nat) (l : Lamp) : (s.setLamp d l).mc j = s.mc j := rfl
@[simp] theorem State.port_setLamp (d j : Nat) (l : Lamp) : (s.setLamp d l).port j = s.port j := rfl
@[simp] theorem State.fr_setLamp (d j : Nat) (l : Lamp) : (s.setLamp d l).fr j = s.fr j := rfl
@[simp] theorem State.cu_setLamp (d j : Nat) (l : Lamp) : (s.setLamp d l).cu j = s.cu j := rfl
@[simp] theorem State.he_setLamp (d j : Nat) (l : Lamp) : (s.setLamp d l).he j = s.he j := rfl
@[simp] theorem State.reg_setLamp (d j : Nat) (l : Lamp) : (s.setLamp d l).reg j = s.reg j := rfl

@[simp] theorem State.setLamp_setLamp (d : Nat) (a b : Lamp) : (s.setLamp d a).setLamp d b = s.setLamp d b := by
  simp [State.setLamp, Tab.set_set]

@[simp] theorem State.lamp_setLamp_same (d : Nat) (l : Lamp) : (s.setLamp d l).lamp d = l := Tab.get_set_same _ _ _ _

theorem State.lamp_setLamp_ne (d j : Nat) (l : Lamp) (h : j ≠ d) : (s.setLamp d l).lamp j = s.lamp j :=
  Tab.get_set_ne _ _ _ _ _ h

/-! ## setLse -/

@[simp] theorem State.setLse_pending (n : Nat) (l : Lse) : (s.setLse n l).pending = s.pending := rfl
@[simp] theorem State.setLse_part (n : Nat) (l : Lse) : (s.setLse n l).part = s.part := rfl
@[simp] theorem State.setLse_mem (n : Nat) (l : Lse) : (s.setLse n l).mem = s.mem := rfl
@[simp] theorem State.setLse_regs (n : Nat) (l : Lse) : (s.setLse n l).regs = s.regs := rfl
@[simp] theorem State.setLse_clusters (n : Nat) (l : Lse) : (s.setLse n l).clusters = s.clusters := rfl
@[simp] theorem State.setLse_cores (n : Nat) (l : Lse) : (s.setLse n l).cores = s.cores := rfl
@[simp] theorem State.setLse_disps (n : Nat) (l : Lse) : (s.setLse n l).disps = s.disps := rfl
@[simp] theorem State.setLse_lamps (n : Nat) (l : Lse) : (s.setLse n l).lamps = s.lamps := rfl
@[simp] theorem State.setLse_upds (n : Nat) (l : Lse) : (s.setLse n l).upds = s.upds := rfl
@[simp] theorem State.setLse_mcs (n : Nat) (l : Lse) : (s.setLse n l).mcs = s.mcs := rfl
@[simp] theorem State.setLse_tags (n : Nat) (l : Lse) : (s.setLse n l).tags = s.tags := rfl
@[simp] theorem State.setLse_retags (n : Nat) (l : Lse) : (s.setLse n l).retags = s.retags := rfl
@[simp] theorem State.setLse_cryptP (n : Nat) (l : Lse) : (s.setLse n l).cryptP = s.cryptP := rfl
@[simp] theorem State.setLse_cryptU (n : Nat) (l : Lse) : (s.setLse n l).cryptU = s.cryptU := rfl
@[simp] theorem State.setLse_poison (n : Nat) (l : Lse) : (s.setLse n l).poison = s.poison := rfl
@[simp] theorem State.setLse_flips (n : Nat) (l : Lse) : (s.setLse n l).flips = s.flips := rfl
@[simp] theorem State.setLse_answer (n : Nat) (l : Lse) : (s.setLse n l).answer = s.answer := rfl
@[simp] theorem State.setLse_ports (n : Nat) (l : Lse) : (s.setLse n l).ports = s.ports := rfl
@[simp] theorem State.setLse_routers (n : Nat) (l : Lse) : (s.setLse n l).routers = s.routers := rfl
@[simp] theorem State.setLse_wire (n : Nat) (l : Lse) : (s.setLse n l).wire = s.wire := rfl
@[simp] theorem State.setLse_seqCtr (n : Nat) (l : Lse) : (s.setLse n l).seqCtr = s.seqCtr := rfl
@[simp] theorem State.setLse_reqs (n : Nat) (l : Lse) : (s.setLse n l).reqs = s.reqs := rfl
@[simp] theorem State.setLse_tracked (n : Nat) (l : Lse) : (s.setLse n l).tracked = s.tracked := rfl
@[simp] theorem State.setLse_homeKeys (n : Nat) (l : Lse) : (s.setLse n l).homeKeys = s.homeKeys := rfl
@[simp] theorem State.setLse_fontKeys (n : Nat) (l : Lse) : (s.setLse n l).fontKeys = s.fontKeys := rfl
@[simp] theorem State.setLse_outKeys (n : Nat) (l : Lse) : (s.setLse n l).outKeys = s.outKeys := rfl
@[simp] theorem State.setLse_dir (n : Nat) (l : Lse) : (s.setLse n l).dir = s.dir := rfl
@[simp] theorem State.setLse_lines (n : Nat) (l : Lse) : (s.setLse n l).lines = s.lines := rfl
@[simp] theorem State.setLse_recalls (n : Nat) (l : Lse) : (s.setLse n l).recalls = s.recalls := rfl
@[simp] theorem State.setLse_done (n : Nat) (l : Lse) : (s.setLse n l).done = s.done := rfl
@[simp] theorem State.setLse_valleyLost (n : Nat) (l : Lse) : (s.setLse n l).valleyLost = s.valleyLost := rfl
@[simp] theorem State.setLse_valleyOwn (n : Nat) (l : Lse) : (s.setLse n l).valleyOwn = s.valleyOwn := rfl
@[simp] theorem State.setLse_cus (n : Nat) (l : Lse) : (s.setLse n l).cus = s.cus := rfl
@[simp] theorem State.setLse_time (n : Nat) (l : Lse) : (s.setLse n l).time = s.time := rfl
@[simp] theorem State.setLse_tm (n : Nat) (l : Lse) : (s.setLse n l).tm = s.tm := rfl
@[simp] theorem State.setLse_job (n : Nat) (l : Lse) : (s.setLse n l).job = s.job := rfl
@[simp] theorem State.setLse_sec (n : Nat) (l : Lse) : (s.setLse n l).sec = s.sec := rfl
@[simp] theorem State.setLse_hosts (n : Nat) (l : Lse) : (s.setLse n l).hosts = s.hosts := rfl
@[simp] theorem State.setLse_err (n : Nat) (l : Lse) : (s.setLse n l).err = s.err := rfl
@[simp] theorem State.setLse_power (n : Nat) (l : Lse) : (s.setLse n l).power = s.power := rfl
@[simp] theorem State.setLse_jtag (n : Nat) (l : Lse) : (s.setLse n l).jtag = s.jtag := rfl
@[simp] theorem State.setLse_free (n : Nat) (l : Lse) : (s.setLse n l).free = s.free := rfl
@[simp] theorem State.cl_setLse (n j : Nat) (l : Lse) : (s.setLse n l).cl j = s.cl j := rfl
@[simp] theorem State.sc_setLse (n j : Nat) (l : Lse) : (s.setLse n l).sc j = s.sc j := rfl
@[simp] theorem State.dsp_setLse (n j : Nat) (l : Lse) : (s.setLse n l).dsp j = s.dsp j := rfl
@[simp] theorem State.lamp_setLse (n j : Nat) (l : Lse) : (s.setLse n l).lamp j = s.lamp j := rfl
@[simp] theorem State.uu_setLse (n j : Nat) (l : Lse) : (s.setLse n l).uu j = s.uu j := rfl
@[simp] theorem State.mc_setLse (n j : Nat) (l : Lse) : (s.setLse n l).mc j = s.mc j := rfl
@[simp] theorem State.port_setLse (n j : Nat) (l : Lse) : (s.setLse n l).port j = s.port j := rfl
@[simp] theorem State.fr_setLse (n j : Nat) (l : Lse) : (s.setLse n l).fr j = s.fr j := rfl
@[simp] theorem State.cu_setLse (n j : Nat) (l : Lse) : (s.setLse n l).cu j = s.cu j := rfl
@[simp] theorem State.he_setLse (n j : Nat) (l : Lse) : (s.setLse n l).he j = s.he j := rfl
@[simp] theorem State.reg_setLse (n j : Nat) (l : Lse) : (s.setLse n l).reg j = s.reg j := rfl

@[simp] theorem State.setLse_setLse (n : Nat) (a b : Lse) : (s.setLse n a).setLse n b = s.setLse n b := by
  simp [State.setLse, Tab.set_set]

@[simp] theorem State.lse_setLse_same (n : Nat) (l : Lse) : (s.setLse n l).lse n = l := Tab.get_set_same _ _ _ _

theorem State.lse_setLse_ne (n j : Nat) (l : Lse) (h : j ≠ n) : (s.setLse n l).lse j = s.lse j :=
  Tab.get_set_ne _ _ _ _ _ h

/-! ## setUu -/

@[simp] theorem State.setUu_pending (k : Nat) (u : Upd) : (s.setUu k u).pending = s.pending := rfl
@[simp] theorem State.setUu_part (k : Nat) (u : Upd) : (s.setUu k u).part = s.part := rfl
@[simp] theorem State.setUu_mem (k : Nat) (u : Upd) : (s.setUu k u).mem = s.mem := rfl
@[simp] theorem State.setUu_regs (k : Nat) (u : Upd) : (s.setUu k u).regs = s.regs := rfl
@[simp] theorem State.setUu_clusters (k : Nat) (u : Upd) : (s.setUu k u).clusters = s.clusters := rfl
@[simp] theorem State.setUu_cores (k : Nat) (u : Upd) : (s.setUu k u).cores = s.cores := rfl
@[simp] theorem State.setUu_disps (k : Nat) (u : Upd) : (s.setUu k u).disps = s.disps := rfl
@[simp] theorem State.setUu_lamps (k : Nat) (u : Upd) : (s.setUu k u).lamps = s.lamps := rfl
@[simp] theorem State.setUu_lses (k : Nat) (u : Upd) : (s.setUu k u).lses = s.lses := rfl
@[simp] theorem State.setUu_mcs (k : Nat) (u : Upd) : (s.setUu k u).mcs = s.mcs := rfl
@[simp] theorem State.setUu_tags (k : Nat) (u : Upd) : (s.setUu k u).tags = s.tags := rfl
@[simp] theorem State.setUu_retags (k : Nat) (u : Upd) : (s.setUu k u).retags = s.retags := rfl
@[simp] theorem State.setUu_cryptP (k : Nat) (u : Upd) : (s.setUu k u).cryptP = s.cryptP := rfl
@[simp] theorem State.setUu_cryptU (k : Nat) (u : Upd) : (s.setUu k u).cryptU = s.cryptU := rfl
@[simp] theorem State.setUu_poison (k : Nat) (u : Upd) : (s.setUu k u).poison = s.poison := rfl
@[simp] theorem State.setUu_flips (k : Nat) (u : Upd) : (s.setUu k u).flips = s.flips := rfl
@[simp] theorem State.setUu_answer (k : Nat) (u : Upd) : (s.setUu k u).answer = s.answer := rfl
@[simp] theorem State.setUu_ports (k : Nat) (u : Upd) : (s.setUu k u).ports = s.ports := rfl
@[simp] theorem State.setUu_routers (k : Nat) (u : Upd) : (s.setUu k u).routers = s.routers := rfl
@[simp] theorem State.setUu_wire (k : Nat) (u : Upd) : (s.setUu k u).wire = s.wire := rfl
@[simp] theorem State.setUu_seqCtr (k : Nat) (u : Upd) : (s.setUu k u).seqCtr = s.seqCtr := rfl
@[simp] theorem State.setUu_reqs (k : Nat) (u : Upd) : (s.setUu k u).reqs = s.reqs := rfl
@[simp] theorem State.setUu_tracked (k : Nat) (u : Upd) : (s.setUu k u).tracked = s.tracked := rfl
@[simp] theorem State.setUu_homeKeys (k : Nat) (u : Upd) : (s.setUu k u).homeKeys = s.homeKeys := rfl
@[simp] theorem State.setUu_fontKeys (k : Nat) (u : Upd) : (s.setUu k u).fontKeys = s.fontKeys := rfl
@[simp] theorem State.setUu_outKeys (k : Nat) (u : Upd) : (s.setUu k u).outKeys = s.outKeys := rfl
@[simp] theorem State.setUu_dir (k : Nat) (u : Upd) : (s.setUu k u).dir = s.dir := rfl
@[simp] theorem State.setUu_lines (k : Nat) (u : Upd) : (s.setUu k u).lines = s.lines := rfl
@[simp] theorem State.setUu_recalls (k : Nat) (u : Upd) : (s.setUu k u).recalls = s.recalls := rfl
@[simp] theorem State.setUu_done (k : Nat) (u : Upd) : (s.setUu k u).done = s.done := rfl
@[simp] theorem State.setUu_valleyLost (k : Nat) (u : Upd) : (s.setUu k u).valleyLost = s.valleyLost := rfl
@[simp] theorem State.setUu_valleyOwn (k : Nat) (u : Upd) : (s.setUu k u).valleyOwn = s.valleyOwn := rfl
@[simp] theorem State.setUu_cus (k : Nat) (u : Upd) : (s.setUu k u).cus = s.cus := rfl
@[simp] theorem State.setUu_time (k : Nat) (u : Upd) : (s.setUu k u).time = s.time := rfl
@[simp] theorem State.setUu_tm (k : Nat) (u : Upd) : (s.setUu k u).tm = s.tm := rfl
@[simp] theorem State.setUu_job (k : Nat) (u : Upd) : (s.setUu k u).job = s.job := rfl
@[simp] theorem State.setUu_sec (k : Nat) (u : Upd) : (s.setUu k u).sec = s.sec := rfl
@[simp] theorem State.setUu_hosts (k : Nat) (u : Upd) : (s.setUu k u).hosts = s.hosts := rfl
@[simp] theorem State.setUu_err (k : Nat) (u : Upd) : (s.setUu k u).err = s.err := rfl
@[simp] theorem State.setUu_power (k : Nat) (u : Upd) : (s.setUu k u).power = s.power := rfl
@[simp] theorem State.setUu_jtag (k : Nat) (u : Upd) : (s.setUu k u).jtag = s.jtag := rfl
@[simp] theorem State.setUu_free (k : Nat) (u : Upd) : (s.setUu k u).free = s.free := rfl
@[simp] theorem State.cl_setUu (k j : Nat) (u : Upd) : (s.setUu k u).cl j = s.cl j := rfl
@[simp] theorem State.sc_setUu (k j : Nat) (u : Upd) : (s.setUu k u).sc j = s.sc j := rfl
@[simp] theorem State.dsp_setUu (k j : Nat) (u : Upd) : (s.setUu k u).dsp j = s.dsp j := rfl
@[simp] theorem State.lamp_setUu (k j : Nat) (u : Upd) : (s.setUu k u).lamp j = s.lamp j := rfl
@[simp] theorem State.lse_setUu (k j : Nat) (u : Upd) : (s.setUu k u).lse j = s.lse j := rfl
@[simp] theorem State.mc_setUu (k j : Nat) (u : Upd) : (s.setUu k u).mc j = s.mc j := rfl
@[simp] theorem State.port_setUu (k j : Nat) (u : Upd) : (s.setUu k u).port j = s.port j := rfl
@[simp] theorem State.fr_setUu (k j : Nat) (u : Upd) : (s.setUu k u).fr j = s.fr j := rfl
@[simp] theorem State.cu_setUu (k j : Nat) (u : Upd) : (s.setUu k u).cu j = s.cu j := rfl
@[simp] theorem State.he_setUu (k j : Nat) (u : Upd) : (s.setUu k u).he j = s.he j := rfl
@[simp] theorem State.reg_setUu (k j : Nat) (u : Upd) : (s.setUu k u).reg j = s.reg j := rfl

@[simp] theorem State.setUu_setUu (k : Nat) (a b : Upd) : (s.setUu k a).setUu k b = s.setUu k b := by
  simp [State.setUu, Tab.set_set]

@[simp] theorem State.uu_setUu_same (k : Nat) (u : Upd) : (s.setUu k u).uu k = u := Tab.get_set_same _ _ _ _

theorem State.uu_setUu_ne (k j : Nat) (u : Upd) (h : j ≠ k) : (s.setUu k u).uu j = s.uu j :=
  Tab.get_set_ne _ _ _ _ _ h

/-! ## setMc -/

@[simp] theorem State.setMc_pending (k : Nat) (m : Mc) : (s.setMc k m).pending = s.pending := rfl
@[simp] theorem State.setMc_part (k : Nat) (m : Mc) : (s.setMc k m).part = s.part := rfl
@[simp] theorem State.setMc_mem (k : Nat) (m : Mc) : (s.setMc k m).mem = s.mem := rfl
@[simp] theorem State.setMc_regs (k : Nat) (m : Mc) : (s.setMc k m).regs = s.regs := rfl
@[simp] theorem State.setMc_clusters (k : Nat) (m : Mc) : (s.setMc k m).clusters = s.clusters := rfl
@[simp] theorem State.setMc_cores (k : Nat) (m : Mc) : (s.setMc k m).cores = s.cores := rfl
@[simp] theorem State.setMc_disps (k : Nat) (m : Mc) : (s.setMc k m).disps = s.disps := rfl
@[simp] theorem State.setMc_lamps (k : Nat) (m : Mc) : (s.setMc k m).lamps = s.lamps := rfl
@[simp] theorem State.setMc_lses (k : Nat) (m : Mc) : (s.setMc k m).lses = s.lses := rfl
@[simp] theorem State.setMc_upds (k : Nat) (m : Mc) : (s.setMc k m).upds = s.upds := rfl
@[simp] theorem State.setMc_tags (k : Nat) (m : Mc) : (s.setMc k m).tags = s.tags := rfl
@[simp] theorem State.setMc_retags (k : Nat) (m : Mc) : (s.setMc k m).retags = s.retags := rfl
@[simp] theorem State.setMc_cryptP (k : Nat) (m : Mc) : (s.setMc k m).cryptP = s.cryptP := rfl
@[simp] theorem State.setMc_cryptU (k : Nat) (m : Mc) : (s.setMc k m).cryptU = s.cryptU := rfl
@[simp] theorem State.setMc_poison (k : Nat) (m : Mc) : (s.setMc k m).poison = s.poison := rfl
@[simp] theorem State.setMc_flips (k : Nat) (m : Mc) : (s.setMc k m).flips = s.flips := rfl
@[simp] theorem State.setMc_answer (k : Nat) (m : Mc) : (s.setMc k m).answer = s.answer := rfl
@[simp] theorem State.setMc_ports (k : Nat) (m : Mc) : (s.setMc k m).ports = s.ports := rfl
@[simp] theorem State.setMc_routers (k : Nat) (m : Mc) : (s.setMc k m).routers = s.routers := rfl
@[simp] theorem State.setMc_wire (k : Nat) (m : Mc) : (s.setMc k m).wire = s.wire := rfl
@[simp] theorem State.setMc_seqCtr (k : Nat) (m : Mc) : (s.setMc k m).seqCtr = s.seqCtr := rfl
@[simp] theorem State.setMc_reqs (k : Nat) (m : Mc) : (s.setMc k m).reqs = s.reqs := rfl
@[simp] theorem State.setMc_tracked (k : Nat) (m : Mc) : (s.setMc k m).tracked = s.tracked := rfl
@[simp] theorem State.setMc_homeKeys (k : Nat) (m : Mc) : (s.setMc k m).homeKeys = s.homeKeys := rfl
@[simp] theorem State.setMc_fontKeys (k : Nat) (m : Mc) : (s.setMc k m).fontKeys = s.fontKeys := rfl
@[simp] theorem State.setMc_outKeys (k : Nat) (m : Mc) : (s.setMc k m).outKeys = s.outKeys := rfl
@[simp] theorem State.setMc_dir (k : Nat) (m : Mc) : (s.setMc k m).dir = s.dir := rfl
@[simp] theorem State.setMc_lines (k : Nat) (m : Mc) : (s.setMc k m).lines = s.lines := rfl
@[simp] theorem State.setMc_recalls (k : Nat) (m : Mc) : (s.setMc k m).recalls = s.recalls := rfl
@[simp] theorem State.setMc_done (k : Nat) (m : Mc) : (s.setMc k m).done = s.done := rfl
@[simp] theorem State.setMc_valleyLost (k : Nat) (m : Mc) : (s.setMc k m).valleyLost = s.valleyLost := rfl
@[simp] theorem State.setMc_valleyOwn (k : Nat) (m : Mc) : (s.setMc k m).valleyOwn = s.valleyOwn := rfl
@[simp] theorem State.setMc_cus (k : Nat) (m : Mc) : (s.setMc k m).cus = s.cus := rfl
@[simp] theorem State.setMc_time (k : Nat) (m : Mc) : (s.setMc k m).time = s.time := rfl
@[simp] theorem State.setMc_tm (k : Nat) (m : Mc) : (s.setMc k m).tm = s.tm := rfl
@[simp] theorem State.setMc_job (k : Nat) (m : Mc) : (s.setMc k m).job = s.job := rfl
@[simp] theorem State.setMc_sec (k : Nat) (m : Mc) : (s.setMc k m).sec = s.sec := rfl
@[simp] theorem State.setMc_hosts (k : Nat) (m : Mc) : (s.setMc k m).hosts = s.hosts := rfl
@[simp] theorem State.setMc_err (k : Nat) (m : Mc) : (s.setMc k m).err = s.err := rfl
@[simp] theorem State.setMc_power (k : Nat) (m : Mc) : (s.setMc k m).power = s.power := rfl
@[simp] theorem State.setMc_jtag (k : Nat) (m : Mc) : (s.setMc k m).jtag = s.jtag := rfl
@[simp] theorem State.setMc_free (k : Nat) (m : Mc) : (s.setMc k m).free = s.free := rfl
@[simp] theorem State.cl_setMc (k j : Nat) (m : Mc) : (s.setMc k m).cl j = s.cl j := rfl
@[simp] theorem State.sc_setMc (k j : Nat) (m : Mc) : (s.setMc k m).sc j = s.sc j := rfl
@[simp] theorem State.dsp_setMc (k j : Nat) (m : Mc) : (s.setMc k m).dsp j = s.dsp j := rfl
@[simp] theorem State.lamp_setMc (k j : Nat) (m : Mc) : (s.setMc k m).lamp j = s.lamp j := rfl
@[simp] theorem State.lse_setMc (k j : Nat) (m : Mc) : (s.setMc k m).lse j = s.lse j := rfl
@[simp] theorem State.uu_setMc (k j : Nat) (m : Mc) : (s.setMc k m).uu j = s.uu j := rfl
@[simp] theorem State.port_setMc (k j : Nat) (m : Mc) : (s.setMc k m).port j = s.port j := rfl
@[simp] theorem State.fr_setMc (k j : Nat) (m : Mc) : (s.setMc k m).fr j = s.fr j := rfl
@[simp] theorem State.cu_setMc (k j : Nat) (m : Mc) : (s.setMc k m).cu j = s.cu j := rfl
@[simp] theorem State.he_setMc (k j : Nat) (m : Mc) : (s.setMc k m).he j = s.he j := rfl
@[simp] theorem State.reg_setMc (k j : Nat) (m : Mc) : (s.setMc k m).reg j = s.reg j := rfl

@[simp] theorem State.setMc_setMc (k : Nat) (a b : Mc) : (s.setMc k a).setMc k b = s.setMc k b := by
  simp [State.setMc, Tab.set_set]

@[simp] theorem State.mc_setMc_same (k : Nat) (m : Mc) : (s.setMc k m).mc k = m := Tab.get_set_same _ _ _ _

theorem State.mc_setMc_ne (k j : Nat) (m : Mc) (h : j ≠ k) : (s.setMc k m).mc j = s.mc j :=
  Tab.get_set_ne _ _ _ _ _ h

/-! ## setPort -/

@[simp] theorem State.setPort_pending (p : Nat) (x : Port) : (s.setPort p x).pending = s.pending := rfl
@[simp] theorem State.setPort_part (p : Nat) (x : Port) : (s.setPort p x).part = s.part := rfl
@[simp] theorem State.setPort_mem (p : Nat) (x : Port) : (s.setPort p x).mem = s.mem := rfl
@[simp] theorem State.setPort_regs (p : Nat) (x : Port) : (s.setPort p x).regs = s.regs := rfl
@[simp] theorem State.setPort_clusters (p : Nat) (x : Port) : (s.setPort p x).clusters = s.clusters := rfl
@[simp] theorem State.setPort_cores (p : Nat) (x : Port) : (s.setPort p x).cores = s.cores := rfl
@[simp] theorem State.setPort_disps (p : Nat) (x : Port) : (s.setPort p x).disps = s.disps := rfl
@[simp] theorem State.setPort_lamps (p : Nat) (x : Port) : (s.setPort p x).lamps = s.lamps := rfl
@[simp] theorem State.setPort_lses (p : Nat) (x : Port) : (s.setPort p x).lses = s.lses := rfl
@[simp] theorem State.setPort_upds (p : Nat) (x : Port) : (s.setPort p x).upds = s.upds := rfl
@[simp] theorem State.setPort_mcs (p : Nat) (x : Port) : (s.setPort p x).mcs = s.mcs := rfl
@[simp] theorem State.setPort_tags (p : Nat) (x : Port) : (s.setPort p x).tags = s.tags := rfl
@[simp] theorem State.setPort_retags (p : Nat) (x : Port) : (s.setPort p x).retags = s.retags := rfl
@[simp] theorem State.setPort_cryptP (p : Nat) (x : Port) : (s.setPort p x).cryptP = s.cryptP := rfl
@[simp] theorem State.setPort_cryptU (p : Nat) (x : Port) : (s.setPort p x).cryptU = s.cryptU := rfl
@[simp] theorem State.setPort_poison (p : Nat) (x : Port) : (s.setPort p x).poison = s.poison := rfl
@[simp] theorem State.setPort_flips (p : Nat) (x : Port) : (s.setPort p x).flips = s.flips := rfl
@[simp] theorem State.setPort_answer (p : Nat) (x : Port) : (s.setPort p x).answer = s.answer := rfl
@[simp] theorem State.setPort_routers (p : Nat) (x : Port) : (s.setPort p x).routers = s.routers := rfl
@[simp] theorem State.setPort_wire (p : Nat) (x : Port) : (s.setPort p x).wire = s.wire := rfl
@[simp] theorem State.setPort_seqCtr (p : Nat) (x : Port) : (s.setPort p x).seqCtr = s.seqCtr := rfl
@[simp] theorem State.setPort_reqs (p : Nat) (x : Port) : (s.setPort p x).reqs = s.reqs := rfl
@[simp] theorem State.setPort_tracked (p : Nat) (x : Port) : (s.setPort p x).tracked = s.tracked := rfl
@[simp] theorem State.setPort_homeKeys (p : Nat) (x : Port) : (s.setPort p x).homeKeys = s.homeKeys := rfl
@[simp] theorem State.setPort_fontKeys (p : Nat) (x : Port) : (s.setPort p x).fontKeys = s.fontKeys := rfl
@[simp] theorem State.setPort_outKeys (p : Nat) (x : Port) : (s.setPort p x).outKeys = s.outKeys := rfl
@[simp] theorem State.setPort_dir (p : Nat) (x : Port) : (s.setPort p x).dir = s.dir := rfl
@[simp] theorem State.setPort_lines (p : Nat) (x : Port) : (s.setPort p x).lines = s.lines := rfl
@[simp] theorem State.setPort_recalls (p : Nat) (x : Port) : (s.setPort p x).recalls = s.recalls := rfl
@[simp] theorem State.setPort_done (p : Nat) (x : Port) : (s.setPort p x).done = s.done := rfl
@[simp] theorem State.setPort_valleyLost (p : Nat) (x : Port) : (s.setPort p x).valleyLost = s.valleyLost := rfl
@[simp] theorem State.setPort_valleyOwn (p : Nat) (x : Port) : (s.setPort p x).valleyOwn = s.valleyOwn := rfl
@[simp] theorem State.setPort_cus (p : Nat) (x : Port) : (s.setPort p x).cus = s.cus := rfl
@[simp] theorem State.setPort_time (p : Nat) (x : Port) : (s.setPort p x).time = s.time := rfl
@[simp] theorem State.setPort_tm (p : Nat) (x : Port) : (s.setPort p x).tm = s.tm := rfl
@[simp] theorem State.setPort_job (p : Nat) (x : Port) : (s.setPort p x).job = s.job := rfl
@[simp] theorem State.setPort_sec (p : Nat) (x : Port) : (s.setPort p x).sec = s.sec := rfl
@[simp] theorem State.setPort_hosts (p : Nat) (x : Port) : (s.setPort p x).hosts = s.hosts := rfl
@[simp] theorem State.setPort_err (p : Nat) (x : Port) : (s.setPort p x).err = s.err := rfl
@[simp] theorem State.setPort_power (p : Nat) (x : Port) : (s.setPort p x).power = s.power := rfl
@[simp] theorem State.setPort_jtag (p : Nat) (x : Port) : (s.setPort p x).jtag = s.jtag := rfl
@[simp] theorem State.setPort_free (p : Nat) (x : Port) : (s.setPort p x).free = s.free := rfl
@[simp] theorem State.cl_setPort (p j : Nat) (x : Port) : (s.setPort p x).cl j = s.cl j := rfl
@[simp] theorem State.sc_setPort (p j : Nat) (x : Port) : (s.setPort p x).sc j = s.sc j := rfl
@[simp] theorem State.dsp_setPort (p j : Nat) (x : Port) : (s.setPort p x).dsp j = s.dsp j := rfl
@[simp] theorem State.lamp_setPort (p j : Nat) (x : Port) : (s.setPort p x).lamp j = s.lamp j := rfl
@[simp] theorem State.lse_setPort (p j : Nat) (x : Port) : (s.setPort p x).lse j = s.lse j := rfl
@[simp] theorem State.uu_setPort (p j : Nat) (x : Port) : (s.setPort p x).uu j = s.uu j := rfl
@[simp] theorem State.mc_setPort (p j : Nat) (x : Port) : (s.setPort p x).mc j = s.mc j := rfl
@[simp] theorem State.fr_setPort (p j : Nat) (x : Port) : (s.setPort p x).fr j = s.fr j := rfl
@[simp] theorem State.cu_setPort (p j : Nat) (x : Port) : (s.setPort p x).cu j = s.cu j := rfl
@[simp] theorem State.he_setPort (p j : Nat) (x : Port) : (s.setPort p x).he j = s.he j := rfl
@[simp] theorem State.reg_setPort (p j : Nat) (x : Port) : (s.setPort p x).reg j = s.reg j := rfl

@[simp] theorem State.setPort_setPort (p : Nat) (a b : Port) : (s.setPort p a).setPort p b = s.setPort p b := by
  simp [State.setPort, Tab.set_set]

@[simp] theorem State.port_setPort_same (p : Nat) (x : Port) : (s.setPort p x).port p = x := Tab.get_set_same _ _ _ _

theorem State.port_setPort_ne (p j : Nat) (x : Port) (h : j ≠ p) : (s.setPort p x).port j = s.port j :=
  Tab.get_set_ne _ _ _ _ _ h

/-! ## setFr -/

@[simp] theorem State.setFr_pending (f : Nat) (r : Router) : (s.setFr f r).pending = s.pending := rfl
@[simp] theorem State.setFr_part (f : Nat) (r : Router) : (s.setFr f r).part = s.part := rfl
@[simp] theorem State.setFr_mem (f : Nat) (r : Router) : (s.setFr f r).mem = s.mem := rfl
@[simp] theorem State.setFr_regs (f : Nat) (r : Router) : (s.setFr f r).regs = s.regs := rfl
@[simp] theorem State.setFr_clusters (f : Nat) (r : Router) : (s.setFr f r).clusters = s.clusters := rfl
@[simp] theorem State.setFr_cores (f : Nat) (r : Router) : (s.setFr f r).cores = s.cores := rfl
@[simp] theorem State.setFr_disps (f : Nat) (r : Router) : (s.setFr f r).disps = s.disps := rfl
@[simp] theorem State.setFr_lamps (f : Nat) (r : Router) : (s.setFr f r).lamps = s.lamps := rfl
@[simp] theorem State.setFr_lses (f : Nat) (r : Router) : (s.setFr f r).lses = s.lses := rfl
@[simp] theorem State.setFr_upds (f : Nat) (r : Router) : (s.setFr f r).upds = s.upds := rfl
@[simp] theorem State.setFr_mcs (f : Nat) (r : Router) : (s.setFr f r).mcs = s.mcs := rfl
@[simp] theorem State.setFr_tags (f : Nat) (r : Router) : (s.setFr f r).tags = s.tags := rfl
@[simp] theorem State.setFr_retags (f : Nat) (r : Router) : (s.setFr f r).retags = s.retags := rfl
@[simp] theorem State.setFr_cryptP (f : Nat) (r : Router) : (s.setFr f r).cryptP = s.cryptP := rfl
@[simp] theorem State.setFr_cryptU (f : Nat) (r : Router) : (s.setFr f r).cryptU = s.cryptU := rfl
@[simp] theorem State.setFr_poison (f : Nat) (r : Router) : (s.setFr f r).poison = s.poison := rfl
@[simp] theorem State.setFr_flips (f : Nat) (r : Router) : (s.setFr f r).flips = s.flips := rfl
@[simp] theorem State.setFr_answer (f : Nat) (r : Router) : (s.setFr f r).answer = s.answer := rfl
@[simp] theorem State.setFr_ports (f : Nat) (r : Router) : (s.setFr f r).ports = s.ports := rfl
@[simp] theorem State.setFr_wire (f : Nat) (r : Router) : (s.setFr f r).wire = s.wire := rfl
@[simp] theorem State.setFr_seqCtr (f : Nat) (r : Router) : (s.setFr f r).seqCtr = s.seqCtr := rfl
@[simp] theorem State.setFr_reqs (f : Nat) (r : Router) : (s.setFr f r).reqs = s.reqs := rfl
@[simp] theorem State.setFr_tracked (f : Nat) (r : Router) : (s.setFr f r).tracked = s.tracked := rfl
@[simp] theorem State.setFr_homeKeys (f : Nat) (r : Router) : (s.setFr f r).homeKeys = s.homeKeys := rfl
@[simp] theorem State.setFr_fontKeys (f : Nat) (r : Router) : (s.setFr f r).fontKeys = s.fontKeys := rfl
@[simp] theorem State.setFr_outKeys (f : Nat) (r : Router) : (s.setFr f r).outKeys = s.outKeys := rfl
@[simp] theorem State.setFr_dir (f : Nat) (r : Router) : (s.setFr f r).dir = s.dir := rfl
@[simp] theorem State.setFr_lines (f : Nat) (r : Router) : (s.setFr f r).lines = s.lines := rfl
@[simp] theorem State.setFr_recalls (f : Nat) (r : Router) : (s.setFr f r).recalls = s.recalls := rfl
@[simp] theorem State.setFr_done (f : Nat) (r : Router) : (s.setFr f r).done = s.done := rfl
@[simp] theorem State.setFr_valleyLost (f : Nat) (r : Router) : (s.setFr f r).valleyLost = s.valleyLost := rfl
@[simp] theorem State.setFr_valleyOwn (f : Nat) (r : Router) : (s.setFr f r).valleyOwn = s.valleyOwn := rfl
@[simp] theorem State.setFr_cus (f : Nat) (r : Router) : (s.setFr f r).cus = s.cus := rfl
@[simp] theorem State.setFr_time (f : Nat) (r : Router) : (s.setFr f r).time = s.time := rfl
@[simp] theorem State.setFr_tm (f : Nat) (r : Router) : (s.setFr f r).tm = s.tm := rfl
@[simp] theorem State.setFr_job (f : Nat) (r : Router) : (s.setFr f r).job = s.job := rfl
@[simp] theorem State.setFr_sec (f : Nat) (r : Router) : (s.setFr f r).sec = s.sec := rfl
@[simp] theorem State.setFr_hosts (f : Nat) (r : Router) : (s.setFr f r).hosts = s.hosts := rfl
@[simp] theorem State.setFr_err (f : Nat) (r : Router) : (s.setFr f r).err = s.err := rfl
@[simp] theorem State.setFr_power (f : Nat) (r : Router) : (s.setFr f r).power = s.power := rfl
@[simp] theorem State.setFr_jtag (f : Nat) (r : Router) : (s.setFr f r).jtag = s.jtag := rfl
@[simp] theorem State.setFr_free (f : Nat) (r : Router) : (s.setFr f r).free = s.free := rfl
@[simp] theorem State.cl_setFr (f j : Nat) (r : Router) : (s.setFr f r).cl j = s.cl j := rfl
@[simp] theorem State.sc_setFr (f j : Nat) (r : Router) : (s.setFr f r).sc j = s.sc j := rfl
@[simp] theorem State.dsp_setFr (f j : Nat) (r : Router) : (s.setFr f r).dsp j = s.dsp j := rfl
@[simp] theorem State.lamp_setFr (f j : Nat) (r : Router) : (s.setFr f r).lamp j = s.lamp j := rfl
@[simp] theorem State.lse_setFr (f j : Nat) (r : Router) : (s.setFr f r).lse j = s.lse j := rfl
@[simp] theorem State.uu_setFr (f j : Nat) (r : Router) : (s.setFr f r).uu j = s.uu j := rfl
@[simp] theorem State.mc_setFr (f j : Nat) (r : Router) : (s.setFr f r).mc j = s.mc j := rfl
@[simp] theorem State.port_setFr (f j : Nat) (r : Router) : (s.setFr f r).port j = s.port j := rfl
@[simp] theorem State.cu_setFr (f j : Nat) (r : Router) : (s.setFr f r).cu j = s.cu j := rfl
@[simp] theorem State.he_setFr (f j : Nat) (r : Router) : (s.setFr f r).he j = s.he j := rfl
@[simp] theorem State.reg_setFr (f j : Nat) (r : Router) : (s.setFr f r).reg j = s.reg j := rfl

@[simp] theorem State.setFr_setFr (f : Nat) (a b : Router) : (s.setFr f a).setFr f b = s.setFr f b := by
  simp [State.setFr, Tab.set_set]

@[simp] theorem State.fr_setFr_same (f : Nat) (r : Router) : (s.setFr f r).fr f = r := Tab.get_set_same _ _ _ _

theorem State.fr_setFr_ne (f j : Nat) (r : Router) (h : j ≠ f) : (s.setFr f r).fr j = s.fr j :=
  Tab.get_set_ne _ _ _ _ _ h

/-! ## setCu -/

@[simp] theorem State.setCu_pending (f : Nat) (c : Cu) : (s.setCu f c).pending = s.pending := rfl
@[simp] theorem State.setCu_part (f : Nat) (c : Cu) : (s.setCu f c).part = s.part := rfl
@[simp] theorem State.setCu_mem (f : Nat) (c : Cu) : (s.setCu f c).mem = s.mem := rfl
@[simp] theorem State.setCu_regs (f : Nat) (c : Cu) : (s.setCu f c).regs = s.regs := rfl
@[simp] theorem State.setCu_clusters (f : Nat) (c : Cu) : (s.setCu f c).clusters = s.clusters := rfl
@[simp] theorem State.setCu_cores (f : Nat) (c : Cu) : (s.setCu f c).cores = s.cores := rfl
@[simp] theorem State.setCu_disps (f : Nat) (c : Cu) : (s.setCu f c).disps = s.disps := rfl
@[simp] theorem State.setCu_lamps (f : Nat) (c : Cu) : (s.setCu f c).lamps = s.lamps := rfl
@[simp] theorem State.setCu_lses (f : Nat) (c : Cu) : (s.setCu f c).lses = s.lses := rfl
@[simp] theorem State.setCu_upds (f : Nat) (c : Cu) : (s.setCu f c).upds = s.upds := rfl
@[simp] theorem State.setCu_mcs (f : Nat) (c : Cu) : (s.setCu f c).mcs = s.mcs := rfl
@[simp] theorem State.setCu_tags (f : Nat) (c : Cu) : (s.setCu f c).tags = s.tags := rfl
@[simp] theorem State.setCu_retags (f : Nat) (c : Cu) : (s.setCu f c).retags = s.retags := rfl
@[simp] theorem State.setCu_cryptP (f : Nat) (c : Cu) : (s.setCu f c).cryptP = s.cryptP := rfl
@[simp] theorem State.setCu_cryptU (f : Nat) (c : Cu) : (s.setCu f c).cryptU = s.cryptU := rfl
@[simp] theorem State.setCu_poison (f : Nat) (c : Cu) : (s.setCu f c).poison = s.poison := rfl
@[simp] theorem State.setCu_flips (f : Nat) (c : Cu) : (s.setCu f c).flips = s.flips := rfl
@[simp] theorem State.setCu_answer (f : Nat) (c : Cu) : (s.setCu f c).answer = s.answer := rfl
@[simp] theorem State.setCu_ports (f : Nat) (c : Cu) : (s.setCu f c).ports = s.ports := rfl
@[simp] theorem State.setCu_routers (f : Nat) (c : Cu) : (s.setCu f c).routers = s.routers := rfl
@[simp] theorem State.setCu_wire (f : Nat) (c : Cu) : (s.setCu f c).wire = s.wire := rfl
@[simp] theorem State.setCu_seqCtr (f : Nat) (c : Cu) : (s.setCu f c).seqCtr = s.seqCtr := rfl
@[simp] theorem State.setCu_reqs (f : Nat) (c : Cu) : (s.setCu f c).reqs = s.reqs := rfl
@[simp] theorem State.setCu_tracked (f : Nat) (c : Cu) : (s.setCu f c).tracked = s.tracked := rfl
@[simp] theorem State.setCu_homeKeys (f : Nat) (c : Cu) : (s.setCu f c).homeKeys = s.homeKeys := rfl
@[simp] theorem State.setCu_fontKeys (f : Nat) (c : Cu) : (s.setCu f c).fontKeys = s.fontKeys := rfl
@[simp] theorem State.setCu_outKeys (f : Nat) (c : Cu) : (s.setCu f c).outKeys = s.outKeys := rfl
@[simp] theorem State.setCu_dir (f : Nat) (c : Cu) : (s.setCu f c).dir = s.dir := rfl
@[simp] theorem State.setCu_lines (f : Nat) (c : Cu) : (s.setCu f c).lines = s.lines := rfl
@[simp] theorem State.setCu_recalls (f : Nat) (c : Cu) : (s.setCu f c).recalls = s.recalls := rfl
@[simp] theorem State.setCu_done (f : Nat) (c : Cu) : (s.setCu f c).done = s.done := rfl
@[simp] theorem State.setCu_valleyLost (f : Nat) (c : Cu) : (s.setCu f c).valleyLost = s.valleyLost := rfl
@[simp] theorem State.setCu_valleyOwn (f : Nat) (c : Cu) : (s.setCu f c).valleyOwn = s.valleyOwn := rfl
@[simp] theorem State.setCu_time (f : Nat) (c : Cu) : (s.setCu f c).time = s.time := rfl
@[simp] theorem State.setCu_tm (f : Nat) (c : Cu) : (s.setCu f c).tm = s.tm := rfl
@[simp] theorem State.setCu_job (f : Nat) (c : Cu) : (s.setCu f c).job = s.job := rfl
@[simp] theorem State.setCu_sec (f : Nat) (c : Cu) : (s.setCu f c).sec = s.sec := rfl
@[simp] theorem State.setCu_hosts (f : Nat) (c : Cu) : (s.setCu f c).hosts = s.hosts := rfl
@[simp] theorem State.setCu_err (f : Nat) (c : Cu) : (s.setCu f c).err = s.err := rfl
@[simp] theorem State.setCu_power (f : Nat) (c : Cu) : (s.setCu f c).power = s.power := rfl
@[simp] theorem State.setCu_jtag (f : Nat) (c : Cu) : (s.setCu f c).jtag = s.jtag := rfl
@[simp] theorem State.setCu_free (f : Nat) (c : Cu) : (s.setCu f c).free = s.free := rfl
@[simp] theorem State.cl_setCu (f j : Nat) (c : Cu) : (s.setCu f c).cl j = s.cl j := rfl
@[simp] theorem State.sc_setCu (f j : Nat) (c : Cu) : (s.setCu f c).sc j = s.sc j := rfl
@[simp] theorem State.dsp_setCu (f j : Nat) (c : Cu) : (s.setCu f c).dsp j = s.dsp j := rfl
@[simp] theorem State.lamp_setCu (f j : Nat) (c : Cu) : (s.setCu f c).lamp j = s.lamp j := rfl
@[simp] theorem State.lse_setCu (f j : Nat) (c : Cu) : (s.setCu f c).lse j = s.lse j := rfl
@[simp] theorem State.uu_setCu (f j : Nat) (c : Cu) : (s.setCu f c).uu j = s.uu j := rfl
@[simp] theorem State.mc_setCu (f j : Nat) (c : Cu) : (s.setCu f c).mc j = s.mc j := rfl
@[simp] theorem State.port_setCu (f j : Nat) (c : Cu) : (s.setCu f c).port j = s.port j := rfl
@[simp] theorem State.fr_setCu (f j : Nat) (c : Cu) : (s.setCu f c).fr j = s.fr j := rfl
@[simp] theorem State.he_setCu (f j : Nat) (c : Cu) : (s.setCu f c).he j = s.he j := rfl
@[simp] theorem State.reg_setCu (f j : Nat) (c : Cu) : (s.setCu f c).reg j = s.reg j := rfl

@[simp] theorem State.setCu_setCu (f : Nat) (a b : Cu) : (s.setCu f a).setCu f b = s.setCu f b := by
  simp [State.setCu, Tab.set_set]

@[simp] theorem State.cu_setCu_same (f : Nat) (c : Cu) : (s.setCu f c).cu f = c := Tab.get_set_same _ _ _ _

theorem State.cu_setCu_ne (f j : Nat) (c : Cu) (h : j ≠ f) : (s.setCu f c).cu j = s.cu j :=
  Tab.get_set_ne _ _ _ _ _ h

/-! ## setHe -/

@[simp] theorem State.setHe_pending (f : Nat) (h : HostPort) : (s.setHe f h).pending = s.pending := rfl
@[simp] theorem State.setHe_part (f : Nat) (h : HostPort) : (s.setHe f h).part = s.part := rfl
@[simp] theorem State.setHe_mem (f : Nat) (h : HostPort) : (s.setHe f h).mem = s.mem := rfl
@[simp] theorem State.setHe_regs (f : Nat) (h : HostPort) : (s.setHe f h).regs = s.regs := rfl
@[simp] theorem State.setHe_clusters (f : Nat) (h : HostPort) : (s.setHe f h).clusters = s.clusters := rfl
@[simp] theorem State.setHe_cores (f : Nat) (h : HostPort) : (s.setHe f h).cores = s.cores := rfl
@[simp] theorem State.setHe_disps (f : Nat) (h : HostPort) : (s.setHe f h).disps = s.disps := rfl
@[simp] theorem State.setHe_lamps (f : Nat) (h : HostPort) : (s.setHe f h).lamps = s.lamps := rfl
@[simp] theorem State.setHe_lses (f : Nat) (h : HostPort) : (s.setHe f h).lses = s.lses := rfl
@[simp] theorem State.setHe_upds (f : Nat) (h : HostPort) : (s.setHe f h).upds = s.upds := rfl
@[simp] theorem State.setHe_mcs (f : Nat) (h : HostPort) : (s.setHe f h).mcs = s.mcs := rfl
@[simp] theorem State.setHe_tags (f : Nat) (h : HostPort) : (s.setHe f h).tags = s.tags := rfl
@[simp] theorem State.setHe_retags (f : Nat) (h : HostPort) : (s.setHe f h).retags = s.retags := rfl
@[simp] theorem State.setHe_cryptP (f : Nat) (h : HostPort) : (s.setHe f h).cryptP = s.cryptP := rfl
@[simp] theorem State.setHe_cryptU (f : Nat) (h : HostPort) : (s.setHe f h).cryptU = s.cryptU := rfl
@[simp] theorem State.setHe_poison (f : Nat) (h : HostPort) : (s.setHe f h).poison = s.poison := rfl
@[simp] theorem State.setHe_flips (f : Nat) (h : HostPort) : (s.setHe f h).flips = s.flips := rfl
@[simp] theorem State.setHe_answer (f : Nat) (h : HostPort) : (s.setHe f h).answer = s.answer := rfl
@[simp] theorem State.setHe_ports (f : Nat) (h : HostPort) : (s.setHe f h).ports = s.ports := rfl
@[simp] theorem State.setHe_routers (f : Nat) (h : HostPort) : (s.setHe f h).routers = s.routers := rfl
@[simp] theorem State.setHe_wire (f : Nat) (h : HostPort) : (s.setHe f h).wire = s.wire := rfl
@[simp] theorem State.setHe_seqCtr (f : Nat) (h : HostPort) : (s.setHe f h).seqCtr = s.seqCtr := rfl
@[simp] theorem State.setHe_reqs (f : Nat) (h : HostPort) : (s.setHe f h).reqs = s.reqs := rfl
@[simp] theorem State.setHe_tracked (f : Nat) (h : HostPort) : (s.setHe f h).tracked = s.tracked := rfl
@[simp] theorem State.setHe_homeKeys (f : Nat) (h : HostPort) : (s.setHe f h).homeKeys = s.homeKeys := rfl
@[simp] theorem State.setHe_fontKeys (f : Nat) (h : HostPort) : (s.setHe f h).fontKeys = s.fontKeys := rfl
@[simp] theorem State.setHe_outKeys (f : Nat) (h : HostPort) : (s.setHe f h).outKeys = s.outKeys := rfl
@[simp] theorem State.setHe_dir (f : Nat) (h : HostPort) : (s.setHe f h).dir = s.dir := rfl
@[simp] theorem State.setHe_lines (f : Nat) (h : HostPort) : (s.setHe f h).lines = s.lines := rfl
@[simp] theorem State.setHe_recalls (f : Nat) (h : HostPort) : (s.setHe f h).recalls = s.recalls := rfl
@[simp] theorem State.setHe_done (f : Nat) (h : HostPort) : (s.setHe f h).done = s.done := rfl
@[simp] theorem State.setHe_valleyLost (f : Nat) (h : HostPort) : (s.setHe f h).valleyLost = s.valleyLost := rfl
@[simp] theorem State.setHe_valleyOwn (f : Nat) (h : HostPort) : (s.setHe f h).valleyOwn = s.valleyOwn := rfl
@[simp] theorem State.setHe_cus (f : Nat) (h : HostPort) : (s.setHe f h).cus = s.cus := rfl
@[simp] theorem State.setHe_time (f : Nat) (h : HostPort) : (s.setHe f h).time = s.time := rfl
@[simp] theorem State.setHe_tm (f : Nat) (h : HostPort) : (s.setHe f h).tm = s.tm := rfl
@[simp] theorem State.setHe_job (f : Nat) (h : HostPort) : (s.setHe f h).job = s.job := rfl
@[simp] theorem State.setHe_sec (f : Nat) (h : HostPort) : (s.setHe f h).sec = s.sec := rfl
@[simp] theorem State.setHe_err (f : Nat) (h : HostPort) : (s.setHe f h).err = s.err := rfl
@[simp] theorem State.setHe_power (f : Nat) (h : HostPort) : (s.setHe f h).power = s.power := rfl
@[simp] theorem State.setHe_jtag (f : Nat) (h : HostPort) : (s.setHe f h).jtag = s.jtag := rfl
@[simp] theorem State.setHe_free (f : Nat) (h : HostPort) : (s.setHe f h).free = s.free := rfl
@[simp] theorem State.cl_setHe (f j : Nat) (h : HostPort) : (s.setHe f h).cl j = s.cl j := rfl
@[simp] theorem State.sc_setHe (f j : Nat) (h : HostPort) : (s.setHe f h).sc j = s.sc j := rfl
@[simp] theorem State.dsp_setHe (f j : Nat) (h : HostPort) : (s.setHe f h).dsp j = s.dsp j := rfl
@[simp] theorem State.lamp_setHe (f j : Nat) (h : HostPort) : (s.setHe f h).lamp j = s.lamp j := rfl
@[simp] theorem State.lse_setHe (f j : Nat) (h : HostPort) : (s.setHe f h).lse j = s.lse j := rfl
@[simp] theorem State.uu_setHe (f j : Nat) (h : HostPort) : (s.setHe f h).uu j = s.uu j := rfl
@[simp] theorem State.mc_setHe (f j : Nat) (h : HostPort) : (s.setHe f h).mc j = s.mc j := rfl
@[simp] theorem State.port_setHe (f j : Nat) (h : HostPort) : (s.setHe f h).port j = s.port j := rfl
@[simp] theorem State.fr_setHe (f j : Nat) (h : HostPort) : (s.setHe f h).fr j = s.fr j := rfl
@[simp] theorem State.cu_setHe (f j : Nat) (h : HostPort) : (s.setHe f h).cu j = s.cu j := rfl
@[simp] theorem State.reg_setHe (f j : Nat) (h : HostPort) : (s.setHe f h).reg j = s.reg j := rfl

@[simp] theorem State.setHe_setHe (f : Nat) (a b : HostPort) : (s.setHe f a).setHe f b = s.setHe f b := by
  simp [State.setHe, Tab.set_set]

@[simp] theorem State.he_setHe_same (f : Nat) (h : HostPort) : (s.setHe f h).he f = h := Tab.get_set_same _ _ _ _

theorem State.he_setHe_ne (f j : Nat) (h : HostPort) (e : j ≠ f) : (s.setHe f h).he j = s.he j :=
  Tab.get_set_ne _ _ _ _ _ e

/-! ## setReg -/

@[simp] theorem State.setReg_pending (o : Nat) (w : Word) : (s.setReg o w).pending = s.pending := rfl
@[simp] theorem State.setReg_part (o : Nat) (w : Word) : (s.setReg o w).part = s.part := rfl
@[simp] theorem State.setReg_mem (o : Nat) (w : Word) : (s.setReg o w).mem = s.mem := rfl
@[simp] theorem State.setReg_clusters (o : Nat) (w : Word) : (s.setReg o w).clusters = s.clusters := rfl
@[simp] theorem State.setReg_cores (o : Nat) (w : Word) : (s.setReg o w).cores = s.cores := rfl
@[simp] theorem State.setReg_disps (o : Nat) (w : Word) : (s.setReg o w).disps = s.disps := rfl
@[simp] theorem State.setReg_lamps (o : Nat) (w : Word) : (s.setReg o w).lamps = s.lamps := rfl
@[simp] theorem State.setReg_lses (o : Nat) (w : Word) : (s.setReg o w).lses = s.lses := rfl
@[simp] theorem State.setReg_upds (o : Nat) (w : Word) : (s.setReg o w).upds = s.upds := rfl
@[simp] theorem State.setReg_mcs (o : Nat) (w : Word) : (s.setReg o w).mcs = s.mcs := rfl
@[simp] theorem State.setReg_tags (o : Nat) (w : Word) : (s.setReg o w).tags = s.tags := rfl
@[simp] theorem State.setReg_retags (o : Nat) (w : Word) : (s.setReg o w).retags = s.retags := rfl
@[simp] theorem State.setReg_cryptP (o : Nat) (w : Word) : (s.setReg o w).cryptP = s.cryptP := rfl
@[simp] theorem State.setReg_cryptU (o : Nat) (w : Word) : (s.setReg o w).cryptU = s.cryptU := rfl
@[simp] theorem State.setReg_poison (o : Nat) (w : Word) : (s.setReg o w).poison = s.poison := rfl
@[simp] theorem State.setReg_flips (o : Nat) (w : Word) : (s.setReg o w).flips = s.flips := rfl
@[simp] theorem State.setReg_answer (o : Nat) (w : Word) : (s.setReg o w).answer = s.answer := rfl
@[simp] theorem State.setReg_ports (o : Nat) (w : Word) : (s.setReg o w).ports = s.ports := rfl
@[simp] theorem State.setReg_routers (o : Nat) (w : Word) : (s.setReg o w).routers = s.routers := rfl
@[simp] theorem State.setReg_wire (o : Nat) (w : Word) : (s.setReg o w).wire = s.wire := rfl
@[simp] theorem State.setReg_seqCtr (o : Nat) (w : Word) : (s.setReg o w).seqCtr = s.seqCtr := rfl
@[simp] theorem State.setReg_reqs (o : Nat) (w : Word) : (s.setReg o w).reqs = s.reqs := rfl
@[simp] theorem State.setReg_tracked (o : Nat) (w : Word) : (s.setReg o w).tracked = s.tracked := rfl
@[simp] theorem State.setReg_homeKeys (o : Nat) (w : Word) : (s.setReg o w).homeKeys = s.homeKeys := rfl
@[simp] theorem State.setReg_fontKeys (o : Nat) (w : Word) : (s.setReg o w).fontKeys = s.fontKeys := rfl
@[simp] theorem State.setReg_outKeys (o : Nat) (w : Word) : (s.setReg o w).outKeys = s.outKeys := rfl
@[simp] theorem State.setReg_dir (o : Nat) (w : Word) : (s.setReg o w).dir = s.dir := rfl
@[simp] theorem State.setReg_lines (o : Nat) (w : Word) : (s.setReg o w).lines = s.lines := rfl
@[simp] theorem State.setReg_recalls (o : Nat) (w : Word) : (s.setReg o w).recalls = s.recalls := rfl
@[simp] theorem State.setReg_done (o : Nat) (w : Word) : (s.setReg o w).done = s.done := rfl
@[simp] theorem State.setReg_valleyLost (o : Nat) (w : Word) : (s.setReg o w).valleyLost = s.valleyLost := rfl
@[simp] theorem State.setReg_valleyOwn (o : Nat) (w : Word) : (s.setReg o w).valleyOwn = s.valleyOwn := rfl
@[simp] theorem State.setReg_cus (o : Nat) (w : Word) : (s.setReg o w).cus = s.cus := rfl
@[simp] theorem State.setReg_time (o : Nat) (w : Word) : (s.setReg o w).time = s.time := rfl
@[simp] theorem State.setReg_tm (o : Nat) (w : Word) : (s.setReg o w).tm = s.tm := rfl
@[simp] theorem State.setReg_job (o : Nat) (w : Word) : (s.setReg o w).job = s.job := rfl
@[simp] theorem State.setReg_sec (o : Nat) (w : Word) : (s.setReg o w).sec = s.sec := rfl
@[simp] theorem State.setReg_hosts (o : Nat) (w : Word) : (s.setReg o w).hosts = s.hosts := rfl
@[simp] theorem State.setReg_err (o : Nat) (w : Word) : (s.setReg o w).err = s.err := rfl
@[simp] theorem State.setReg_power (o : Nat) (w : Word) : (s.setReg o w).power = s.power := rfl
@[simp] theorem State.setReg_jtag (o : Nat) (w : Word) : (s.setReg o w).jtag = s.jtag := rfl
@[simp] theorem State.setReg_free (o : Nat) (w : Word) : (s.setReg o w).free = s.free := rfl
@[simp] theorem State.cl_setReg (o j : Nat) (w : Word) : (s.setReg o w).cl j = s.cl j := rfl
@[simp] theorem State.sc_setReg (o j : Nat) (w : Word) : (s.setReg o w).sc j = s.sc j := rfl
@[simp] theorem State.dsp_setReg (o j : Nat) (w : Word) : (s.setReg o w).dsp j = s.dsp j := rfl
@[simp] theorem State.lamp_setReg (o j : Nat) (w : Word) : (s.setReg o w).lamp j = s.lamp j := rfl
@[simp] theorem State.lse_setReg (o j : Nat) (w : Word) : (s.setReg o w).lse j = s.lse j := rfl
@[simp] theorem State.uu_setReg (o j : Nat) (w : Word) : (s.setReg o w).uu j = s.uu j := rfl
@[simp] theorem State.mc_setReg (o j : Nat) (w : Word) : (s.setReg o w).mc j = s.mc j := rfl
@[simp] theorem State.port_setReg (o j : Nat) (w : Word) : (s.setReg o w).port j = s.port j := rfl
@[simp] theorem State.fr_setReg (o j : Nat) (w : Word) : (s.setReg o w).fr j = s.fr j := rfl
@[simp] theorem State.cu_setReg (o j : Nat) (w : Word) : (s.setReg o w).cu j = s.cu j := rfl
@[simp] theorem State.he_setReg (o j : Nat) (w : Word) : (s.setReg o w).he j = s.he j := rfl

@[simp] theorem State.setReg_setReg (o : Nat) (a b : Word) : (s.setReg o a).setReg o b = s.setReg o b := by
  simp [State.setReg, Tab.set_set]

@[simp] theorem State.reg_setReg_same (o : Nat) (w : Word) : (s.setReg o w).reg o = w := Tab.get_set_same _ _ _ _

theorem State.reg_setReg_ne (o j : Nat) (w : Word) (h : j ≠ o) : (s.setReg o w).reg j = s.reg j :=
  Tab.get_set_ne _ _ _ _ _ h

/-! ## setRing -/

@[simp] theorem State.setRing_pending (d : Nat) (x : Ring) : (s.setRing d x).pending = s.pending := rfl
@[simp] theorem State.setRing_part (d : Nat) (x : Ring) : (s.setRing d x).part = s.part := rfl
@[simp] theorem State.setRing_mem (d : Nat) (x : Ring) : (s.setRing d x).mem = s.mem := rfl
@[simp] theorem State.setRing_regs (d : Nat) (x : Ring) : (s.setRing d x).regs = s.regs := rfl
@[simp] theorem State.setRing_clusters (d : Nat) (x : Ring) : (s.setRing d x).clusters = s.clusters := rfl
@[simp] theorem State.setRing_cores (d : Nat) (x : Ring) : (s.setRing d x).cores = s.cores := rfl
@[simp] theorem State.setRing_disps (d : Nat) (x : Ring) : (s.setRing d x).disps = s.disps := rfl
@[simp] theorem State.setRing_lamps (d : Nat) (x : Ring) : (s.setRing d x).lamps = s.lamps := rfl
@[simp] theorem State.setRing_lses (d : Nat) (x : Ring) : (s.setRing d x).lses = s.lses := rfl
@[simp] theorem State.setRing_upds (d : Nat) (x : Ring) : (s.setRing d x).upds = s.upds := rfl
@[simp] theorem State.setRing_mcs (d : Nat) (x : Ring) : (s.setRing d x).mcs = s.mcs := rfl
@[simp] theorem State.setRing_tags (d : Nat) (x : Ring) : (s.setRing d x).tags = s.tags := rfl
@[simp] theorem State.setRing_retags (d : Nat) (x : Ring) : (s.setRing d x).retags = s.retags := rfl
@[simp] theorem State.setRing_cryptP (d : Nat) (x : Ring) : (s.setRing d x).cryptP = s.cryptP := rfl
@[simp] theorem State.setRing_cryptU (d : Nat) (x : Ring) : (s.setRing d x).cryptU = s.cryptU := rfl
@[simp] theorem State.setRing_poison (d : Nat) (x : Ring) : (s.setRing d x).poison = s.poison := rfl
@[simp] theorem State.setRing_flips (d : Nat) (x : Ring) : (s.setRing d x).flips = s.flips := rfl
@[simp] theorem State.setRing_answer (d : Nat) (x : Ring) : (s.setRing d x).answer = s.answer := rfl
@[simp] theorem State.setRing_ports (d : Nat) (x : Ring) : (s.setRing d x).ports = s.ports := rfl
@[simp] theorem State.setRing_routers (d : Nat) (x : Ring) : (s.setRing d x).routers = s.routers := rfl
@[simp] theorem State.setRing_wire (d : Nat) (x : Ring) : (s.setRing d x).wire = s.wire := rfl
@[simp] theorem State.setRing_seqCtr (d : Nat) (x : Ring) : (s.setRing d x).seqCtr = s.seqCtr := rfl
@[simp] theorem State.setRing_reqs (d : Nat) (x : Ring) : (s.setRing d x).reqs = s.reqs := rfl
@[simp] theorem State.setRing_tracked (d : Nat) (x : Ring) : (s.setRing d x).tracked = s.tracked := rfl
@[simp] theorem State.setRing_homeKeys (d : Nat) (x : Ring) : (s.setRing d x).homeKeys = s.homeKeys := rfl
@[simp] theorem State.setRing_fontKeys (d : Nat) (x : Ring) : (s.setRing d x).fontKeys = s.fontKeys := rfl
@[simp] theorem State.setRing_outKeys (d : Nat) (x : Ring) : (s.setRing d x).outKeys = s.outKeys := rfl
@[simp] theorem State.setRing_dir (d : Nat) (x : Ring) : (s.setRing d x).dir = s.dir := rfl
@[simp] theorem State.setRing_lines (d : Nat) (x : Ring) : (s.setRing d x).lines = s.lines := rfl
@[simp] theorem State.setRing_recalls (d : Nat) (x : Ring) : (s.setRing d x).recalls = s.recalls := rfl
@[simp] theorem State.setRing_done (d : Nat) (x : Ring) : (s.setRing d x).done = s.done := rfl
@[simp] theorem State.setRing_valleyLost (d : Nat) (x : Ring) : (s.setRing d x).valleyLost = s.valleyLost := rfl
@[simp] theorem State.setRing_valleyOwn (d : Nat) (x : Ring) : (s.setRing d x).valleyOwn = s.valleyOwn := rfl
@[simp] theorem State.setRing_cus (d : Nat) (x : Ring) : (s.setRing d x).cus = s.cus := rfl
@[simp] theorem State.setRing_time (d : Nat) (x : Ring) : (s.setRing d x).time = s.time := rfl
@[simp] theorem State.setRing_tm (d : Nat) (x : Ring) : (s.setRing d x).tm = s.tm := rfl
@[simp] theorem State.setRing_job (d : Nat) (x : Ring) : (s.setRing d x).job = s.job := rfl
@[simp] theorem State.setRing_sec (d : Nat) (x : Ring) : (s.setRing d x).sec = s.sec := rfl
@[simp] theorem State.setRing_hosts (d : Nat) (x : Ring) : (s.setRing d x).hosts = s.hosts := rfl
@[simp] theorem State.setRing_power (d : Nat) (x : Ring) : (s.setRing d x).power = s.power := rfl
@[simp] theorem State.setRing_jtag (d : Nat) (x : Ring) : (s.setRing d x).jtag = s.jtag := rfl
@[simp] theorem State.setRing_free (d : Nat) (x : Ring) : (s.setRing d x).free = s.free := rfl
@[simp] theorem State.setRing_err_fresh (d : Nat) (x : Ring) : (s.setRing d x).err.fresh = s.err.fresh := rfl
@[simp] theorem State.setRing_err_held (d : Nat) (x : Ring) : (s.setRing d x).err.held = s.err.held := rfl
@[simp] theorem State.setRing_err_counts (d : Nat) (x : Ring) : (s.setRing d x).err.counts = s.err.counts := rfl
@[simp] theorem State.setRing_err_warns (d : Nat) (x : Ring) : (s.setRing d x).err.warns = s.err.warns := rfl
@[simp] theorem State.setRing_err_tests (d : Nat) (x : Ring) : (s.setRing d x).err.tests = s.err.tests := rfl
@[simp] theorem State.setRing_err_hits (d : Nat) (x : Ring) : (s.setRing d x).err.hits = s.err.hits := rfl
@[simp] theorem State.setRing_err_retired (d : Nat) (x : Ring) : (s.setRing d x).err.retired = s.err.retired := rfl
@[simp] theorem State.setRing_err_rows (d : Nat) (x : Ring) : (s.setRing d x).err.rows = s.err.rows := rfl
@[simp] theorem State.setRing_err_usedRows (d : Nat) (x : Ring) : (s.setRing d x).err.usedRows = s.err.usedRows := rfl
@[simp] theorem State.reg_setRing (d o : Nat) (x : Ring) : (s.setRing d x).reg o = s.reg o := rfl

@[simp] theorem State.setRing_setRing (d : Nat) (a b : Ring) : (s.setRing d a).setRing d b = s.setRing d b := by
  simp [State.setRing, Tab.set_set]

@[simp] theorem State.ring_setRing_same (d : Nat) (x : Ring) : (s.setRing d x).ring d = x := Tab.get_set_same _ _ _ _

theorem State.ring_setRing_ne (d j : Nat) (x : Ring) (h : j ≠ d) : (s.setRing d x).ring j = s.ring j :=
  Tab.get_set_ne _ _ _ _ _ h

/-! ## Time and settling -/

@[simp] theorem State.settled_setSc (c : Nat) (x : Core) : (s.setSc c x).settled = s.settled := rfl
@[simp] theorem State.settled_setCl (n : Nat) (c : Cluster) : (s.setCl n c).settled = s.settled := rfl
@[simp] theorem State.settled_setReg (o : Nat) (w : Word) : (s.setReg o w).settled = s.settled := rfl
@[simp] theorem State.settled_setMc (k : Nat) (m : Mc) : (s.setMc k m).settled = s.settled := rfl

/-- A settled state is left as it is. -/
theorem State.settle_eq {s : State} (h : s.settled = true) : s.settle = s := State.settle_of_settled s h

/-! ## leave -/

@[simp] theorem State.leave_pending (t : State) : (s.leave t).pending = s.pending := rfl
@[simp] theorem State.leave_mem (t : State) : (s.leave t).mem = memNorm t.mem := rfl
@[simp] theorem State.leave_part (t : State) : (s.leave t).part = t.part := rfl
@[simp] theorem State.leave_regs (t : State) : (s.leave t).regs = t.regs := rfl
@[simp] theorem State.leave_clusters (t : State) : (s.leave t).clusters = t.clusters := rfl
@[simp] theorem State.leave_cores (t : State) : (s.leave t).cores = t.cores := rfl
@[simp] theorem State.leave_disps (t : State) : (s.leave t).disps = t.disps := rfl
@[simp] theorem State.leave_lamps (t : State) : (s.leave t).lamps = t.lamps := rfl
@[simp] theorem State.leave_lses (t : State) : (s.leave t).lses = t.lses := rfl
@[simp] theorem State.leave_upds (t : State) : (s.leave t).upds = t.upds := rfl
@[simp] theorem State.leave_mcs (t : State) : (s.leave t).mcs = t.mcs := rfl
@[simp] theorem State.leave_tags (t : State) : (s.leave t).tags = t.tags := rfl
@[simp] theorem State.leave_retags (t : State) : (s.leave t).retags = t.retags := rfl
@[simp] theorem State.leave_cryptP (t : State) : (s.leave t).cryptP = t.cryptP := rfl
@[simp] theorem State.leave_cryptU (t : State) : (s.leave t).cryptU = t.cryptU := rfl
@[simp] theorem State.leave_poison (t : State) : (s.leave t).poison = t.poison := rfl
@[simp] theorem State.leave_flips (t : State) : (s.leave t).flips = t.flips := rfl
@[simp] theorem State.leave_answer (t : State) : (s.leave t).answer = t.answer := rfl
@[simp] theorem State.leave_ports (t : State) : (s.leave t).ports = t.ports := rfl
@[simp] theorem State.leave_routers (t : State) : (s.leave t).routers = t.routers := rfl
@[simp] theorem State.leave_wire (t : State) : (s.leave t).wire = t.wire := rfl
@[simp] theorem State.leave_seqCtr (t : State) : (s.leave t).seqCtr = t.seqCtr := rfl
@[simp] theorem State.leave_reqs (t : State) : (s.leave t).reqs = t.reqs := rfl
@[simp] theorem State.leave_tracked (t : State) : (s.leave t).tracked = t.tracked := rfl
@[simp] theorem State.leave_homeKeys (t : State) : (s.leave t).homeKeys = t.homeKeys := rfl
@[simp] theorem State.leave_fontKeys (t : State) : (s.leave t).fontKeys = t.fontKeys := rfl
@[simp] theorem State.leave_outKeys (t : State) : (s.leave t).outKeys = t.outKeys := rfl
@[simp] theorem State.leave_dir (t : State) : (s.leave t).dir = t.dir := rfl
@[simp] theorem State.leave_lines (t : State) : (s.leave t).lines = t.lines := rfl
@[simp] theorem State.leave_recalls (t : State) : (s.leave t).recalls = t.recalls := rfl
@[simp] theorem State.leave_done (t : State) : (s.leave t).done = t.done := rfl
@[simp] theorem State.leave_valleyLost (t : State) : (s.leave t).valleyLost = t.valleyLost := rfl
@[simp] theorem State.leave_valleyOwn (t : State) : (s.leave t).valleyOwn = t.valleyOwn := rfl
@[simp] theorem State.leave_cus (t : State) : (s.leave t).cus = t.cus := rfl
@[simp] theorem State.leave_time (t : State) : (s.leave t).time = t.time := rfl
@[simp] theorem State.leave_tm (t : State) : (s.leave t).tm = t.tm := rfl
@[simp] theorem State.leave_job (t : State) : (s.leave t).job = t.job := rfl
@[simp] theorem State.leave_sec (t : State) : (s.leave t).sec = t.sec := rfl
@[simp] theorem State.leave_hosts (t : State) : (s.leave t).hosts = t.hosts := rfl
@[simp] theorem State.leave_err (t : State) : (s.leave t).err = t.err := rfl
@[simp] theorem State.leave_power (t : State) : (s.leave t).power = t.power := rfl
@[simp] theorem State.leave_jtag (t : State) : (s.leave t).jtag = t.jtag := rfl
@[simp] theorem State.leave_free (t : State) : (s.leave t).free = t.free := rfl
@[simp] theorem State.cl_leave (t : State) (j : Nat) : (s.leave t).cl j = t.cl j := rfl
@[simp] theorem State.sc_leave (t : State) (j : Nat) : (s.leave t).sc j = t.sc j := rfl
@[simp] theorem State.dsp_leave (t : State) (j : Nat) : (s.leave t).dsp j = t.dsp j := rfl
@[simp] theorem State.lamp_leave (t : State) (j : Nat) : (s.leave t).lamp j = t.lamp j := rfl
@[simp] theorem State.lse_leave (t : State) (j : Nat) : (s.leave t).lse j = t.lse j := rfl
@[simp] theorem State.uu_leave (t : State) (j : Nat) : (s.leave t).uu j = t.uu j := rfl
@[simp] theorem State.mc_leave (t : State) (j : Nat) : (s.leave t).mc j = t.mc j := rfl
@[simp] theorem State.port_leave (t : State) (j : Nat) : (s.leave t).port j = t.port j := rfl
@[simp] theorem State.fr_leave (t : State) (j : Nat) : (s.leave t).fr j = t.fr j := rfl
@[simp] theorem State.cu_leave (t : State) (j : Nat) : (s.leave t).cu j = t.cu j := rfl
@[simp] theorem State.he_leave (t : State) (j : Nat) : (s.leave t).he j = t.he j := rfl
@[simp] theorem State.reg_leave (t : State) (j : Nat) : (s.leave t).reg j = t.reg j := rfl

/-- A canonical memory and an untouched queue are left as they are. -/
theorem State.leave_eq {s t : State} (hp : t.pending = s.pending) (hm : memWf t.mem = true) : s.leave t = t := by
  unfold State.leave
  rw [memNorm_of_memWf hm, ← hp]

/-! ## The frame of a meaning -/

/-- What a command on a unit answers. -/
theorem onUnit_cases (p : Bool) (f : State → State) :
    (p = false ∧ onUnit p s f = .next s) ∨ (p = true ∧ s.alive = false ∧ onUnit p s f = .next s) ∨
      (p = true ∧ s.alive = true ∧ onUnit p s f = .next (s.leave (f s).settle)) := by
  unfold onUnit
  cases p <;> cases s.alive <;> simp

/-- A command on a unit that is present, in a package that can act. -/
theorem onUnit_next {p : Bool} {f : State → State} (hp : p = true) (ha : s.alive = true) :
    onUnit p s f = .next (s.leave (f s).settle) := by
  simp [onUnit, hp, ha]

/-- The same where nothing is left to be done. -/
theorem onUnit_quiet {p : Bool} {f : State → State} (hp : p = true) (ha : s.alive = true) (hq : (f s).settled = true) :
    onUnit p s f = .next (s.leave (f s)) := by
  rw [onUnit_next s hp ha, State.settle_eq hq]

end Sys2Proof.Machine
end

