-- ==== Sys2Proof/Laws/Solver.lean ====
section
/-! SUPPORT. Laws of the solver cores: what a row does with a word that belongs to it, and what completes an instruction. -/

namespace Sys2Proof.Machine

/-- A row whose word stands at the PC executes it. -/
theorem State.scRow_eq {s u : State} {c row : Nat} {w : Word} {f : State → Word → State} (hc : (s.sc c).canRun = true)
    (hf : s.scFetch c = (u, .word w)) (hl : hcLegal w (s.sc c).ew32 (s.sc c).vstart = true) (hr : hcRow w = row) :
    s.scRow c row f = f u w := by
  simp [State.scRow, hc, hf, hl, hr]

/-- A core that executes is running. -/
theorem Core.run_of_canRun {x : Core} (h : x.canRun = true) : x.run = true := by
  simp [Core.canRun] at h; exact h.1.1.1.1

/-- The completion of an instruction that has made the core x. -/
theorem State.scNext_setSc (u : State) (c : Nat) (x : Core) (h : x.run = true) :
    (u.setSc c x).scNext c =
      u.setSc c ({ x with pc := x.pc + 4, retired := x.retired + 1, wait := none, fetched := none } : Core).stepped := by
  simp [State.scNext, State.scGo, State.modSc, h]

/-- The same, from a core that is left as it is. -/
theorem State.scNext_eq (u : State) (c : Nat) (h : (u.sc c).run = true) :
    u.scNext c = u.setSc c
      ({ u.sc c with pc := (u.sc c).pc + 4, retired := (u.sc c).retired + 1, wait := none, fetched := none } : Core).stepped := by
  simp [State.scNext, State.scGo, State.modSc, h]

/-- A jump of a core that has been made x, to a target that is a multiple of 4. -/
theorem State.scJump_setSc (u : State) (c : Nat) (x : Core) (target : Word) (h : target.toNat % 4 = 0) :
    (u.setSc c x).scJump c target =
      u.setSc c ({ x with pc := target, retired := x.retired + 1, wait := none, fetched := none } : Core).stepped := by
  simp [State.scJump, State.scGo, State.modSc, h]

@[simp] theorem Core.setG_run (x : Core) (i : Nat) (v : Word) : (x.setG i v).run = x.run := by unfold Core.setG; split <;> rfl
@[simp] theorem Core.setG_pc (x : Core) (i : Nat) (v : Word) : (x.setG i v).pc = x.pc := by unfold Core.setG; split <;> rfl
@[simp] theorem Core.setG_stepping (x : Core) (i : Nat) (v : Word) : (x.setG i v).stepping = x.stepping := by
  unfold Core.setG; split <;> rfl
@[simp] theorem Core.setF_run (x : Core) (i : Nat) (v : Word) : (x.setF i v).run = x.run := rfl
@[simp] theorem Core.setF_pc (x : Core) (i : Nat) (v : Word) : (x.setF i v).pc = x.pc := rfl
@[simp] theorem Core.setV_run (x : Core) (i : Nat) (v : BitVec 2048) : (x.setV i v).run = x.run := rfl
@[simp] theorem Core.setV_pc (x : Core) (i : Nat) (v : BitVec 2048) : (x.setV i v).pc = x.pc := rfl
@[simp] theorem Core.setM_run (x : Core) (i : Nat) (v : Word) : (x.setM i v).run = x.run := rfl
@[simp] theorem Core.setM_pc (x : Core) (i : Nat) (v : Word) : (x.setM i v).pc = x.pc := rfl
@[simp] theorem Core.addFlags_run (x : Core) (f : FpFlags) : (x.addFlags f).run = x.run := rfl
@[simp] theorem Core.addFlags_pc (x : Core) (f : FpFlags) : (x.addFlags f).pc = x.pc := rfl

/-- g0 reads zero, and writing it changes nothing (R287). -/
@[simp] theorem Core.gr_zero (x : Core) : x.gr 0 = 0 := rfl
@[simp] theorem Core.setG_zero (x : Core) (v : Word) : x.setG 0 v = x := rfl

/-- What a general register reads after a write. -/
theorem Core.gr_setG (x : Core) (i j : Nat) (v : Word) : (x.setG i v).gr j = if j = i ∧ i ≠ 0 then v else x.gr j := by
  unfold Core.setG Core.gr
  by_cases hi : i = 0
  · subst hi; simp
  · by_cases hj : j = i
    · subst hj; simp [hi, Tab.get_set_same]
    · simp [hi, hj, Tab.get_set_ne]

end Sys2Proof.Machine
end

