-- ==== Sys2Proof/Tests/Slice0.lean ====
section
/-! SUPPORT. Tests. The witnesses (`met_<statement>`) show for each statement that conditions which it asks for are met together, by small
states; the others hold values that the spec gives against the model. -/

namespace Sys2Proof.Tests

set_option Elab.async false

open Sys2Proof Sys2Proof.Machine Sys2Proof.Claims

/-! ## The states that the witnesses speak of -/

/-- An instruction word of a solver core in format R: OP, D, A, B, C, FN (R289). -/
def rWord (op d a b c fn : Nat) : Word := wd (op * 2 ^ 26 + d * 2 ^ 21 + a * 2 ^ 16 + b * 2 ^ 11 + c * 2 ^ 6 + fn)

/-- One in format I: OP, D, A, IMM16. -/
def iWord (op d a imm : Nat) : Word := wd (op * 2 ^ 26 + d * 2 ^ 21 + a * 2 ^ 16 + imm)

/-- The package with solver core 0 like x, out of reset, about to execute w. -/
def coreAt (x : Core) (w : Word) : State :=
  { State.reset with cores := [(0, { x with run := true, fetched := some (x.pc, w) })] }

/-- Core 0 after reset with a register holding a value. -/
def coreG (r : Nat) (v w : Word) : State := coreAt (Core.reset.setG r v) w

/-- Core 0 executes w, decidably. -/
def coreRuns (s : State) (w : Word) (row : Nat) : Bool :=
  decide (0 < s.part.sc) && s.alive && (s.sc 0).canRun && ((s.sc 0).pc.toNat % 4 == 0) && ((s.sc 0).fetched == some ((s.sc 0).pc, w))
    && hcLegal w (s.sc 0).ew32 (s.sc 0).vstart && hcRow w == row && s.settled

theorem runs_of (s : State) (w : Word) (row : Nat) (h : coreRuns s w row = true) : ScRuns s 0 row s w := by
  simp only [coreRuns, Bool.and_eq_true, beq_iff_eq, decide_eq_true_eq] at h
  obtain ⟨⟨⟨⟨⟨⟨⟨a, b⟩, c⟩, p⟩, d⟩, e⟩, f⟩, g⟩ := h
  exact ⟨a, b, c, by simp [State.scFetch, p, d], rfl, e, f, g⟩

/-! ## The block -/

theorem met_StepKeepsInv : Inv State.reset ∧ State.reset.alive = true := by
  refine ⟨⟨by decide, ?_⟩, by decide⟩
  intro c hc; simp [State.reset] at hc

/-- A step with a command in front completes, and leaves the queue's rest. -/
theorem met_QueueMoves : ∃ t, step { State.reset with pending := [.warningWindow] } = .next t ∧ t.pending = [] :=
  ⟨_, rfl, rfl⟩

/-! ## Solver cores -/

theorem met_CoreInteger : ScRuns (coreG 1 5 (rWord 1 2 1 1 0 0)) 0 (0x01 * 64) (coreG 1 5 (rWord 1 2 1 1 0 0)) (rWord 1 2 1 1 0 0) :=
  runs_of _ _ _ (by decide)

/-- `DIV` of −2⁶³ by −1, and by zero. -/
theorem met_ScDivide :
    let x := (Core.reset.setG 1 (BitVec.intMin 64)).setG 2 (BitVec.allOnes 64)
    ScRuns (coreAt x (rWord 1 3 1 2 0 0x0D)) 0 (0x01 * 64 + 0x0D) (coreAt x (rWord 1 3 1 2 0 0x0D)) (rWord 1 3 1 2 0 0x0D) ∧
    ScRuns (coreAt x (rWord 1 3 1 0 0 0x0F)) 0 (0x01 * 64 + 0x0F) (coreAt x (rWord 1 3 1 0 0 0x0F)) (rWord 1 3 1 0 0 0x0F) ∧
    ((coreAt x 0).sc 0).gr 1 = BitVec.intMin 64 ∧ ((coreAt x 0).sc 0).gr 2 = BitVec.allOnes 64 ∧ ((coreAt x 0).sc 0).gr 0 = 0 :=
  ⟨runs_of _ _ _ (by decide), runs_of _ _ _ (by decide), by decide +kernel⟩

theorem met_IntegerNeverTraps : ScRuns (coreG 1 5 (iWord 2 2 1 0x8000)) 0 (0x02 * 64) (coreG 1 5 (iWord 2 2 1 0x8000)) (iWord 2 2 1 0x8000) ∧
    ScRuns (coreG 1 5 (rWord 1 2 1 0 0 0x0E)) 0 (0x01 * 64 + 0x0E) (coreG 1 5 (rWord 1 2 1 0 0 0x0E)) (rWord 1 2 1 0 0 0x0E) :=
  ⟨runs_of _ _ _ (by decide), runs_of _ _ _ (by decide)⟩

/-- Core 0 with stack 0 in service, so that its memory answers. -/
def memAt (x : Core) (w : Word) : State := (coreAt x w).setRfld (regAt .mc 0 0) 0 1 1

theorem met_ScLoads :
    let s := memAt (Core.reset.setG 1 64) (iWord 0x16 2 1 8)
    ScRuns s 0 (0x16 * 64) s (iWord 0x16 2 1 8) ∧ (s.scRead 0 72 8 true (.load 0x16 2 72)).2 = .done (zeros 8) ∧
      (s.scRead 0 72 8 true (.load 0x16 2 72)).1.sc 0 = s.sc 0 ∧ (s.scRead 0 72 8 true (.load 0x16 2 72)).1.settled = true :=
  ⟨runs_of _ _ _ (by decide), by decide +kernel⟩

/-- A load of doubleword at a misaligned address, and a core that waits for its load. -/
theorem met_ScLoads_waits :
    let s := memAt (Core.reset.setG 1 64) (iWord 0x16 2 1 7)
    let t := coreAt { Core.reset with wait := some (.load 0x16 2 72) } 0
    ScRuns s 0 (0x16 * 64) s (iWord 0x16 2 1 7) ∧ (∃ u, notDone s 0 0 71 (s.scRead 0 71 8 true (.load 0x16 2 71)) = some u) ∧
    (t.sc 0).wait = some (.load 0x16 2 72) ∧ (t.sc 0).run = true :=
  ⟨runs_of _ _ _ (by decide), ⟨_, rfl⟩, by decide +kernel⟩

theorem met_ScStores :
    let s := memAt ((Core.reset.setG 1 64).setG 2 7) (iWord 0x1B 2 1 8)
    ScRuns s 0 (0x1B * 64) s (iWord 0x1B 2 1 8) ∧ (s.scWrite 0 72 (leBytes 8 7) true).2 = .done [] ∧
      ((s.scWrite 0 72 (leBytes 8 7) true).1.sc 0).run = true ∧ (s.scWrite 0 72 (leBytes 8 7) true).1.settled = true :=
  ⟨runs_of _ _ _ (by decide), by decide +kernel⟩

/-- A store of a misaligned word, and a core that waits for a store that memory holds. -/
theorem met_ScStores_waits :
    let s := memAt (Core.reset.setG 1 64) (iWord 0x1A 2 1 2)
    let t := coreAt { Core.reset with wait := some (.store 72) } 0
    ScRuns s 0 (0x1A * 64) s (iWord 0x1A 2 1 2) ∧ (∃ u, notDone s 0 0 66 (s.scWrite 0 66 (leBytes 4 0) false) = some u) ∧
    (t.sc 0).wait = some (.store 72) ∧ (t.sc 0).run = true :=
  ⟨runs_of _ _ _ (by decide), ⟨_, rfl⟩, by decide +kernel⟩

theorem met_StoreFrame :
    let s := memAt (Core.reset.setG 1 64) 0
    memWf s.mem = true ∧ 72 < s.part.hbm ∧ (s.scWriteLocal 0 72 (leBytes 8 7) true).2 = .done [] ∧
      (s.hbmRead (s.scReq 0) 72 8).2 = .done (zeros 8) ∧ ∀ u, s.flips.get 0 u ≤ 4 :=
  ⟨by decide, by decide, by decide, by decide, fun _ => by simp [memAt, coreAt, State.reset, State.setRfld, State.setReg, Tab.get]⟩

theorem met_MisalignedAccess :
    let s := coreG 1 64 (iWord 0x16 2 1 7)
    let t := coreG 1 64 (iWord 0x19 2 1 1)
    ScRuns s 0 (0x16 * 64) s (iWord 0x16 2 1 7) ∧ ((s.sc 0).gr 1 + hImm (iWord 0x16 2 1 7)).toNat % 8 = 7 ∧
    ScRuns t 0 (0x19 * 64) t (iWord 0x19 2 1 1) ∧ ((t.sc 0).gr 1 + hImm (iWord 0x19 2 1 1)).toNat % 2 = 1 :=
  ⟨runs_of _ _ _ (by decide), by decide, runs_of _ _ _ (by decide), by decide⟩

/-- A branch backwards by the largest offset, and a `JALR` to an address that is no multiple of 4. -/
theorem met_CoreBranches :
    let s := coreG 1 6 (iWord 0x20 1 1 0x8000)
    let t := coreG 1 6 (iWord 0x27 2 1 0)
    let v := coreAt Core.reset (wd (0x26 * 2 ^ 26 + 1))
    ScRuns s 0 (0x20 * 64) s (iWord 0x20 1 1 0x8000) ∧ (s.sc 0).pc.toNat % 4 = 0 ∧ ScRuns t 0 (0x27 * 64) t (iWord 0x27 2 1 0) ∧
    ((t.sc 0).gr 1 + hImm (iWord 0x27 2 1 0)).toNat % 4 = 2 ∧ ScRuns v 0 (0x26 * 64) v (wd (0x26 * 2 ^ 26 + 1)) :=
  ⟨runs_of _ _ _ (by decide), by decide, runs_of _ _ _ (by decide), by decide, runs_of _ _ _ (by decide)⟩

/-- Core 0 after reset with values in f1, f2 and f3. -/
def coreF (a b c w : Word) : State := coreAt (((Core.reset.setF 1 a).setF 2 b).setF 3 c) w

theorem met_CoreFp :
    let s := coreF 0x3FF0000000000000 0x4000000000000000 0 (rWord 0x28 4 1 2 0 0x00)
    let t := coreF 0x3FF0000000000000 0x4000000000000000 0 (rWord 0x28 4 1 2 0 0x11)
    let v := coreF 0 0 0 (rWord 0x28 4 1 0 1 0x1A)
    ScRuns s 0 (0x28 * 64) s (rWord 0x28 4 1 2 0 0x00) ∧ ScRuns t 0 (0x28 * 64 + 0x11) t (rWord 0x28 4 1 2 0 0x11) ∧
    ScRuns v 0 (0x28 * 64 + 0x1A) v (rWord 0x28 4 1 0 1 0x1A) :=
  ⟨runs_of _ _ _ (by decide), runs_of _ _ _ (by decide), runs_of _ _ _ (by decide)⟩

/-- `FRND` of 1.5 and of 1, and an `FMADD` of infinity times zero plus a quiet NaN. -/
theorem met_ScFused :
    let s := coreF 0x3FF8000000000000 0 0 (rWord 0x28 4 1 0 0 0x1F)
    let t := coreF 0x7FF0000000000000 0 0x7FF8000000000000 (rWord 0x29 4 1 2 3 0)
    ScRuns s 0 (0x28 * 64 + 0x1F) s (rWord 0x28 4 1 0 0 0x1F) ∧ (f64.rint .nearestEven 0x3FF8000000000000).2 = true ∧
    (f64.rint .nearestEven 0x3FF0000000000000).2 = false ∧ ScRuns t 0 (0x29 * 64) t (rWord 0x29 4 1 2 3 0) ∧
    f64.fmaOpen ((t.sc 0).fr 1).toNat ((t.sc 0).fr 2).toNat ((t.sc 0).fr 3).toNat = true :=
  ⟨runs_of _ _ _ (by decide), by decide, by decide, runs_of _ _ _ (by decide), by decide⟩

theorem met_CompareNan :
    let s := coreF 0x7FF0000000000001 0 0 (rWord 0x28 4 1 2 0 0x10)
    let t := coreF 0x7FF8000000000000 0 0 (rWord 0x28 4 1 2 0 0x10)
    ScRuns s 0 (0x28 * 64 + 0x10) s (rWord 0x28 4 1 2 0 0x10) ∧ f64.isSnan ((s.sc 0).fr 1).toNat = true ∧
    ScRuns t 0 (0x28 * 64 + 0x10) t (rWord 0x28 4 1 2 0 0x10) ∧ f64.isSnan ((t.sc 0).fr 1).toNat = false :=
  ⟨runs_of _ _ _ (by decide), by decide, runs_of _ _ _ (by decide), by decide⟩

/-- `FTOU` of −1 saturates below, of 2⁶⁴ above; `FTOI` of infinity and of 2.5; `FCLS` of −0. -/
theorem met_ConvertSaturates :
    let s := coreF 0xBFF0000000000000 0 0 (rWord 0x28 4 1 0 0 0x19)
    let t := coreF 0x8000000000000000 0 0 (rWord 0x28 4 1 0 0 0x1E)
    ScRuns s 0 (0x28 * 64 + 0x19) s (rWord 0x28 4 1 0 0 0x19) ∧ ScRuns t 0 (0x28 * 64 + 0x1E) t (rWord 0x28 4 1 0 0 0x1E) ∧
    f64.toInt .nearestEven 0 (2 ^ 64 - 1) 0xBFF0000000000000 = (0, FpFlags.invalid) ∧
    f64.toInt .nearestEven 0 (2 ^ 64 - 1) 0x43F0000000000000 = (2 ^ 64 - 1, FpFlags.invalid) ∧
    f64.toInt .nearestEven (-2 ^ 63) (2 ^ 63 - 1) 0xFFF0000000000000 = (-2 ^ 63, FpFlags.invalid) ∧
    (f64.toInt .nearestEven (-2 ^ 63) (2 ^ 63 - 1) 0x4004000000000000).1 = 2 ∧ f64.fclass 0x8000000000000000 = 2 ^ 9 :=
  ⟨runs_of _ _ _ (by decide), runs_of _ _ _ (by decide), by decide +kernel⟩

theorem met_CoreOrdering :
    let x := Core.reset.setG 1 64
    let s := memAt x (rWord 0x30 2 1 3 0 0)
    let t := coreAt { x with posted := 1 } (rWord 0x31 0 0 0 0 0)
    let v := coreAt { x with posted := 1 } (rWord 0x30 2 1 3 0 4)
    ScRuns s 0 (0x30 * 64) s (rWord 0x30 2 1 3 0 0) ∧ (s.sc 0).posted = 0 ∧
    (s.scAtomicAt 0 0 2 64 0 0).2 = .done (zeros 8) ∧ (s.scAtomicAt 0 0 2 64 0 0).1.sc 0 = s.sc 0 ∧
    (s.scAtomicAt 0 0 2 64 0 0).1.settled = true ∧ ScRuns t 0 (0x31 * 64) t (rWord 0x31 0 0 0 0 0) ∧ (t.sc 0).posted = 1 ∧
    ScRuns v 0 (0x30 * 64 + 4) v (rWord 0x30 2 1 3 0 4) :=
  ⟨runs_of _ _ _ (by decide), by decide, by decide, by decide, by decide, runs_of _ _ _ (by decide), by decide, runs_of _ _ _ (by decide)⟩

/-- An atomic of a misaligned word, and a core that waits for the answer of one. -/
theorem met_ScAtomics_waits :
    let s := memAt (Core.reset.setG 1 66) (rWord 0x30 2 1 3 0 0)
    let t := coreAt { Core.reset with wait := some (.atomic 2 64) } 0
    ScRuns s 0 (0x30 * 64) s (rWord 0x30 2 1 3 0 0) ∧ (∃ u, notDone s 0 0 66 (s.scAtomicAt 0 0 2 66 0 0) = some u) ∧
    (t.sc 0).wait = some (.atomic 2 64) ∧ (t.sc 0).run = true :=
  ⟨runs_of _ _ _ (by decide), ⟨_, rfl⟩, by decide +kernel⟩

theorem met_SystemCalls :
    let s := coreAt { Core.reset with level := 0, tvec := 0x1000 } (rWord 0x38 0 0 0 0 1)
    let t := coreAt { Core.reset with level := 1 } (rWord 0x38 0 0 0 0 0)
    ScRuns s 0 (0x38 * 64 + 1) s (rWord 0x38 0 0 0 0 1) ∧ (s.sc 0).level = 0 ∧ (s.sc 0).stepping = false ∧
    ScRuns t 0 (0x38 * 64) t (rWord 0x38 0 0 0 0 0) ∧ (t.sc 0).level = 1 ∧ bit (t.sc 0).status 5 = false :=
  ⟨runs_of _ _ _ (by decide), by decide, by decide, runs_of _ _ _ (by decide), by decide +kernel⟩

/-- `ERET` at each level, with a `PPREV` of 0 and of 3, and to an `EPC` that is no multiple of 4. -/
theorem met_TrapReturn :
    let w := rWord 0x38 0 0 0 0 2
    let s := coreAt { Core.reset with level := 1, epc := 0x104 } w
    let t := coreAt { Core.reset with level := 2, fwStatus := 0xC0, fwEpc := 0x102 } w
    let v := coreAt { Core.reset with level := 0 } w
    ScRuns s 0 (0x38 * 64 + 2) s w ∧ (s.sc 0).level = 1 ∧ ScRuns t 0 (0x38 * 64 + 2) t w ∧ fld (t.sc 0).fwStatus 6 2 = 3 ∧
    (t.sc 0).fwEpc.toNat % 4 = 2 ∧ ScRuns v 0 (0x38 * 64 + 2) v w ∧ (v.sc 0).level = 0 :=
  ⟨runs_of _ _ _ (by decide), by decide, runs_of _ _ _ (by decide), by decide, by decide, runs_of _ _ _ (by decide), by decide⟩

/-- A pending signal with its enable bit at user level, and one at a core that waits in a `WFE`. -/
theorem met_CoreInterrupts :
    let s := coreAt { Core.reset with level := 0, ien := 2, ipend := 2 } 0
    let t := coreAt { Core.reset with wfe := true, ien := 1 } 0
    let v := coreG 1 96 (rWord 0x38 0 1 0 0 4)
    (s.scTakeable 0).map (·.1) = [0x21] ∧ s.settled = true ∧ (s.sc 0).wait = none ∧ (t.sc 0).tcmp.toNat ≤ (t.now (t.part.dieOfSc 0)).toNat ∧
    bit (t.sc 0).ien 0 = true ∧ ScRuns v 0 (0x38 * 64 + 4) v (rWord 0x38 0 1 0 0 4) ∧ v.part.sc ≤ ((v.sc 0).gr 1).toNat ∧
    ScRuns (coreG 1 95 (rWord 0x38 0 1 0 0 4)) 0 (0x38 * 64 + 4) (coreG 1 95 (rWord 0x38 0 1 0 0 4)) (rWord 0x38 0 1 0 0 4) ∧
    ScRuns (coreAt Core.reset (rWord 0x38 0 0 0 0 3)) 0 (0x38 * 64 + 3) (coreAt Core.reset (rWord 0x38 0 0 0 0 3)) (rWord 0x38 0 0 0 0 3) :=
  ⟨by decide, by rfl, by rfl, by decide, by rfl, runs_of _ _ _ (by decide), by decide, runs_of _ _ _ (by decide), runs_of _ _ _ (by
    decide)⟩

/-- `SRR` of `SC_FCSR`, an `SRW` of a firmware register below its level, and one that the register does not take. -/
theorem met_SystemRegisters :
    let s := coreAt Core.reset (iWord 0x39 2 0 0)
    let t := coreAt { Core.reset with level := 1 } (iWord 0x3A 0 1 0x8000)
    let v := coreG 1 0x600 (iWord 0x3A 0 1 0)
    let y := coreG 1 0x400 (iWord 0x3A 0 1 0)
    ScRuns s 0 (0x39 * 64) s (iWord 0x39 2 0 0) ∧ s.srRead 0 0 = some 0x100 ∧ ScRuns t 0 (0x3A * 64) t (iWord 0x3A 0 1 0x8000) ∧
    (t.sc 0).level < 0x8000 / 0x4000 ∧ ScRuns v 0 (0x3A * 64) v (iWord 0x3A 0 1 0) ∧ (v.sc 0).srWrite 0 0x600 = none ∧
    ScRuns y 0 (0x3A * 64) y (iWord 0x3A 0 1 0) ∧ ((y.sc 0).srWrite 0 0x400).isSome = true :=
  ⟨runs_of _ _ _ (by decide), by decide, runs_of _ _ _ (by decide), by decide, runs_of _ _ _ (by decide), by decide, runs_of _ _ _ (by
    decide), by decide⟩

/-- `POST` of user code without `UPOST`, and of firmware with a block at 64 that names a list of no command at 128. -/
theorem met_Post :
    let w := iWord 0x3C 2 1 0
    let s := coreAt { Core.reset with level := 0 } w
    let t := { memAt (Core.reset.setG 1 64) w with mem := [(64, 128), (80, 192)] }
    let v := t.scRead 0 64 32 false (.post w 64)
    let b := memRdN t.mem 64 32
    ScRuns s 0 (0x3C * 64) s w ∧ (s.sc 0).level = 0 ∧ bit (s.sc 0).status 11 = false ∧ ScRuns t 0 (0x3C * 64) t w ∧
    v.2 = .done b ∧ (word64 b 0).toNat = 128 ∧ (word64 b 16).toNat = 192 ∧ v.1.inHbm (word64 b 0) 64 = true ∧ v.1.inHbm (word64 b 16) 32 = true ∧
    (v.1.submit 0 128 0 192 0 (.core 0 false)).1.sc 0 = t.sc 0 ∧ (v.1.submit 0 128 0 192 0 (.core 0 false)).1.settled = true :=
  ⟨runs_of _ _ _ (by decide), by decide, by decide, runs_of _ _ _ (by decide), by decide +kernel⟩

/-! ## Long vectors -/

/-- A core with two of its elements in use. -/
def vecCore : Core := { Core.reset with vl := 2 }

theorem met_VectorControl :
    let s := coreG 1 100 (rWord 0x36 2 1 0 1 0)
    let t := coreAt (vecCore.setG 1 31) (rWord 0x36 2 1 1 0 2)
    let v := coreAt (vecCore.setG 1 32) (rWord 0x36 2 1 1 0 2)
    ScRuns s 0 (0x36 * 64) s (rWord 0x36 2 1 0 1 0) ∧ ScRuns t 0 (0x36 * 64 + 2) t (rWord 0x36 2 1 1 0 2) ∧
    ((t.sc 0).gr 1).toNat < vlmax (t.sc 0).ew32 ∧ ScRuns v 0 (0x36 * 64 + 2) v (rWord 0x36 2 1 1 0 2) ∧
    vlmax (v.sc 0).ew32 ≤ ((v.sc 0).gr 1).toNat ∧
    ScRuns (coreAt vecCore (rWord 0x36 2 1 0 0 4)) 0 (0x36 * 64 + 4) (coreAt vecCore (rWord 0x36 2 1 0 0 4)) (rWord 0x36 2 1 0 0 4) ∧
    ScRuns (coreAt vecCore (rWord 0x36 2 1 3 0 8)) 0 (0x36 * 64 + 8) (coreAt vecCore (rWord 0x36 2 1 3 0 8)) (rWord 0x36 2 1 3 0 8) :=
  ⟨runs_of _ _ _ (by decide +kernel), runs_of _ _ _ (by decide +kernel), by decide +kernel, runs_of _ _ _ (by decide +kernel),
    by decide +kernel, runs_of _ _ _ (by decide +kernel), runs_of _ _ _ (by decide +kernel)⟩

/-- Element-wise instructions with and without a mask; a `VFMA` whose element 0 is infinity times zero plus a quiet NaN. -/
theorem met_VectorElementwise :
    let s := coreAt vecCore (rWord 0x34 2 1 3 2 0)
    let x := ((vecCore.setV 1 0x7FF0000000000000).setV 3 0).setV 2 0x7FF8000000000000
    let t := coreAt x (rWord 0x34 2 1 3 0 7)
    let v := coreAt vecCore (rWord 0x34 2 1 3 0 0x20)
    ScRuns s 0 (0x34 * 64) s (rWord 0x34 2 1 3 2 0) ∧ (s.sc 0).active (rWord 0x34 2 1 3 2 0) 0 = false ∧
    ScRuns t 0 (0x34 * 64 + 7) t (rWord 0x34 2 1 3 0 7) ∧ (t.sc 0).active (rWord 0x34 2 1 3 0 7) 0 = true ∧
    f64.fmaOpen ((t.sc 0).el 1 0) ((t.sc 0).opB (rWord 0x34 2 1 3 0 7) true 0) ((t.sc 0).el 2 0) = true ∧
    ScRuns v 0 (0x34 * 64 + 0x20) v (rWord 0x34 2 1 3 0 0x20) :=
  ⟨runs_of _ _ _ (by decide +kernel), by decide +kernel, runs_of _ _ _ (by decide +kernel), by decide +kernel, by decide +kernel, runs_of _
    _ _ (by decide +kernel)⟩

theorem met_MaskWrites :
    let s := coreAt vecCore (rWord 0x34 2 1 3 0 0x2B)
    ScRuns s 0 (0x34 * 64 + 0x2B) s (rWord 0x34 2 1 3 0 0x2B) ∧ (s.sc 0).active (rWord 0x34 2 1 3 0 0x2B) 1 = true ∧
    (s.sc 0).active (rWord 0x34 2 1 3 0 0x2B) 2 = false :=
  ⟨runs_of _ _ _ (by decide +kernel), by decide +kernel⟩

theorem met_VectorAcross :
    let s := coreAt vecCore (rWord 0x37 2 1 3 0 0)
    let t := coreAt vecCore (rWord 0x37 2 1 0 2 3)
    let v := coreAt vecCore (rWord 0x37 2 1 3 1 8)
    ScRuns s 0 (0x37 * 64) s (rWord 0x37 2 1 3 0 0) ∧ ScRuns t 0 (0x37 * 64 + 3) t (rWord 0x37 2 1 0 2 3) ∧
    ScRuns v 0 (0x37 * 64 + 8) v (rWord 0x37 2 1 3 1 8) :=
  ⟨runs_of _ _ _ (by decide +kernel), runs_of _ _ _ (by decide +kernel), runs_of _ _ _ (by decide +kernel)⟩

/-- A unit-stride load with `VSTART` at `vl`, one whose first element is of device type, and a core that waits for element 1. -/
theorem met_VectorMemory :
    let w := rWord 0x35 2 1 0 0 0
    let s := coreAt ({ vecCore with vstart := 2 }.setG 1 64) w
    let t := coreAt (vecCore.setG 1 0x0002000000000000) w
    let x := coreAt { Core.reset with wait := some (.vload w 1 72) } 0
    ScRuns s 0 (0x35 * 64) s w ∧ ScRuns t 0 (0x35 * 64) t w ∧ VecDone 0 w 2 s 2 s ∧ VecDone 0 w 2
      (vecTaken (x.setSc 0 { x.sc 0 with wait := none }) 0 w 1 (zeros 8)) 2 (vecTaken (x.setSc 0 { x.sc 0 with wait := none }) 0 w 1 (zeros 8)) ∧
    s.vecDevice 0 w = none ∧ (s.sc 0).vl ≤ (s.sc 0).vstart ∧ t.vecDevice 0 w = some 0 ∧ (x.sc 0).wait = some (.vload w 1 72) ∧
    vST w = false ∧ (x.sc 0).run = true :=
  ⟨runs_of _ _ _ (by decide +kernel), runs_of _ _ _ (by decide +kernel), .none _ _, .none _ _, by decide +kernel⟩

theorem vec_first (s : State) (w : Word) (d : List Byte) (h : 0 < (s.sc 0).vl) (ha : (s.sc 0).active w 0 = true)
    (ho : (vecAccess s 0 w 0).2 = .done d) (hv : ((vecAccess s 0 w 0).1.sc 0).vl = (s.sc 0).vl) :
    VecDone 0 w 0 s 1 (vecTaken (vecAccess s 0 w 0).1 0 w 0 d) :=
  .done 0 1 s _ _ d h ha (by rw [← ho]) hv (.none _ _)

theorem vec_stop (s : State) (w : Word) (k : Nat) (x : BitVec 16) (h : (vecAccess s 0 w 1).2 = .trap k x) : ∃ v, VecStops 0 w 1 s v :=
  ⟨_, .trap (vecAccess s 0 w 1).1 k x (by rw [← h])⟩

/-- A strided load that loads element 0 and meets a misaligned address at element 1. -/
theorem met_VecStops :
    let w := rWord 0x35 2 1 3 0 0x20
    let s := memAt ((vecCore.setG 1 64).setG 3 1) w
    let t := vecTaken (vecAccess s 0 w 0).1 0 w 0 (zeros 8)
    ScRuns s 0 (0x35 * 64 + 1) s w ∧ VecDone 0 w 0 s 1 t ∧ (∃ v, VecStops 0 w 1 t v) ∧ s.vecDevice 0 w = none ∧ 1 < (t.sc 0).vl ∧
    (t.sc 0).active w 1 = true :=
  ⟨runs_of _ _ _ (by decide +kernel), vec_first _ _ _ (by decide +kernel) (by decide +kernel) (by decide +kernel) (by decide +kernel),
    vec_stop _ _ 4 0 (by decide +kernel), by decide +kernel⟩

/-- The command of a `POST` on a core that cannot run, at a misaligned PC, at the word 0, and at an `ADDR`. -/
theorem met_CoreFetch :
    let s := State.reset
    let t := coreAt { Core.reset with pc := 2 } 0
    let u := coreAt Core.reset 0
    let v := coreAt Core.reset (rWord 1 2 1 1 0 0)
    CoreRow .post (0x3C * 64) ∧ (s.sc 0).canRun = false ∧ (t.sc 0).canRun = true ∧ (t.scFetch 0).2 = .trap 0x03 0 ∧
    (u.scFetch 0).2 = .word 0 ∧ hcLegal 0 (u.sc 0).ew32 (u.sc 0).vstart = false ∧ hcRow (rWord 1 2 1 1 0 0) ≠ 0x3C * 64 ∧
    (v.scFetch 0).2 = .word (rWord 1 2 1 1 0 0) ∧ hcLegal (rWord 1 2 1 1 0 0) (v.sc 0).ew32 (v.sc 0).vstart = true :=
  ⟨.post, by decide +kernel⟩

/-! ## The control core -/

/-- The word of a control-core instruction: opcode, RD, RA, RB, condition, immediate (R212). -/
def ccWord (op d a b cond imm : Nat) : Word := wd (op * 2 ^ 56 + d * 2 ^ 51 + a * 2 ^ 46 + b * 2 ^ 41 + cond * 2 ^ 38 + imm)

/-- The package with cluster 0 like c, running an image of 4 words that begins with w. -/
def clusterAt (c : Cluster) (w : Word) : State :=
  { State.reset with
    clusters := [(0, { c with st := .running, codeWords := 4 })]
    mem := memWrL [] (imemKey 0 0) (leBytes 8 w.toNat) }

/-- Control core 0 executes w of an opcode at word 0, decidably. -/
def controlRuns (s : State) (w : Word) (op : Nat) : Bool :=
  decide (0 < s.part.clusters) && s.alive && ((s.cl 0).st == .running) && ((s.cl 0).wait == none) && ((s.cl 0).pc == 0)
    && (s.imem 0 0 == w) && (ccIllegal w == none) && (opOf w == op) && s.settled

theorem control_of (s : State) (w : Word) (op : Nat) (h : controlRuns s w op = true) : CcRuns s 0 op 0 w := by
  simp only [controlRuns, Bool.and_eq_true, beq_iff_eq, decide_eq_true_eq] at h
  obtain ⟨⟨⟨⟨⟨⟨⟨⟨a, b⟩, c⟩, d⟩, e⟩, f⟩, g⟩, i⟩, j⟩ := h
  exact ⟨a, b, c, d, e, f, g, i, j⟩

/-- Cluster 0 after reset runs w. -/
def ctl (w : Word) : State := clusterAt Cluster.reset w

/-- The same with a scalar register. -/
def ctlS (r : Nat) (v w : Word) : State := clusterAt (Cluster.reset.setSr r v) w

/-- `ADD`, a branch to itself, a jump beyond the image, and a loop whose body is one word. -/
theorem met_ControlCore :
    let l := { Cluster.reset with loops := [(1, 0, 0)], lc := [(1, 2)] }
    CcRuns (ctl (ccWord 1 2 1 1 0 0)) 0 0x01 0 (ccWord 1 2 1 1 0 0) ∧ CcRuns (ctl (ccWord 0x14 0 0 0 0 0)) 0 0x14 0 (ccWord 0x14 0 0 0 0 0) ∧
    brTaken 0 0 0 ∧ CcRuns (ctlS 1 4 (ccWord 0x16 0 1 0 0 0)) 0 0x16 0 (ccWord 0x16 0 1 0 0 0) ∧
    CcRuns (ctlS 1 3 (ccWord 0x17 0 1 0 0 1)) 0 0x17 0 (ccWord 0x17 0 1 0 0 1) ∧
    CcRuns (ctl (ccWord 0x18 0 0 0 0 0)) 0 0x18 0 (ccWord 0x18 0 0 0 0 0) ∧
    CcRuns (clusterAt l (ccWord 0x10 2 1 0 0 0)) 0 0x10 0 (ccWord 0x10 2 1 0 0 0) ∧ (afterBody 0 l.loops l.lc).1 = 0 :=
  ⟨control_of _ _ _ (by decide +kernel), control_of _ _ _ (by decide +kernel), .inl rfl, control_of _ _ _ (by decide +kernel), control_of _
    _ _ (by decide +kernel), control_of _ _ _ (by decide +kernel), control_of _ _ _ (by decide +kernel), by decide +kernel⟩

theorem met_ProgramStops : ∃ r, ((ctl 0).stopProgram 0 Code.CL_PC_RANGE 7 4095 0).err.fresh = [r] ∧ r.code = Code.CL_PC_RANGE := ⟨_, rfl, rfl⟩

/-- `MOVU` of a valid register, `ECHK` and `HALT` with nothing issued, and a `WAITSUM` for a register that is not valid. -/
theorem met_ProgramEnds :
    let s := clusterAt { Cluster.reset with uValid := [3] } (ccWord 0x0E 1 3 0 0 0)
    CcRuns s 0 0x0E 0 (ccWord 0x0E 1 3 0 0 0) ∧ 3 ∈ (s.cl 0).uValid ∧ CcRuns (ctl (ccWord 0x72 0 0 0 0 0x8000)) 0 0x72 0 (ccWord 0x72 0 0 0 0 0x8000) ∧
    15 ∉ ((ctl 0).cl 0).uValid ∧ CcRuns (ctl (ccWord 0x73 1 0 0 0 0)) 0 0x73 0 (ccWord 0x73 1 0 0 0 0) ∧ ((ctl 0).cl 0).drained = true ∧
    CcRuns (ctl (ccWord 0x19 0 0 0 0 5)) 0 0x19 0 (ccWord 0x19 0 0 0 0 5) :=
  ⟨control_of _ _ _ (by decide +kernel), by decide +kernel, control_of _ _ _ (by decide +kernel), by decide +kernel, control_of _ _ _ (by
    decide +kernel), by decide +kernel, control_of _ _ _ (by decide +kernel)⟩

/-- A binding word (R235): producer, consumer, depth, slot in 128 bytes, base. -/
def bindWord (prod cons depth slot base : Nat) : Word :=
  wd (2 ^ 60 + prod * 2 ^ 57 + cons * 2 ^ 54 + depth * 2 ^ 48 + slot * 2 ^ 38 + base)

/-- A `MARK` at 254 and at 255, a `WAIT` at 0, one `MARK` at the head of an engine's queue, an `SREAD` to be issued, a full queue for
`QPUSH`. -/
theorem met_TokensAndIssue :
    let m := wd (0x70 * 2 ^ 56 + 3 * 2 ^ 48)
    let t := wd (0x71 * 2 ^ 56 + 3 * 2 ^ 48)
    let s := clusterAt { Cluster.reset with tok := [(3, 255)] } m
    let r := wd (0x59 * 2 ^ 56)
    let q := clusterAt { Cluster.reset with queues := [(0, ⟨bindWord 0 2 1 1 0, [0], 0, [], 0⟩)] } (ccWord 0x74 0 0 0 0 0)
    let e : State := { State.reset with clusters := [(0, { Cluster.reset with st := .running, eeQ := [⟨0, m, [], 1⟩] })] }
    CcRuns s 0 0x70 0 m ∧ CcRuns (ctl t) 0 0x71 0 t ∧ CcRuns (ctl r) 0 0x59 0 r ∧ ((ctl r).cl 0).endsOk r = true ∧
    CcRuns q 0 0x74 0 (ccWord 0x74 0 0 0 0 0) ∧ (q.cl 0).owns 0 true 0 = true ∧ ((q.cl 0).q 0).depth = ((q.cl 0).q 0).occ ∧
    (e.cl 0).queueOf 2 = [⟨0, m, [], 1⟩] ∧ e.settled = true ∧ (e.cl 0).engBusy 2 = false :=
  ⟨control_of _ _ _ (by decide +kernel), control_of _ _ _ (by decide +kernel), control_of _ _ _ (by decide +kernel), by decide +kernel,
    control_of _ _ _ (by decide +kernel), by decide +kernel⟩

/-- A load at 4, a load of local memory, a store to it, a store to a register of the cluster, and a watchdog at its limit. -/
theorem met_ControlMemory :
    let up := fun (s : State) => s.setRfld (regAt .mc 0 0) 0 1 1
    let l := up (ctlS 1 64 (ccWord 0x12 2 1 0 0 0))
    let t := up (ctlS 1 64 (ccWord 0x13 0 1 1 0 0))
    let g := ctlS 1 0x0002000010000018 (ccWord 0x13 0 1 1 0 0)
    let d : State := { State.reset with clusters := [(0, { Cluster.reset with st := .running, wdog := 16 })] }.setRfld (clReg 0 0x18) 0 32 1
    CcRuns (ctlS 1 4 (ccWord 0x12 2 1 0 0 0)) 0 0x12 0 (ccWord 0x12 2 1 0 0 0) ∧ CcRuns l 0 0x12 0 (ccWord 0x12 2 1 0 0 0) ∧
    (l.hbmRead (l.ccReq 0 true) 64 64).2 = .done (zeros 64) ∧ (l.hbmRead (l.ccReq 0 true) 64 64).1.cl 0 = l.cl 0 ∧
    CcRuns t 0 0x13 0 (ccWord 0x13 0 1 1 0 0) ∧
    ((t.disown 0).hbmWrite (t.ccReq 0 false) 64 (leBytes 8 64) (.cc 0)).2 = .done 0 ∧
    ((t.disown 0).hbmWrite (t.ccReq 0 false) 64 (leBytes 8 64) (.cc 0)).1.cl 0 = t.cl 0 ∧
    CcRuns g 0 0x13 0 (ccWord 0x13 0 1 1 0 0) ∧ g.region 0x0002000010000018 = .reg .cl 0 0x18 ∧
    (d.cl 0).outstanding = false ∧ d.rfld (clReg 0 0x18) 0 32 * 16 ≤ (d.cl 0).wdog ∧ (d.cl 0).st = .running :=
  ⟨control_of _ _ _ (by decide +kernel), control_of _ _ _ (by decide +kernel), by decide +kernel, by decide +kernel, control_of _ _ _ (by
    decide +kernel), by decide +kernel, by decide +kernel, control_of _ _ _ (by decide +kernel), by decide +kernel⟩

/-! ## The engines of a cluster -/

/-- The package with cluster 0 like c, running. -/
def engAt (c : Cluster) : State := { State.reset with clusters := [(0, { c with st := .running })] }

/-- Engine `eng` of running cluster 0 has i at the head of its queue, decidably. -/
def headRuns (s : State) (eng op : Nat) (i : Issued) (r : List Issued) : Bool :=
  decide (0 < s.part.clusters) && s.alive && ((s.cl 0).st == .running) && ((s.cl 0).queueOf eng == i :: r) && (opOf i.word == op) && s.settled

theorem head_of (s : State) (eng op : Nat) (i : Issued) (r : List Issued) (h : headRuns s eng op i r = true) : HeadRuns s 0 eng op i r := by
  simp only [headRuns, Bool.and_eq_true, beq_iff_eq, decide_eq_true_eq] at h
  obtain ⟨⟨⟨⟨⟨a, b⟩, c⟩, d⟩, e⟩, f⟩ := h
  exact ⟨a, b, c, d, e, f⟩

/-- A chain with nothing accumulated, in a state. -/
def chainIn (st : BankState) (eff : Nat) (last : Option Issued) : Chain :=
  ⟨st, 0, false, none, false, false, eff, List.replicate 1024 0, [], false, 0, none, [], [], false, 0, false, false, false, false, false, false,
    Counts.none, last, false, false⟩

/-- The queues 0 and 1 that feed the matrix engine, 2 that it fills. -/
def meQueues (a b : List Word) : Tab Queue :=
  [(0, ⟨bindWord 4 1 2 8 0, a, 0, [], 0⟩), (1, ⟨bindWord 4 1 2 8 0x1000, b, 0, [], 0⟩), (2, ⟨bindWord 1 4 2 32 0x2000, [], 0, [], 0⟩)]

/-- An `MMA` of two BF16 tiles of depth 2, opening a chain of one instruction in bank 0, output to queue 2. -/
def mmaI : Issued := ⟨0, wd (0x40 * 2 ^ 56 + 1 * 2 ^ 46 + 2 * 2 ^ 36 + 2 * 2 ^ 32 + 2 * 2 ^ 28 + 2 * 2 ^ 24 + 2 ^ 19), [], 1⟩

/-- Groups 0 to 2: those of even number go to one partial, the odd one to the other (R122). -/
theorem met_MatrixSums :
    everyOther true [Val.ofInt 1, Val.ofInt 2, Val.ofInt 3] = [Val.ofInt 1, Val.ofInt 3] ∧
    everyOther false [Val.ofInt 1, Val.ofInt 2, Val.ofInt 3] = [Val.ofInt 2] ∧ accf.decode (0x8000000000 % 2 ^ 40) = .fin true 0 accf.qmin ∧
    (accAdd true false (wd (2 ^ 47 - 1)) (Val.ofInt 1)).ovf = true := by decide +kernel

/-- An `MMA` that waits for its tiles, and one that has them. -/
theorem met_MatrixChains :
    let c := { Cluster.reset with meQ := [mmaI], queues := meQueues [] [] }
    let a := mkDesc 2 32 2 0 false false false false
    let b := mkDesc 2 2 32 0x1000 false false false false
    let f := { Cluster.reset with meQ := [mmaI], queues := meQueues [a] [b] }
    HeadRuns (engAt c) 0 1 0x40 mmaI [] ∧ (c.mmaCheck mmaI.word ((engAt c).relightOff 0)) = none ∧ mmaPops mmaI.word = [0, 1] ∧
    HeadRuns (engAt f) 0 1 0x40 mmaI [] ∧ mmaTileCheck mmaI.word a b none = none ∧ mmaTileCheck mmaI.word b a none = some Code.CL_ME_SHAPE ∧
    (f.openWaits 0 0) = false ∧ ({ f with bank0 := some (chainIn .draining 0 none) } : Cluster).openWaits 0 0 = true :=
  ⟨head_of _ _ _ _ _ (by decide +kernel), by decide +kernel, by decide +kernel, head_of _ _ _ _ _ (by decide +kernel), by decide +kernel⟩

/-- An `MSAVE` of an open chain, an `MREST` of a raw tile, an `MDROP` of an open chain and of an idle bank. -/
theorem met_MatrixSaves :
    let q := [(2, (⟨bindWord 1 4 2 64 0x2000, [], 0, [], 0⟩ : Queue)), (3, ⟨bindWord 4 1 2 64 0x8000, [mkDesc 0xE 32 32 0x8000 false false false false], 0, [], 0⟩)]
    let i : Issued := ⟨0, wd (0x41 * 2 ^ 56 + 2 * 2 ^ 36), [], 1⟩
    let j : Issued := ⟨0, wd (0x42 * 2 ^ 56 + 3 * 2 ^ 51), [], 1⟩
    let k : Issued := ⟨0, wd (0x43 * 2 ^ 56), [], 1⟩
    let c := { Cluster.reset with queues := q, bank0 := some (chainIn .open 0 none) }
    let e := { Cluster.reset with queues := q }
    HeadRuns (engAt { c with meQ := [i] }) 0 1 0x41 i [] ∧ ({ c with st := .running } : Cluster).msaveCheck i.word = none ∧ e.msaveCheck i.word = some Code.CL_ME_CHAIN ∧
    HeadRuns (engAt { e with meQ := [j] }) 0 1 0x42 j [] ∧ e.mrestCheck j.word = none ∧ e.openWaits 0 0 = false ∧
    mrestTileCheck ((e.q 3).entries.take 1) = none ∧ HeadRuns (engAt { c with meQ := [k] }) 0 1 0x43 k [] ∧
    HeadRuns (engAt { e with meQ := [k] }) 0 1 0x43 k [] :=
  ⟨head_of _ _ _ _ _ (by decide +kernel), by decide +kernel, by decide +kernel, head_of _ _ _ _ _ (by decide +kernel), by decide +kernel,
    by decide +kernel, by decide +kernel, head_of _ _ _ _ _ (by decide +kernel), head_of _ _ _ _ _ (by decide +kernel)⟩

/-- A chain that drains: it decides with 0 clips under a flag policy, and commits. -/
theorem met_MatrixEnds :
    let d := engAt { Cluster.reset with bank0 := some (chainIn .draining 1 (some mmaI)) }
    let e := engAt { Cluster.reset with queues := meQueues [] [], bank1 := some (chainIn .draining 0 (some mmaI)) }
    (d.cl 0).bank 0 = some (chainIn .draining 1 (some mmaI)) ∧ d.settled = true ∧ (e.cl 0).bank 1 = some (chainIn .draining 0 (some mmaI)) ∧
    ((e.cl 0).q (mQO mmaI.word)).occ < ((e.cl 0).q (mQO mmaI.word)).depth ∧ e.settled = true := by decide +kernel

/-- A wick operation that writes OUT from the immediate, the last of its program. -/
def wickOp : Word := wd (0x1F * 2 ^ 53 + 0x1C * 2 ^ 48 + 2 ^ 33 + 0x3F800000)

/-- A `WICK` without inputs that outputs a tile to queue 2, one that waits for its input, and one with a field that has to be 0. -/
theorem met_ElementEngine :
    let q := [(1, (⟨bindWord 4 2 2 32 0x1000, [], 0, [], 0⟩ : Queue)), (2, ⟨bindWord 2 4 2 32 0x2000, [], 0, [], 0⟩)]
    let i : Issued := ⟨0, wd (0x50 * 2 ^ 56 + 2 * 2 ^ 36 + 2 ^ 32 + 2 ^ 26), [], 1⟩
    let j : Issued := ⟨0, wd (0x50 * 2 ^ 56 + 2 ^ 51 + 2 ^ 27), [], 1⟩
    let b : Issued := ⟨0, wd (0x50 * 2 ^ 56 + 1), [], 1⟩
    let s : State := { engAt { Cluster.reset with queues := q, eeQ := [i] } with mem := memWrL [] (wickKey 0 0) (leBytes 8 wickOp.toNat) }
    let t := { s with clusters := [(0, { Cluster.reset with st := .running, queues := q, eeQ := [j] })] }
    let v := { s with clusters := [(0, { Cluster.reset with st := .running, queues := q, eeQ := [b] })] }
    HeadRuns s 0 2 0x50 i [] ∧ s.wickProg 0 i.word = some [wickOp] ∧ s.wickCheck 0 i.word = none ∧ s.wickTileCheck 0 i.word [] = none ∧
    HeadRuns t 0 2 0x50 j [] ∧ HeadRuns v 0 2 0x50 b [] ∧ v.wickCheck 0 b.word = some Code.CL_EE_OPERAND :=
  ⟨head_of _ _ _ _ _ (by decide +kernel), by decide +kernel, by decide +kernel, by decide +kernel, head_of _ _ _ _ _ (by decide +kernel),
    head_of _ _ _ _ _ (by decide +kernel), by decide +kernel⟩

/-- A `RSUM` of one row, an `ELOAD`, an `ESTORE`, an `EPARAM` and a `WLOAD`, and an output that waits to be committed. -/
theorem met_ElementMoves :
    let d := mkDesc 1 32 32 0x1000 false false false false
    let q := [(1, (⟨bindWord 4 2 2 32 0x1000, [d], 0, [], 0⟩ : Queue)), (2, ⟨bindWord 2 4 2 32 0x2000, [], 0, [], 0⟩)]
    let a : Issued := ⟨0, wd (0x51 * 2 ^ 56 + 2 ^ 51 + 3 * 2 ^ 16), [], 1⟩
    let b : Issued := ⟨0, wd (0x52 * 2 ^ 56 + 2 * 2 ^ 36 + 1 * 2 ^ 32), [], 1⟩
    let c : Issued := ⟨0, wd (0x53 * 2 ^ 56 + 2 * 2 ^ 16 + 5), [7], 1⟩
    let e : Issued := ⟨0, wd (0x54 * 2 ^ 56 + 2 ^ 51 + 7 * 2 ^ 29), [], 1⟩
    let at_ := fun (i : Issued) => engAt { Cluster.reset with queues := q, eeQ := [i] }
    let p : EePend := ⟨1, 0, true, some (2, 0, []), Counts.none⟩
    let s := engAt { Cluster.reset with queues := q, eePend := [p] }
    HeadRuns (at_ a) 0 2 0x51 a [] ∧ HeadRuns (at_ b) 0 2 0x52 b [] ∧ HeadRuns (at_ c) 0 2 0x53 c [] ∧ HeadRuns (at_ e) 0 2 0x54 e [] ∧
    (eeShape d).isSome = true ∧ 256 ≤ dBytes d ∧ (s.cl 0).eePend = [p] ∧ s.settled = true ∧ ((s.cl 0).q 2).occ < ((s.cl 0).q 2).depth :=
  ⟨head_of _ _ _ _ _ (by decide +kernel), head_of _ _ _ _ _ (by decide +kernel), head_of _ _ _ _ _ (by decide +kernel), head_of _ _ _ _ _
    (by decide +kernel), by decide +kernel⟩

/-- R189: the tree over a row of 32 ones gives 32; the operation and its sources meet the conditions. -/
theorem met_WickOperation :
    let w := wd (0x18 * 2 ^ 58 + 0x1F * 2 ^ 53)
    let r : WickRun := ⟨[(0, List.replicate 32 0x3F800000)], 0, 0, []⟩
    wOp w = 0x18 ∧ (r.src (wImm w) (wSA w)).length = 1 * 32 ∧ nth ((r.step 32 w).src 0 (wDst w)) 0 31 = 0x42000000 := by decide +kernel

/-- `SRCLR`, `SREAD` with the highest code and with one beyond it, and a read that waits for nothing. -/
theorem met_SideUnit :
    let a : Issued := ⟨0, wd (0x58 * 2 ^ 56 + 3 * 2 ^ 50), [], 1⟩
    let b : Issued := ⟨0, wd (0x59 * 2 ^ 56 + 5 * 2 ^ 52 + 0x0E * 2 ^ 45), [], 1⟩
    let c : Issued := ⟨0, wd (0x59 * 2 ^ 56 + 0x0F * 2 ^ 45), [], 1⟩
    let at_ := fun (i : Issued) => engAt { Cluster.reset with sruQ := [i] }
    let s := engAt { Cluster.reset with reads := [b] }
    HeadRuns (at_ a) 0 3 0x58 a [] ∧ HeadRuns (at_ b) 0 3 0x59 b [] ∧ HeadRuns (at_ c) 0 3 0x59 c [] ∧ b.word.toNat &&& mask 44 0 ≠ c.word.toNat ∧
    (s.cl 0).reads = [b] ∧ (s.cl 0).readWaits b = false ∧ s.settled = true :=
  ⟨head_of _ _ _ _ _ (by decide +kernel), head_of _ _ _ _ _ (by decide +kernel), head_of _ _ _ _ _ (by decide +kernel), by decide +kernel⟩

/-- A `DLOAD` of a 32 × 32 BF16 tile from 0, a `DSTORE` of one and one without a tile, a `DCOPY` of nothing and of 8 bytes; a `DLOAD` and a
`DCOPY` in progress whose bytes are in local memory. -/
theorem met_DataMover :
    let d := mkDesc 2 32 32 0x1000 false false false false
    let q := [(1, (⟨bindWord 2 4 2 32 0x1000, [d], 0, [], 0⟩ : Queue)), (2, ⟨bindWord 4 2 2 32 0x2000, [], 0, [], 0⟩)]
    let a : Issued := ⟨0, wd (0x60 * 2 ^ 56 + 2 * 2 ^ 36 + 2 * 2 ^ 32 + 31 * 2 ^ 24 + 31 * 2 ^ 16 + 2 * 2 ^ 12), [0, 64], 1⟩
    let b : Issued := ⟨0, wd (0x61 * 2 ^ 56 + 2 ^ 36 + 2 * 2 ^ 12), [0, 64], 1⟩
    let c : Issued := ⟨0, wd (0x62 * 2 ^ 56), [0, 64, 0], 1⟩
    let e : Issued := ⟨0, wd (0x62 * 2 ^ 56), [0, 64, 8], 1⟩
    let at_ := fun (i : Issued) => engAt { Cluster.reset with queues := q, dmQ := [i] }
    HeadRuns (at_ a) 0 4 0x60 a [] ∧ (at_ a).dloadCheck 0 a = none ∧ ((at_ a).moverReads 0 0 (rowRanges 0 64 32 64)).1.cl 0 = (at_ a).cl 0 ∧
    HeadRuns (at_ b) 0 4 0x61 b [] ∧ b.word.toNat &&& xReserved 0x61 = 0 ∧ (at_ b).dstoreCheck b d = none ∧
    HeadRuns (at_ c) 0 4 0x62 c [] ∧ (at_ c).dcopyCheck c = none ∧ HeadRuns (at_ e) 0 4 0x62 e [] ∧ (at_ e).dcopyCheck e = none :=
  ⟨head_of _ _ _ _ _ (by decide +kernel), by decide +kernel, by decide +kernel, head_of _ _ _ _ _ (by decide +kernel), by decide +kernel,
    by decide +kernel, head_of _ _ _ _ _ (by decide +kernel), by decide +kernel, head_of _ _ _ _ _ (by decide +kernel), by decide +kernel⟩

theorem met_MoverCompletes :
    let up := fun (s : State) => s.setRfld (regAt .mc 0 0) 0 1 1
    let e : Issued := ⟨0, wd (0x62 * 2 ^ 56), [0, 64, 8], 1⟩
    let a : Issued := ⟨0, wd (0x60 * 2 ^ 56 + 2 * 2 ^ 36 + 2 * 2 ^ 32 + 0 * 2 ^ 24 + 3 * 2 ^ 16 + 2 * 2 ^ 12), [0, 64], 1⟩
    let o : DmOp := ⟨0, e, 0, [], Counts.none, 0, [], [], false, []⟩
    let p : DmOp := ⟨0, a, 0, [], Counts.none, 0, [], [], false, []⟩
    let s := up (engAt { Cluster.reset with dm := [o] })
    let t := up (engAt { Cluster.reset with dm := [p] })
    let g := s.moverGather 0 [] (s.dmRanges 0 o).1 [] []
    let h := t.moverGather 0 [] (t.dmRanges 0 p).1 [] []
    let v : DmOp := { o with writing := true, put := putPieces [(64, zeros 8)] }
    let x := up (engAt { Cluster.reset with dm := [v] })
    let r := x.put (x.moverReq 0) (fun a len => .dm 0 0 (mkAddr x.pkg a.toNat) len) v.put 0 0
    (s.cl 0).dmOp 0 = some o ∧ g.2.2.1 = .done [] ∧ g.2.2.2 = [zeros 8] ∧ s.isLocal 64 = true ∧ (t.cl 0).dmOp 0 = some p ∧ (t.dmRanges 0 p).1 ≠ [] ∧
    h.2.2.1 ≠ .wait ∧ (x.cl 0).dmOp 0 = some v ∧ r.2.code = none ∧ r.2.rest = [] ∧ r.2.held = 0 := by decide +kernel

/-! ## Command lists -/

/-- Dispatcher 0 with list 0 of cores running at address 0, whose first entry has the words w; stack 0 is in service. -/
def cmdList (runs : List EntryRun) (st : ListState) : CmdList := ⟨0, 0, 0, 0xF00, 7, .core 0 false, 0, 0, st, runs, 0, [], [], 0, 0, [], 0, none⟩

/-- The package with that list, and a memory. -/
def listAt (x : CmdList) (w : List Word) (more : List (Nat × List Byte)) : State :=
  State.setRfld { State.reset with
    disps := [(0, ⟨[x], 1⟩)]
    mem := more.foldl (fun (m : List Host.Cell) (y : Nat × List Byte) => memWrL m y.1 y.2)
      (memWrL [] 0 (w.flatMap (fun (v : Word) => leBytes 8 v.toNat))) } (regAt .mc 0 0) 0 1 1

/-- The first word of an entry (R269): command, target class, first target, number of targets. -/
def cmdWord (cmd cls first count : Nat) : Word := wd (cmd * 2 ^ 56 + cls * 2 ^ 52 + first * 2 ^ 32 + count * 2 ^ 16)

/-- Dispatcher 0 has come to an entry of list 0, decidably. -/
def entryRuns (s : State) (cmd : Nat) (x : CmdList) (w : List Word) : Bool :=
  let r := s.dspRead 0 x true (x.addr + wd (64 * x.idx)) 64
  let b := memRdN s.mem 0 64
  s.alive && (s.cmdList 0 0 == some x) && (x.state == .running) && x.runs.all (fun r => !r.sync || r.ended)
    && (r.2 == .done b) && (w == (List.range 8).map (fun i => word64 b (8 * i))) && (fld (nth w 0 0) 56 8 == cmd)
    && (r.1.cmdRefusal w == none) && r.1.settled

theorem entry_of (s : State) (cmd : Nat) (x : CmdList) (w : List Word) (h : entryRuns s cmd x w = true) :
    EntryRuns s 0 0 cmd x w (s.dspRead 0 x true (x.addr + wd (64 * x.idx)) 64).1 := by
  simp only [entryRuns, Bool.and_eq_true, beq_iff_eq, List.all_eq_true, Bool.or_eq_true, Bool.not_eq_true'] at h
  obtain ⟨⟨⟨⟨⟨⟨⟨⟨a, b⟩, c⟩, d⟩, e⟩, f⟩, g⟩, i⟩, j⟩ := h
  refine ⟨by decide, a, b, c, ?_, ⟨_, Prod.ext rfl e, f⟩, g, i, j⟩
  intro r hr hs
  rcases d r hr with h | h
  · simp [hs] at h
  · exact h

/-- `END` with nothing before it, `FENCE` behind an entry that still runs, a `FENCE_TIME` to come and one that has come; a refused entry. -/
theorem met_CommandLists :
    let x := cmdList [] .running
    let y := cmdList [⟨0, 0x10, false, [0], []⟩] .running
    let a := [cmdWord 0 0 0 0, 0, 0, 0, 0, 0, 0, 0]
    let b := [cmdWord 2 0 0 0, 0, 0, 0, 0, 0, 0, 0]
    let c := [cmdWord 3 0 0 0, 1, 0, 0, 0, 0, 0, 0]
    let d := [cmdWord 3 0 0 0, 0, 0, 0, 0, 0, 0, 0]
    let e := [cmdWord 1 0 0 0, 1, 0, 0, 0, 0, 0, 0]
    EntryRuns (listAt x a []) 0 0 0x00 x a ((listAt x a []).dspRead 0 x true 0 64).1 ∧ x.quiet = true ∧ x.failed = none ∧
    EntryRuns (listAt y b []) 0 0 0x02 y b ((listAt y b []).dspRead 0 y true 0 64).1 ∧ y.quiet = false ∧
    EntryRuns (listAt x c []) 0 0 0x03 x c ((listAt x c []).dspRead 0 x true 0 64).1 ∧ (listAt x c []).now 4 < nth c 0 1 ∧
    EntryRuns (listAt x d []) 0 0 0x03 x d ((listAt x d []).dspRead 0 x true 0 64).1 ∧ (listAt x e []).cmdRefusal e = some Code.CL_BAD_COMMAND :=
  ⟨entry_of _ _ _ _ (by decide +kernel), by decide, by decide, entry_of _ _ _ _ (by decide +kernel), by decide, entry_of _ _ _ _ (
    by decide +kernel), by decide +kernel, entry_of _ _ _ _ (by decide +kernel), by decide +kernel⟩

/-- A list that has ended and is quiet, whose record can be stored; and one that runs. -/
theorem met_ListCompletes :
    let x := cmdList [⟨0, 0x10, false, [], [(0, 0)]⟩] (.ended 0 1)
    let s := listAt x [] []
    s.cmdList 0 0 = some x ∧ x.quiet = true ∧ s.settled = true ∧
    ((s.dspPutStart 0 0 0xF00 (completionRecord 0 1 7 0) 0).dspPut 0 0).2 = some 0 ∧ x.outcome 0 1 = (0, 1) ∧
    ((listAt (cmdList [] .running) [] []).cmdList 0 0).map (·.state) = some .running := by decide +kernel

/-- A `LOAD_PROGRAM`, a `BIND_QUEUES` and a `LAUNCH_AT` for cluster 0, free, then held by this dispatcher, then running. -/
theorem met_ListEntries :
    let x := cmdList [] .running
    let a := [cmdWord 0x10 1 0 1, 0x100, 128, 0, 0, 0, 0, 0]
    let b := [cmdWord 0x11 1 0 1, 0x200, 0, 0, 0, 0, 0, 0]
    let c := [cmdWord 0x12 1 0 1, 10000, 0, 0, 0, 0, 0, 0]
    let s := listAt x a []
    let u := (s.dspRead 0 x true 0 64).1
    let t := listAt x b []
    let v := (t.dspRead 0 x true 0 64).1
    let q := { listAt x c [] with clusters := [(0, { Cluster.reset with st := .loaded, bound := true })] }
    EntryRuns s 0 0 0x10 x a u ∧ u.ownHeld 0 (creatorOf 0 x) (cmdTargets a) = false ∧ u.otherHeld 0 (cmdTargets a) = false ∧ (u.cl 0).st ≠ .running ∧
    ({ s with clusters := [(0, { Cluster.reset with heldBy := some ⟨0, 0, 1⟩ })] } : State).ownHeld 0 (creatorOf 0 x) (cmdTargets a) = true ∧
    EntryRuns t 0 0 0x11 x b v ∧ (v.dspRead 0 x false 0x200 512).2 = .done (zeros 512) ∧ bindBad (zeros 512) = false ∧
    EntryRuns q 0 0 0x12 x c (q.dspRead 0 x true 0 64).1 ∧ (q.now 4).toNat + 10000 ≤ (nth c 0 1).toNat :=
  ⟨entry_of _ _ _ _ (by decide +kernel), by decide +kernel, by decide +kernel, by decide +kernel, by decide +kernel, entry_of _ _ _ _ (by
    decide +kernel), by decide +kernel, by decide +kernel, entry_of _ _ _ _ (by decide +kernel), by decide +kernel⟩

/-- A region key for the last granule of memory, for the fonts, and an outgoing entry that is removed. -/
theorem met_RegionKeys :
    let x := cmdList [] .running
    let a := [cmdWord 0x13 0 0 0, 0, wd (State.reset.part.hbm - 2 ^ 21), 1, 65535, 0, 0, 0]
    let b := [cmdWord 0x13 0 0 0, 1, 0x0001000000000000, 1, 7, 0, 0, 0]
    let c := [cmdWord 0x13 0 0 0, 2, 255, 0, 0, 0, 65535, 0]
    EntryRuns (listAt x a []) 0 0 0x13 x a ((listAt x a []).dspRead 0 x true 0 64).1 ∧
    EntryRuns (listAt x b []) 0 0 0x13 x b ((listAt x b []).dspRead 0 x true 0 64).1 ∧
    EntryRuns (listAt x c []) 0 0 0x13 x c ((listAt x c []).dspRead 0 x true 0 64).1 :=
  ⟨entry_of _ _ _ _ (by decide +kernel), entry_of _ _ _ _ (by decide +kernel), entry_of _ _ _ _ (by decide +kernel)⟩

/-- Entries for engines, a collective, a snapshot that is cancelled, one that is refused without a declaration, one of no operation, and a
`DIGEST`. -/
theorem met_EngineLists :
    let x := cmdList [] .running
    let a := [cmdWord 0x30 2 0 1, 0x200, 0, 0, 0, 0, 0, 0]
    let b := [cmdWord 0x40 3 0 1, 0x200, 0, 0, 0, 0, 0, 0]
    let c := [cmdWord 0x50 4 0 4, 2, 0, 0, 0, 0, 0, 0]
    let d := [cmdWord 0x50 4 0 4, 1, 0, 0, 0, 0, 0, 0]
    let e := [cmdWord 0x20 5 0 1, 0x200, 0, 0, 0, 0, 0, 0]
    let g := [cmdWord 0x60 0 0 0, 0x200, 0x400, 0, 0, 0, 0, 0]
    let u := fun (w : List Word) => ((listAt x w []).dspRead 0 x true 0 64).1
    (EntryRuns (listAt x a []) 0 0 0x30 x a (u a) ∧ EntryRuns (listAt x b []) 0 0 0x40 x b (u b) ∧ EntryRuns (listAt x c []) 0 0 0x50 x c (u c)) ∧
    (EntryRuns (listAt x d []) 0 0 0x50 x d (u d) ∧ EntryRuns (listAt x e []) 0 0 0x20 x e (u e) ∧ EntryRuns (listAt x g []) 0 0 0x60 x g (u g)) ∧
    snapShape c 2 [2, 3, 4, 5] ∧ snapShape d 1 [2] ∧
    ((u a).dspRead 0 x false 0x200 128).2 = .done (zeros 128) ∧ ((u b).dspRead 0 x false 0x200 16).2 = .done (zeros 16) ∧
    (u b).inHbm 0x200 16 = true ∧ (u d).takeRefusal 0 = some Code.SE_NOT_DECLARED ∧ (u e).openGroup 0 = none ∧
    ((u g).dspRead 0 x false 0x200 64).2 = .done (zeros 64) ∧ (u g).inHbm 0x400 672 = true ∧ x.fin = none ∧ x.quiet = true :=
  ⟨⟨entry_of _ _ _ _ (by decide +kernel), entry_of _ _ _ _ (by decide +kernel), entry_of _ _ _ _ (by decide +kernel)⟩,
    ⟨entry_of _ _ _ _ (by decide +kernel), entry_of _ _ _ _ (by decide +kernel), entry_of _ _ _ _ (by decide +kernel)⟩,
    by unfold snapShape; decide +kernel, by unfold snapShape; decide +kernel, by decide +kernel⟩

/-- An armed entry at its time, a reservation that lapses exactly 4,000 ticks before it, and one whose time has not come. -/
theorem met_Lamplighters :
    let s : State := { State.reset with time := [(0, 5000 * 2 ^ 32)], lamps := [(0, ⟨[⟨5000, ⟨0, 0, 0⟩, .list 0 0, true⟩, ⟨9000, ⟨0, 1, 0⟩, .list 0 0, false⟩]⟩)] }
    (s.lamp 0).entries.countP (fun e => e.armed && decide (e.t ≤ s.now 0)) = 1 ∧
    (s.lamp 0).entries.countP (fun e => !e.armed && decide (e.t.toNat ≤ (s.now 0).toNat + 4000)) = 1 ∧
    (∃ e ∈ (s.lamp 0).entries, e.creator = ⟨0, 1, 0⟩ ∧ (s.now 0).toNat < e.t.toNat) ∧ s.alive = true := by decide +kernel

/-! ## Engines of a stack -/

/-- Least-squares engine 0 like x, with its home memory in service. -/
def lseAt (x : Lse) (m : List Host.Cell) : State :=
  (upTo 16).foldl (fun s k => s.setRfld (regAt .mc k 0) 0 1 1) { State.reset with lses := [(0, x)], mem := m }

theorem lse_of (s : State) (p : Phase) (h : (decide (0 < s.part.lse) && s.alive && ((s.lse 0).phase == p) && ((s.lse 0).act == .rest)) = true) :
    LseIn s 0 p := by
  simp only [Bool.and_eq_true, beq_iff_eq, decide_eq_true_eq] at h
  exact ⟨h.1.1.1, h.1.1.2, h.1.2, h.2⟩

/-- An engine with the descriptor of a solve whose image stands at 0. -/
def lseSolve (p : Phase) (a : LseAct) : Lse :=
  { Lse.reset with
    phase := p, act := a, desc := [0, 64, 0, 0x1000, 0x10000, 0, 0, 0x2000, 0x3000, 0x4000, 0x5000, 0x6000, 0, 0, 0, 0] }

/-- Each phase is met; an image that is refused is read; what is to be written is written; two lists of one content in different orders,
with no saturation. -/
theorem met_LseSteps :
    let at_ := fun (p : Phase) => lseAt (lseSolve p .rest) []
    let s := lseAt (lseSolve .load .image) []
    let w := lseAt { lseSolve .publish (.body false) with put := putPieces [(0x6008, zeros 56)] } []
    LseIn (at_ .load) 0 .load ∧ LseIn (at_ .publish) 0 .publish ∧ LseIn (at_ .form) 0 .form ∧ LseIn (at_ .factor) 0 .factor ∧
    LseIn (at_ .solve) 0 .solve ∧ (∃ k, lseReads 0 (s.lse 0) = some (false, 0, 64, k)) ∧ (∃ k, lseWrites 0 (w.lse 0) = some k) ∧
    [((1 : Int), (0 : Int)), (2, 0)].Perm [(2, 0), (1, 0)] ∧
    (s.fetch (s.lseReq 0 false) (s.lse 0).got 0 64).2.2 = .done (zeros 64) ∧ imgOk (zeros 64) 0 = false ∧
    (w.put (w.lseReq 0 false) (fun _ _ => .lse 0) (w.lse 0).put 0 0).2.rest = [] ∧
    (fxAcc 0 [(1, 0), (2, 0)]).2 = false ∧ (fxAcc 0 [(2, 0), (1, 0)]).2 = false :=
  ⟨lse_of _ _ (by decide +kernel), lse_of _ _ (by decide +kernel), lse_of _ _ (by decide +kernel), lse_of _ _ (by decide +kernel),
    lse_of _ _ (by decide +kernel), ⟨_, rfl⟩, ⟨_, rfl⟩, .swap _ _ _, by decide +kernel⟩

/-- An engine that waits with no deadline, and one whose deadline is over; headers that read 0, a wrong `SEQ` and the right one; a `DROP`
of an idle engine. -/
theorem met_LseOutcomes :
    let s := lseAt (lseSolve .wait .rest) []
    let t := { lseAt { lseSolve .wait .rest with deadline := 5 } [] with time := [(4, 5 * 2 ^ 32)] }
    LseIn s 0 .wait ∧ LseIn t 0 .wait ∧ s.lseDue 0 = none ∧ t.lseDue 0 = some Code.LSE_DEADLINE_ITER ∧ word64 (leBytes 64 7) 0 ≠ 0 ∧
    wd ((s.lse 0).req + 1) = 1 ∧ word64 (leBytes 64 1) 0 = 1 ∧ bytesAt (leBytes 64 1) 12 52 = 0 ∧
    ((lseAt Lse.reset []).lse 0).phase = .idle ∧ (lseAt Lse.reset []).settled = true ∧ (t.lse 0).closed = false ∧
    (t.lse 0).deadline ≤ t.now (t.part.dieOfLse 0) :=
  ⟨lse_of _ _ (by decide +kernel), lse_of _ _ (by decide +kernel), by decide +kernel⟩

/-- A layer of zeros, which the first check refuses; a unit at rest; and one whose record is written. -/
theorem met_UpdateUnit :
    let on := fun (u : Upd) => (State.setRfld { State.reset with upds := [(0, u)] } (regAt .mc 0 0) 0 1 1).setRfld (regAt .mc 0 0x08) 0 5 24
    let u : Upd := ⟨true, 0, 1, 0, 0x3F800000, 0, none, 0, .read, [], [], 0⟩
    let s := on u
    let r := s.uuReads 0 [((s.uu 0).table + wd (128 * (s.uu 0).idx), 128)] []
    let w := on { u with act := .record 0, put := putPieces [(0, zeros 32)] }
    LayerRuns s 0 (zeros 128) r.1 ∧ ldBad (zeros 128) = true ∧ ((on { u with act := .rest }).uu 0).act = .rest ∧
    (w.put (w.uuReq 0) (fun _ len => .uu 0 (if 0 = 0 then 0 else len / 0)) (w.uu 0).put 0 0).2.rest = [] ∧
    uuRandom 0 1 0 0 < 2 ^ 24 ∧ (bf16.decode 0x3F80).isNan = false :=
  ⟨⟨by decide +kernel, Prod.ext rfl (by decide +kernel)⟩, by decide +kernel⟩

/-! ## Memory -/

/-- The package with stack 0 in service. -/
def memUp : State := State.setRfld State.reset (regAt .mc 0 0) 0 1 1

/-- The first and the last address of HBM, and both sides of the boundary of home-stack mode of die 0 where 1 GiB of each stack is in it. -/
theorem met_AddressMap :
    let s := State.setRfld State.reset (regAt .mc 0 8) 0 5 1
    (∀ d < 4, State.reset.homeGib d ≤ 24) ∧ (∀ d < 4, s.homeGib d ≤ 24) ∧ 0 < s.part.hbm ∧ s.part.hbm - 1 < s.part.hbm ∧
    s.inHome (92 * 2 ^ 30 - 1) = false ∧ s.inHome (92 * 2 ^ 30) = true := by decide +kernel

/-- A request of one unit that a controller takes: the last 8 bytes of the unit at address 64. -/
def memReq (write : Bool) (len flips : Nat) : MemReq :=
  ⟨9, 4, 0, wd (128 - len), write, len, if write then List.replicate len 5 else [], false, flips, 0⟩

theorem mc_takes (s : State) (r : MemReq) (h : (s.alive && s.settled && (decide (r.cls < 14 ∧ r.act < 7 ∧ 1 ≤ r.len ∧
    r.addr.toNat % 64 + r.len ≤ 64 ∧ r.addr.toNat + r.len ≤ s.part.hbm) && decide (r.cls < 11)) && (!r.write || r.data.length == r.len)
    && (s.dirConflicts r.write r.addr.toNat r.len == [])
    && !s.unitsShut (s.mapAddr r.addr.toNat).1 (s.mapAddr r.addr.toNat).2 r.addr.toNat r.len) = true) : McTakes s r := by
  simp only [Bool.and_eq_true, Bool.or_eq_true, Bool.not_eq_true', beq_iff_eq, decide_eq_true_eq] at h
  obtain ⟨⟨⟨⟨⟨a, b⟩, c, o⟩, d⟩, e⟩, f⟩ := h
  refine ⟨⟨c, ⟨by omega, by omega⟩, ?_⟩, a, b, e, f⟩
  intro hw
  rcases d with h | h
  · simp [hw] at h
  · exact h

/-- A wrong tag; a partition without tokens; whole and partial writes; clean, correctable, poisoning and poisoned reads at their bounds; a
held write; a priority read; a request of class 11, which none may send, and one of a stack that is not in service. -/
theorem met_MemoryRequests :
    let s := memUp
    let rd := memReq false 8
    let wr := memReq true
    let keyed : State := { s with tags := [(0, 5)] }
    let dry := s.setReg (partReg 0 0) (wd (2 ^ 63))
    let bad : State := { s with poison := [1] }
    let held := (s.setReg (regAt .mc 0 0x50) (wd (2 ^ 63))).setMc 0 { s.mc 0 with cow := [0] }
    let fast := (s.setReg (regAt .mc 0 0x18) (wd 0x89)).setMc 0 { s.mc 0 with prio := 1 }
    let pr : MemReq := { memReq false 64 0 with prio := true }
    (∀ n < 5, McTakes s (rd n)) ∧ (∀ n ∈ [8, 64], McTakes s (wr n 0)) ∧
    McTakes keyed (rd 0) ∧ McTakes dry (rd 0) ∧ McTakes held (wr 8 0) ∧ McTakes bad (rd 0) ∧ McTakes fast pr ∧
    (startable s (rd 0) ∧ startable s (wr 64 0) ∧ startable s (wr 8 0)) ∧ (startable bad (rd 0) ∧ takesPrio fast pr = true) ∧
    ¬ McSound s { rd 0 with cls := 11 } ∧ memUp.unitsShut 1 0 0 8 = true ∧
    keyed.tagCheck 9 0 120 0 = some Code.MC_TENANT ∧ dry.tagCheck 9 0 120 0 = none ∧ dry.mayStart (mcReq (rd 0)) 0 1 = false ∧
    s.tagCheck 9 0 120 0 = none ∧ s.cowHolds 0 64 9 = false ∧ held.cowHolds 0 120 9 = true ∧
    bad.poison.contains (unitOf bad (rd 0)) = true ∧ (∀ n < 5, badBytes s (rd n) = n) ∧ memWf s.mem = true := by
  intro s rd wr keyed dry bad held fast pr
  have hr : ∀ n < 5, McTakes s (rd n) := fun n hn => mc_takes _ _ (by revert n; decide +kernel)
  have hw : ∀ n ∈ [8, 64], McTakes s (wr n 0) := fun n hn => mc_takes _ _ (by revert n; decide +kernel)
  refine ⟨hr, hw, mc_takes _ _ (by decide +kernel), mc_takes _ _ (by decide +kernel), mc_takes _ _ (by decide +kernel),
    mc_takes _ _ (by decide +kernel), mc_takes _ _ (by decide +kernel), ?_, ?_, fun h => h.outer.1 rfl, by decide +kernel⟩
  all_goals unfold startable; decide +kernel

/-- Both writes of `MC_REFRESH`; `MC_MAP` at 24 and 25, before and in a job; the scrub of a clean, a damaged and a poisoned unit; temperatures
at the bounds of the levels; the last granule of HBM retagged; a granule to be copied. -/
theorem met_MemoryService :
    let s := memUp
    let on := s.setRfld (regAt .mc 0 0x30) 0 32 1
    let t : SnapDecl := ⟨false, false, 0, 4096, 0, 0, 0, false, 0, [(0, 4096)], 0⟩
    let r : SnapRun := ⟨true, none, t, 0, 0, 0, .copy, [], [], 0, [0, 1, 2, 3], 0, 0, 0, 0⟩
    let c : State := { s with mcs := [(0, { s.mc 0 with urgent := [0] })], job := { s.job with snap := some r } }
    s.alive = true ∧ s.settled = true ∧ s.launched = false ∧ fld (3 : Word) 0 2 = 3 ∧ fld (2 : Word) 0 2 ≠ 3 ∧ fld (24 : Word) 0 5 ≤ 24 ∧
    24 < fld (25 : Word) 0 5 ∧ (s.setRfld (regAt .se 0 0x1000) 0 3 2).launched = true ∧
    on.rfld (regAt .mc 0 0x30) 0 32 ≠ 0 ∧ on.mayStart scrubReq 0 1 = true ∧ on.poison.contains (unitNo 0 (on.mc 0).scrubAt) = false ∧
    ({ on with poison := [0] } : State).poison.contains (unitNo 0 (on.mc 0).scrubAt) = true ∧ s.retags = [] ∧
    (s.rfld (regAt .mc 0 0) 8 2 = 0 ∧ heatLevel 0 85 = 0 ∧ heatLevel 0 86 = 1) ∧
    (s.part.hbm / 2 ^ 21 - 1 + 1) * 2 ^ 21 ≤ s.part.hbm ∧ (∀ d < 4, s.homeGib d ≤ 24) ∧ memWf s.mem = true ∧
    (let y := (upTo 16).foldl (fun s k => (s.setRfld (regAt .mc k 0) 0 1 1).setReg (budgetReg k 3) 0xFFFFFFFF) State.reset
     ∀ k < y.part.stacks, bit (y.reg (regAt .mc k 0)) 0 = true ∧ bit (y.reg (partReg k (y.partOf k 11))) 63 = false ∧ y.budgetLevel k 3 = none) ∧
    c.alive = true ∧ c.job.snap = some r ∧ r.cutDone = true ∧ c.copyTurn 0 0 = true := by decide +kernel

/-! ## The fabric -/

/-- A port in a state, with its enable bit as given. -/
def portAt (s : State) (p st : Nat) : State := (s.setRfld (flReg p 0) 0 3 st).setRfld (flReg p 0) 3 1 1

theorem port_of (s : State) (p : Nat) (h : (decide (p < 36) && s.alive && s.settled) = true) : PortHere s p := by
  simp only [Bool.and_eq_true, decide_eq_true_eq] at h
  exact ⟨h.1.1, h.1.2, h.2⟩

/-- A link frame of counter c with its content sealed (R503). -/
def linkSealed (key : List Byte) (c : Nat) (l : List Byte) : LinkFrame :=
  let head := wd (l.length / 8 * 2 ^ 56 + c)
  let e := gcmSeal key (leBytes 12 c) (leBytes 8 head.toNat) l
  ⟨head, e.take l.length, e.drop l.length, 0⟩

/-- Port 35 trains, keys, is up, or may not train; counters before and after a key change; frames refused, in order, out of order and after
a lost word. -/
theorem met_Links :
    let s := portAt State.reset 35
    let key := zeros 32
    let sealed := fun (c : Nat) => linkSealed key c (zeros 40)
    let on : Port := { Port.reset with rxKey := key, rxCtr := 4 }
    let up := (s 3).setPort 35 on
    let lost := (s 3).setPort 35 { on with lost := true }
    let keyed := (s 2).setPort 35 { Port.reset with eph := some 0 }
    let full := (s 3).setPort 35 { on with txFrames := 2 ^ 36 }
    (∀ n < 4, PortHere (s n) 35) ∧ PortHere up 35 ∧ PortHere lost 35 ∧ PortHere keyed 35 ∧ PortHere full 35 ∧
    (s 1).mayTrain 35 = true ∧ (s 1).portState 35 = 1 ∧ keyed.portState 35 = 2 ∧ (keyed.port 35).eph = some 0 ∧ up.portState 35 = 3 ∧
    fld (8 : Word) 3 1 = 1 ∧ (State.reset.setRfld (flReg 35 0) 3 1 0).rfld (flReg 35 0) 3 1 = 0 ∧
    ((State.reset.setRfld (flReg 35 0) 3 1 0).setRfld (flReg 35 0) 3 1 1).mayTrain 35 = true ∧
    2 ^ 36 ≤ (full.port 35).txFrames ∧ ((s 3).port 35).txFrames < 2 ^ 36 ∧ on.openFrame ⟨0, [], [], 0⟩ = none ∧
    on.openFrame (sealed 5) = some (zeros 40) ∧ (lost.port 35).lost = true ∧ (lost.port 35).expect ≠ some 5 ∧
    (frameOf (zeros 40)).hdr.op ≠ 0x7F :=
  ⟨fun n h => port_of _ _ (by revert n; decide +kernel), port_of _ _ (by decide +kernel), port_of _ _ (by decide +kernel),
    port_of _ _ (by decide +kernel), port_of _ _ (by decide +kernel), by decide +kernel⟩

/-- A pinned port that is up; the choice among two; a frame as old as the limit and one tick older; each write of the epoch registers. -/
theorem met_Routers :
    let s := portAt (portAt State.reset 0 3) 35 3
    let e : Word := wd (35 * 2 ^ 56)
    let a : Word := wd (63 * 2 ^ 56 + 2 ^ 35 + 1)
    let b : BufFrame := ⟨mkFrame ⟨0, 0, 0, 0, 0x01, 8, 0, 0, false, 0, 0, 0, 0, 0, 0, 0, 0⟩ [], 0, 0⟩
    let at_ := fun (t : Nat) => ({ s.setFr 0 { s.fr 0 with buf := [b] } with time := [(6, t * 2 ^ 32)] } : State)
    let one := s.setReg (frReg 0 0x08) (wd 0x200)
    let two := s.setReg (frReg 0 0x08) (wd 0x640)
    let q : State := two.setFr 0 { two.fr 0 with buf := [{ b with frame := { b.frame with hdr := { b.frame.hdr with epoch := 1 } } }] }
    fld e 56 6 = 35 ∧ s.portUp 35 = true ∧ fld a 56 6 = 0x3F ∧ s.choosePort 0 0 a ≠ none ∧ State.reset.choosePort 0 0 a = none ∧
    ((at_ 10000).fr 0).buf[0]? = some b ∧ ((at_ 10000).now 6).toNat = 10000 ∧ ((at_ 10001).now 6).toNat = 10001 ∧
    (one.bankOf 0 0).isSome = true ∧ one.bankOf 0 1 = none ∧ one.curBank 0 = some 0 ∧ one.curEpoch 0 = 0 ∧
    (two.drain 0 = 0 ∧ 0 < q.drain 0 ∧ (two.setFr 0 { two.fr 0 with retire := true }).drain 0 = 0) ∧
    one.rfld (frReg 0 0x10) 14 1 = 0 ∧ (one.setRfld (frReg 0 0x10) 14 1 1).curBank 0 ≠ some ((one.setRfld (frReg 0 0x10) 14 1 1).rfld (frReg 0 0x10) 14 1) ∧
    s.alive = true ∧ s.settled = true := by decide +kernel

/-- A header: opcode, traffic class, local address, length, `ARG`. -/
def aHdr (op : Byte) (tc : BitVec 3) (a : BitVec 50) (len : BitVec 10) (arg : Word) : JHdr :=
  ⟨0, a, 0, 0, op, len, tc, 0, false, 1, 0, 0, 0, 0, 0, 0, arg⟩

/-- A state with one frame delivered at FD 0. -/
def framedIn (s : State) (h : JHdr) (d : List Byte) : State := s.setFr 0 { s.fr 0 with inbox := [⟨mkFrame h d, 0, 0⟩] }

/-- The state once that frame has been taken; with a right CRC and no seal it passes its checks. -/
def openedAt (s : State) (h : JHdr) (d : List Byte) : State :=
  (framedIn s h d).setFr 0 { (framedIn s h d).fr 0 with inbox := [] }

theorem frame_of (s : State) (h : JHdr) (d : List Byte) (ok : (s.alive && !h.sealed && (d.length == payloadLen h)) = true) :
    FrameHere (framedIn s h d) 0 (fun o => o == h.op) ⟨mkFrame h d, 0, 0⟩ d (openedAt s h d) := by
  simp only [Bool.and_eq_true, Bool.not_eq_true', beq_iff_eq] at ok
  obtain ⟨⟨a, b⟩, c⟩ := ok
  refine ⟨by decide, a, ⟨openedAt s h d, ?_, ?_⟩, by simp [mkFrame]⟩
  · have hf : (framedIn s h d).fr 0 = { s.fr 0 with inbox := [⟨mkFrame h d, 0, 0⟩] } := by simp [framedIn]
    simp [State.takeFrameP, hf, findPos, mkFrame, dropAt, openedAt]
  · simp [State.openFrame, mkFrame, b, c]

/-- A request of this package with number 0. -/
def outReq (attempt : Nat) (busy : Option Word) : OutReq :=
  ⟨0, 0, mkFrame (aHdr 0x01 0 0 8 0) [], .none, 0, 0, attempt, busy, false⟩

/-- A request at, before and after its time, at the first and the last attempt; a `NAK` before and after the retry time; answers. -/
theorem met_Sources :
    let s := fun (r : OutReq) (t : Nat) => ({ memUp with reqs := [r], time := [(0, t * 2 ^ 32)] } : State)
    let r := outReq 0 none
    let q := outReq 4 none
    let b := outReq 0 (some 8000)
    reqOf (s r 79999) 0 r ∧ ((s r 79999).now 0).toNat = 79999 ∧ reqOf (s q 80000) 0 q ∧ ((s q 80000).now 0).toNat = 80000 ∧
    reqOf (s b 7999) 0 b ∧ ((s b 7999).now 0).toNat = 7999 ∧ ((s b 8000).now 0).toNat = 8000 ∧ ((s b 4000000).now 0).toNat = 4000000 ∧
    FrameHere (framedIn (s r 0) (aHdr opRESP 0 0 8 0) (zeros 8)) 0 (fun o => o == opRESP) ⟨mkFrame (aHdr opRESP 0 0 8 0) (zeros 8), 0, 0⟩ (zeros 8)
      (openedAt (s r 0) (aHdr opRESP 0 0 8 0) (zeros 8)) ∧
    (openedAt (s r 0) (aHdr opRESP 0 0 8 0) (zeros 8)).reqFor (aHdr opRESP 0 0 8 0) = some r ∧
    FrameHere (framedIn (s r 0) { aHdr opNAK 0 0 0 0 with code := Code.FAB_PENDING } []) 0 (fun o => o == opNAK)
      ⟨mkFrame { aHdr opNAK 0 0 0 0 with code := Code.FAB_PENDING } [], 0, 0⟩ [] (openedAt (s r 0) { aHdr opNAK 0 0 0 0 with code := Code.FAB_PENDING } []) ∧
    FrameHere (framedIn (s r 0) (aHdr opGETDATA 0 0 8 0) (zeros 8)) 0 (fun o => o == opGETDATA)
      ⟨mkFrame (aHdr opGETDATA 0 0 8 0) (zeros 8), 0, 0⟩ (zeros 8) (openedAt (s r 0) (aHdr opGETDATA 0 0 8 0) (zeros 8)) ∧
    ((openedAt (s r 0) (aHdr opGETDATA 0 0 8 0) (zeros 8)).localWrite (getReq r) 0 (zeros 8) .none).2 = some (.done 0) :=
  ⟨by rfl, by decide +kernel, by rfl, by decide +kernel, by rfl, by decide +kernel, by decide +kernel, by decide +kernel, frame_of _ _ _ (by
    decide +kernel), by decide +kernel, frame_of _ _ _ (by decide +kernel), frame_of _ _ _ (by decide +kernel), by decide +kernel⟩

/-- A command that finds no frame, and one that finds a frame with a bad CRC. -/
theorem met_FabricRow :
    let bad : State := State.reset.setFr 0 { Router.reset with inbox := [⟨⟨aHdr opWRITE 0 0 8 0, zeros 8, 0⟩, 0, 0⟩] }
    FabricRow (.jonathWrite, fun o => o == opWRITE) ∧ State.reset.takeFrameP 0 (fun o => o == opWRITE) = none ∧
    (bad.takeFrameP 0 (fun o => o == opWRITE)).map (fun y => (y.2.openFrame 0 y.1.frame).2) = some none :=
  ⟨by unfold FabricRow; exact .tail _ (.tail _ (.head _)), by decide +kernel⟩

/-- A bad CRC; a read and a `GET` that a wrong key refuses and that the right one lets through; writes that are tracked and not; an atomic;
the queue of the home agent. -/
theorem met_Destinations :
    let s : State := { memUp with homeKeys := [(0, 1)] }
    let bad : State := s.setFr 0 { s.fr 0 with inbox := [⟨⟨aHdr opWRITE 0 0 8 0, zeros 8, 0⟩, 0, 0⟩] }
    let u := fun (h : JHdr) (d : List Byte) => openedAt s h d
    let r := aHdr opREAD 0 0 8 0
    let g := aHdr opGET 0 0 512 0
    let w := aHdr opWRITE 0 0 16 0
    let a := aHdr 0x10 0 8 8 0
    ((bad.takeFrameP 0 (fun o => o == opWRITE)).map (fun y => y.1.frame.crc == jcrc y.1.frame.hdr y.1.frame.payload)) = some false ∧
    FrameHere (framedIn s r []) 0 (fun o => o == opREAD) ⟨mkFrame r [], 0, 0⟩ [] (u r []) ∧ (u r []).homeCheck 0 r [] = none ∧
    (u r []).homeCheck 0 { r with key := 2 } [] = some Code.FAB_KEY_MISMATCH ∧ ((u r []).localRead (homeReq 0 r) 0 8).2 = some (.done (zeros 8)) ∧
    FrameHere (framedIn s g []) 0 (fun o => o == opGET) ⟨mkFrame g [], 0, 0⟩ [] (u g []) ∧ (u g []).homeCheck 0 g [] = none ∧
    FrameHere (framedIn s w (zeros 16)) 0 (fun o => o == opWRITE) ⟨mkFrame w (zeros 16), 0, 0⟩ (zeros 16) (u w (zeros 16)) ∧
    hdrTracked w = false ∧ hdrTracked (aHdr opWRITE 0 0 8 0) = true ∧ (u w (zeros 16)).homeCheck 0 w (zeros 16) = none ∧
    FrameHere (framedIn s a (zeros 8)) 0 (fun o => o == 0x10) ⟨mkFrame a (zeros 8), 0, 0⟩ (zeros 8) (u a (zeros 8)) ∧
    (u a (zeros 8)).homeCheck 0 a (zeros 8) = none ∧ (s.fr 0).haFind 0 0 = none ∧ s.fr 0 = Router.reset ∧
    (s.hbmAtomic (homeReq 0 a) 8 0x10 1 0 .none).2 = .done (zeros 8) :=
  ⟨by decide +kernel, frame_of _ _ _ (by decide +kernel), by decide +kernel, by decide +kernel, by decide +kernel, frame_of _ _ _ (
    by decide +kernel), by decide +kernel, frame_of _ _ _ (by decide +kernel), by decide +kernel, by decide +kernel, by decide +kernel, frame_of _ _ _
    (by decide +kernel), by decide +kernel⟩

/-- A line request of the twin accepted and refused; an eviction; at the holder a copy to invalidate and to forward; the last twin port
leaving. -/
theorem met_Valley :
    let s : State := { memUp with lines := [(128, ⟨true, true, zeros 128⟩)] }
    let h := fun (op : Byte) (len : BitVec 10) => aHdr op 5 128 len 0
    let u := fun (op : Byte) (len : BitVec 10) => openedAt s (h op len) []
    FrameHere (framedIn s (h opCRD 0) []) 0 (fun o => o == opCRD) ⟨mkFrame (h opCRD 0) [], 0, 0⟩ [] (u opCRD 0) ∧
    s.lineCheck (h opCRD 0) [] = none ∧ s.lineCheck (aHdr opCRD 5 64 0 0) [] = some Code.FAB_FORMAT ∧
    FrameHere (framedIn s (h opCEVICT 0) []) 0 (fun o => o == opCEVICT) ⟨mkFrame (h opCEVICT 0) [], 0, 0⟩ [] (u opCEVICT 0) ∧
    FrameHere (framedIn s (h opCINV 0) []) 0 (fun o => o == opCINV) ⟨mkFrame (h opCINV 0) [], 0, 0⟩ [] (u opCINV 0) ∧
    (u opCINV 0).holderCheck (h opCINV 0) = none ∧
    FrameHere (framedIn s (h opCFWD 0) []) 0 (fun o => o == opCFWD) ⟨mkFrame (h opCFWD 0) [], 0, 0⟩ [] (u opCFWD 0) ∧
    (u opCFWD 0).lines.find 128 = some ⟨true, true, zeros 128⟩ ∧
    (s.pageRead (homeReq 0 (h opCRD 0)) 128 128).2 = .done (zeros 128) ∧ s.cowHolds (s.mapAddr 128).1 (s.mapAddr 128).2 9 = false ∧
    (portAt s 18 3).valleyLost = false ∧ (portAt s 18 3).portState 18 = 3 ∧ (portAt s 18 3).portState 0 ≠ 3 :=
  ⟨frame_of _ _ _ (by decide +kernel), by decide +kernel, by decide +kernel, frame_of _ _ _ (by decide +kernel), frame_of _ _ _ (
    by decide +kernel), by decide +kernel, frame_of _ _ _ (by decide +kernel), by decide +kernel⟩

/-! ## Node time -/

theorem pkg_of (s : State) (h : (s.alive && s.settled) = true) : PkgHere s := by
  simp only [Bool.and_eq_true] at h
  exact ⟨h.1, h.2⟩

theorem time_of (s : State) (op : Byte) (x : InFrame) (u : State) (h : (s.alive && s.settled && (s.takeFrame 0 op == some (x, u))
    && (x.frame.crc == jcrc x.frame.hdr x.frame.payload)) = true) : TimeFrame s 0 op x u := by
  simp only [Bool.and_eq_true, beq_iff_eq] at h
  exact ⟨by decide, h.1.1.1, h.1.1.2, h.1.2, h.2⟩

/-- A follower whose parent port 18 is up; a request for the time and its answer; offsets at, above and below the limits of R562, locked and
not; the lock just before and at its timeout; writes of `TM_CTRL` before and in a job. -/
theorem met_TimeTree :
    let s := (portAt State.reset 18 3).setReg (regAt .tm 0 0) 18
    let q := aHdr 0x60 4 0 0 0
    let h := aHdr 0x61 4 0 8 1000
    let v := fun (h : JHdr) (d : List Byte) => (s.setFr 0 { s.fr 0 with inbox := [⟨mkFrame h d, 2000, 18⟩] }).setTm { s.tm with t1 := some 500 }
    let u := fun (h : JHdr) (d : List Byte) => (v h d).setFr 0 { s.fr 0 with inbox := [] }
    let locked := fun (t : Nat) => ({ s.setTm { s.tm with locks := [6] } with time := [(6, t * 2 ^ 32)] } : State)
    let job := s.setRfld (regAt .se 0 0x1000) 0 3 2
    PkgHere s ∧ PkgHere (locked 3999999) ∧ PkgHere (locked 4000000) ∧ PkgHere job ∧
    TimeFrame (v q []) 0 0x60 ⟨mkFrame q [], 2000, 18⟩ (u q []) ∧ TimeFrame (v h (zeros 8)) 0 0x61 ⟨mkFrame h (zeros 8), 2000, 18⟩ (u h (zeros 8)) ∧
    s.isRoot = false ∧ s.parentPort = 18 ∧ s.portUp 18 = true ∧ (u q []).portUp 18 = true ∧ (u h (zeros 8)).tm.t1 = some 500 ∧
    (u h (zeros 8)).tm.seq = 0 ∧ ((locked 3999999).now 6).toNat = 3999999 ∧ ((locked 4000000).now 6).toNat = 4000000 ∧
    (locked 4000000).locked 6 = true ∧ s.locked 6 = false ∧ job.launched = true ∧
    s.launched = false ∧ bit s.tmCtrl 8 ≠ bit (0x112 : Word) 8 ∧ fld s.tmCtrl 0 6 = fld (0x112 : Word) 0 6 ∧ (8000 : Int).natAbs ≤ 8000 ∧
    (4 : Int).natAbs ≤ 4 ∧ s.tm.holds.contains 3 = false :=
  ⟨pkg_of _ (by decide +kernel), pkg_of _ (by decide +kernel), pkg_of _ (by decide +kernel), pkg_of _ (by decide +kernel),
    time_of _ _ _ _ (by decide +kernel), time_of _ _ _ _ (by decide +kernel), by decide +kernel⟩

/-- A following root with all four stamps, a boundary clock, a 1PPS edge two seconds ago, and the strap of an output. -/
theorem met_OutsideTime :
    let s := (State.reset.setReg (regAt .tm 0 0) 0x300).setTm { State.reset.tm with ptpT1 := some 1, ptpT2 := some 2, ptpT3 := some 3 }
    let b := State.reset.setReg (regAt .tm 0 0) 0x400
    let p : State := { (State.reset.setRfld (regAt .clk 0 0) 0 1 1).setTm { State.reset.tm with ppsAt := some 0 } with time := [(6, 8000000000 * 2 ^ 32)] }
    let o := State.setRfld { State.reset with part := { State.reset.part with strapOut := true } } (regAt .clk 0 0x08) 0 40 1
    s.alive = true ∧ s.isRoot = true ∧ bit s.tmCtrl 9 = true ∧ b.alive = true ∧ bit b.tmCtrl 10 = true ∧ (p.alive = true ∧ p.settled = true) ∧
    p.rfld (regAt .clk 0 0) 0 1 = 1 ∧ (0 : Word).toNat + 8000000000 ≤ (p.now 6).toNat ∧ p.part.strapOut = false ∧
    (o.alive = true ∧ o.settled = true) ∧ o.part.strapOut = true ∧ 0 < o.rfld (regAt .clk 0 0x08) 0 40 := by decide +kernel

/-! ## Collectives -/

/-- A group of four members in two chassis groups of two; this package is rank 0; 8 INT32 elements are reduced and gathered. -/
def groupOf (kind fmt elems n m : Nat) : Group :=
  { cfg := [wd (fmt * 256 + kind), 0, 0, wd elems, 0, wd (n * 2 ^ 32 + m), 0x10000, 0, 0x20000, 7, 9, 1, 0]
    id := 0, entry := none, tenant := 0, members := upTo n, rank := 0, started := false, openAt := 0, seen := [], red := [], out := [], cdone := []
    arrive := [], heldW := 0, local_ := none, final := none, code := 0, origin := 0, todo := [], got := [], recPut := [] }

/-- The package with that group open in collective unit 0. -/
def grouped (g : Group) : State := { memUp with cus := [(0, ⟨some g, [], 1⟩)], homeKeys := [(0, 1)] }

/-- A frame refused, one of a group that is not there, and one that reaches its group; segments that are whole, torn and seen before; a group
before and at its limit. -/
theorem met_CollectiveFrames :
    let g := groupOf 0 0xD 8 4 2
    let s := grouped g
    let d := segPayload (zeros 8)
    let h : JHdr := { aHdr 0x50 1 0 24 (wd (9 * 2 ^ 32)) with spkg := 1 }
    let u := openedAt s h d
    let lim := s.setRfld (cuReg 0 0x08) 0 40 1
    FrameHere (framedIn s h d) 0 (fun o => o == 0x50) ⟨mkFrame h d, 0, 0⟩ d u ∧ u.cuCheck h d = none ∧ u.cuOf (fld h.arg 32 32) = some 0 ∧
    u.cuOf (fld (0 : Word) 32 32) = none ∧ u.cuCheck { h with tc := 0 } d = some Code.FAB_FORMAT ∧
    (u.answerReq 0 h opRESP 0 []).openGroup 0 = some g ∧ g.rankOf h.spkg.toNat = some 1 ∧ 16 ≤ d.length ∧
    trailer (d.take (d.length - 16)) = d.drop (d.length - 16) ∧ trailer ((1 :: zeros 23).take 8) ≠ (zeros 24).drop 8 ∧
    g.got_ 1 h = false ∧ u.tagCheck 9 h.tenant h.daddr.toNat (u.mapAddr h.daddr.toNat).1 = none ∧ (u.cuTake 0 0 g 1 ⟨mkFrame h d, 0, 0⟩ d).2 = false ∧
    g.chunkDone = false ∧ lim.openGroup 0 = some g ∧ (lim.now 6).toNat = 0 ∧
    lim.rfld (cuReg 0 0x08) 0 40 = 1 ∧ ({ lim with time := [(6, 2 ^ 32)] } : State).now 6 = 1 :=
  ⟨frame_of _ _ _ (by decide +kernel), by decide +kernel⟩

/-- A group whose output is missing, one that has not started, one that is LOCAL and lacks, then has every `CDONE`. -/
theorem met_CollectiveEnds :
    let g := groupOf 0 0xD 8 4 2
    let l := { g with local_ := some 5 }
    (grouped g).openGroup 0 = some g ∧ (∃ x ∈ g.needs, x ∉ g.out) ∧ g.started = false ∧ (grouped l).openGroup 0 = some l ∧
    (∃ r < l.n, r ≠ l.rank ∧ r ∉ l.cdone) ∧ (∀ r < l.n, r = l.rank ∨ r ∈ ({ l with cdone := [1, 2, 3] } : Group).cdone) ∧ g.entry = none ∧
    slowest [(0, 3), (1, 5), (2, 5)] = some (1, 5, 3) := by decide +kernel

/-- The group of the example; two runs of one element; a chunk at its owner and one to pass on. -/
theorem met_ReductionOrder :
    let g := groupOf 0 0xD 8 4 2
    0 < g.m ∧ g.m ∣ g.n ∧ 0 < g.n ∧ g.groups = 2 ∧ (zeros 4).length = cuWidth 0xD * 1 ∧ (grouped g).openGroup 0 = some g ∧ 0 = g.chassis ∧
    1 ≠ g.chassis ∧ ((grouped g).cuFetch 0 g 0x10000 16).2 = .done (zeros 16) ∧ (zeros (8 * 58)).length = 8 * 58 := by decide +kernel

/-- R582: the trailer of the words 5, 0xFFFFFFFFFFFFFFFF and 7 holds their residues 2, 0 and 1 from the lowest two bits up. -/
theorem test_trailer : trailer (leBytes 8 5 ++ leBytes 8 (2 ^ 64 - 1) ++ leBytes 8 7) = leBytes 16 (2 + 0 * 4 + 1 * 16) := by decide +kernel

/-! ## Jobs and snapshots -/

/-- A `JSTART` of job 7 by package 5: two packages, 5 and 0, with a first command list at 4096 and its record at 8192. -/
def startBytes (tl ta : Nat) : List Byte :=
  leBytes 4 7 ++ [0, 0] ++ leBytes 2 2 ++ leBytes 4 2 ++ leBytes 2 0 ++ leBytes 2 5 ++ leBytes 8 tl ++ leBytes 8 ta ++ leBytes 8 0
    ++ leBytes 8 4096 ++ leBytes 8 8192 ++ zeros 8 ++ sha512 [5, 0, 0, 0]

/-- A start under way at the root with one child, package 9. -/
def rootRun : JobRun :=
  ⟨7, 0, 0, 2, 2, 0, 0, 0, 80000, 4096, 8192, zeros 64, [0, 9], 0, none, 0, 0, [], false, [], 0, false, none⟩

/-- The package with a start. -/
def starting (r : JobRun) (t : Nat) : State := { memUp with job := { JobState.reset with start := some r }, time := [(4, t * 2 ^ 32)] }

theorem job_of (s : State) (h : JHdr) (d : List Byte) (op : Byte) (len : Nat) (ok : (s.alive && !h.sealed && (d.length == payloadLen h)) = true)
    (g : (h.op == op && jobFormatOk h d len) = true) : JobMsg (framedIn s h d) 0 op len ⟨mkFrame h d, 0, 0⟩ d (openedAt s h d) := by
  simp only [Bool.and_eq_true, beq_iff_eq] at g
  obtain ⟨rfl, g⟩ := g
  exact ⟨frame_of s h d ok, g⟩

/-- A start that is new, repeated, late and accepted; an answer of a child; the deadline one tick before and at its time; a member whose
children have, and have not, all answered. -/
theorem met_JobStarts :
    let d := startBytes 10000000 80000
    let h := aHdr 0x74 7 0 128 0
    let s : State := memUp
    let again : State := { s with job := { s.job with handled := [(7, 0)] } }
    let late : State := { s with time := [(4, 2 ^ 32)] }
    let r := rootRun
    let ack := jackBytes 7 0 0 1 0
    let m : JobRun := { r with parent := some 5, index := 0 }
    let kid := aHdr 0x75 7 0 16 0
    (JobMsg (framedIn s h d) 0 0x74 128 ⟨mkFrame h d, 0, 0⟩ d (openedAt s h d) ∧
      JobMsg (framedIn (starting r 0) kid ack) 0 0x75 16 ⟨mkFrame kid ack, 0, 0⟩ ack (openedAt (starting r 0) kid ack) ∧
      PkgHere (starting { r with ta := 80001 } 0)) ∧
    (starting r 0).job.start = some r ∧ (openedAt again h d).job.handled.contains (jsJob d, jsAttempt d) = true ∧
    (openedAt s h d).job.handled.contains (jsJob d, jsAttempt d) = false ∧ late.jobEarly d = some Code.JOB_LATE ∧
    s.jobEarly d = none ∧ s.jobRefusal d [5, 0, 0, 0] (some 5) = none ∧
    ((s.setTm { s.tm with locks := [4] }).jobArm d [5, 0, 0, 0] (some 5) 0 none).2 = 0 ∧
    s.jobRefusal d [5, 0, 1, 0] (some 5) = some Code.JOB_MANIFEST ∧ r.kids.find? (fun k => nth r.manifest 0 k == 9) = some 1 ∧
    ((starting r 0).now 4).toNat + (r.depth + 1) * 80000 = r.ta.toNat ∧ m.parent = some 5 ∧ (∃ k ∈ m.kids, ∀ a ∈ m.acks, a.1 ≠ k) ∧
    (∀ k ∈ m.kids, ∃ a ∈ ({ m with acks := [(1, 0, 1, 0)] } : JobRun).acks, a.1 = k) ∧ ({ r with n := 1 } : JobRun).kids = [] ∧ r.ownCode = 0 :=
  ⟨⟨job_of _ _ _ _ _ (by decide +kernel) (by decide +kernel), job_of _ _ _ _ _ (by decide +kernel) (by decide +kernel),
    pkg_of _ (by decide +kernel)⟩, by rfl, by decide +kernel⟩

/-- The root at `TA` with every member counted, with one silent and its list still armed; a cancel of another start, of this one in time and
too late; a `JMREAD` granted and refused; a teardown at rest. -/
theorem met_JobEnds :
    let r := rootRun
    let ok : JobRun := { r with acks := [(1, 0, 1, 0)] }
    let armed : State := (starting r 80000).setDsp 0 ⟨[⟨0, 4096, 10000000, 8192, 0, .job, 0, 0, .waiting, [], 0, [], [], 0, 0, [], 0, none⟩], 1⟩
    let armed : State := { armed with lamps := [(4, ⟨[⟨10000000, ⟨0, 0, 0⟩, .list 0 0, true⟩]⟩)] }
    let h := aHdr 0x76 7 0 8 0
    let d := leBytes 4 7 ++ zeros 4
    let j : JHdr := { aHdr 0x77 7 0 8 (7) with spkg := 9 }
    let s := State.setRfld memUp (regAt .se 0 0x1000) 0 3 3
    let t : State := { s with job := { s.job with tearStep := 3 } }
    (PkgHere (starting ok 80000) ∧ PkgHere armed ∧ PkgHere t ∧ JobMsg (framedIn armed h d) 0 0x76 8 ⟨mkFrame h d, 0, 0⟩ d (openedAt armed h d) ∧
      FrameHere (framedIn (starting r 0) j []) 0 (fun o => o == 0x77) ⟨mkFrame j [], 0, 0⟩ [] (openedAt (starting r 0) j [])) ∧
    ((starting ok 80000).job.start = some ok ∧ ok.parent = none ∧ ok.decided = false) ∧ ok.ta.toNat = 80000 ∧
    ((starting ok 80000).now 4).toNat = 80000 ∧ ok.sum.2.1 = ok.n ∧ ok.sum.1 = 0 ∧ r.sum.2.1 ≠ r.n ∧ armed.cancelStart.2 = 0 ∧
    r.others ≠ [] ∧ (starting r 80000).cancelStart.2 ≠ 0 ∧ (r.job, r.attempt) = (jsJob d, jsAttempt d) ∧
    (starting r 0).jmreadOk j = true ∧ (starting r 0).jmreadOk { j with arg := 8 } = false ∧
    ((starting r 0).localRead ⟨12, 5, 0, false, 6⟩ 0 8).2 = some (.done (zeros 8)) ∧
    t.jobState = 3 ∧ t.job.tearStep = 3 ∧ t.atRest = true :=
  ⟨⟨pkg_of _ (by decide +kernel), pkg_of _ (by decide +kernel), pkg_of _ (by decide +kernel),
    job_of _ _ _ _ _ (by decide +kernel) (by decide +kernel), frame_of _ _ _ (by decide +kernel)⟩, ⟨by rfl, by rfl, by rfl⟩, by decide +kernel⟩

/-- A TAKE at its cut and before, with copying done; `WANT` due; each refusal; the outcome of the second commit record. -/
theorem met_Snapshots :
    let t : SnapDecl := ⟨false, false, 2 ^ 30, 2 ^ 20, 1000, 1, 7, false, 0, [(0, 4096)], 5⟩
    let r : SnapRun := ⟨true, none, t, 40000, 3, 0, .copy, zeros 64, zeros 64, 0, [], 0, 0, 0, 0⟩
    let q : SnapRun := { r with take := false, phase := .read1 }
    let c := leBytes 8 1 ++ leBytes 4 7 ++ leBytes 4 1 ++ leBytes 8 3 ++ zeros 24 ++ leBytes 8 5 ++ zeros 8
    let s := fun (r : Option SnapRun) (d : Option SnapDecl) (at_ : Nat) =>
      ({ portAt memUp 0 3 with job := { JobState.reset with decl := d, snap := r, lastCut := some 0 }, time := [(0, at_ * 2 ^ 32)] } : State)
    let done : SnapRun := { r with cuts := [0, 1, 2, 3] }
    PkgHere (s (some r) (some t) 40000) ∧ (∃ x, x ∈ t.regions ∧ 0 < x.2.toNat / 4096) ∧
    ((s none none 40000).now 0).toNat = 40000 ∧ ((s none none 39999).now 0).toNat = 39999 ∧
    (s (some done) (some t) 0).copyDone done = true ∧ (s (some r) (some t) 0).copyDone r = false ∧ t.period ≠ 0 ∧
    (0 : Word).toNat + t.period.toNat < ((s none (some t) 1001).now 0).toNat ∧ (s none (some t) 0).takeRefusal 40000 = none ∧
    (s none (some t) 0).takeRefusal 39999 = some Code.SE_LATE ∧ (s none (some t) 0).beyondChassis = false ∧
    q.qualifies (zeros 64) = false ∧ q.qualifies c = true ∧ q.phase = .read1 ∧ r.slot < 4 ∧ ((s none none 0).mcs.all (fun m => m.2.held == [])) = true :=
  ⟨pkg_of _ (by decide +kernel), ⟨(0, 4096), by decide +kernel⟩, by decide +kernel⟩

/-! ## Sessions, hosts and security -/

/-- Host port 0 up, with one session of a role. -/
def hosted (x : Session) : State :=
  (State.setRfld memUp (regAt .he 0 0) 0 2 2).setHe 0 ⟨[x], [], [], 2, [], none⟩

/-- A new session 1. -/
def sess (r : Role) : Session := Session.fresh 1 r (zeros 64) 0

/-- A datagram of session 1 with message 1 and counter 1. -/
def gram : BHdr := ⟨0, 1, 1, 0, 1, true, true⟩

/-- A message in order that is answered, one that is relayed; one of a broken datagram, one that comes again; an acknowledgement; counters in, above
and below a window. -/
theorem met_HostMessages :
    let x := sess .operator
    let s := hosted x
    let y := received s gram .nonce x [1]
    NextMessage s gram x [1] ∧ PkgHere s ∧ (acting s gram .nonce x [1]).bwAct 0 y 1 .nonce = (acting s gram .nonce x [1], .answer 0 (zeros 64)) ∧
    ((acting s gram (.reset 5) x [1]).bwAct 0 y 1 (.reset 5)).2 = .later ∧ ({ gram with tagOk := false } : BHdr).tagOk = false ∧
    (hosted { x with seen := [1] }).session 0 1 = some { x with seen := [1] } ∧ nctrWindow [1] 1 = none ∧
    Datagram s { gram with seq := 0 } x [1] ∧ (1 : Nat) ∉ ([] : List Nat) ∧ ([] : List Nat).length < 4096 :=
  ⟨⟨⟨by decide, by decide +kernel, by decide +kernel, by rfl, by rfl, by decide, by decide, by decide +kernel, by decide⟩, by decide, by
    decide, ⟨by rfl, by rfl, by rfl, by rfl, by rfl, by rfl⟩⟩, ⟨by decide +kernel, by decide +kernel⟩, by decide +kernel, by decide +kernel,
    by rfl, by decide +kernel, by decide, ⟨by decide, by decide +kernel, by decide +kernel, by rfl, by rfl, by decide, by decide,
    by decide +kernel, by decide⟩, by decide +kernel⟩

/-- Outside boot mode a quiet package and one in a tenant job; a write and a read of the last 8 bytes of a 4 KiB page; in boot mode a write up to
the end of the buffer, and an image that is too short to be signed (whether a signature is right is open, log 47). -/
theorem met_HostRights :
    let x := sess .operator
    let s := hosted x
    let b : State := { s with power := { s.power with phase := 3, netBy := some 0 } }
    let t : State := { State.setRfld s (regAt .se 0 0x1000) 0 3 2 with job := { s.job with localTag := 5 } }
    s.netBoot = false ∧ x.role = .operator ∧ s.canAnswer 0 x = true ∧ s.mayLaunch .operator = true ∧ t.mayLaunch .operator = false ∧
    t.mayLaunch (.tenant 5) = true ∧ s.bwRange 0 4088 8 = some 4088 ∧ s.rangeIn 4088 8 = .hbm 4088 ∧
    (s.put (hostReq 0 .operator) (fun _ _ => .host 0 1 1) (putPieces [(4088, zeros 8)]) 0 0).2.rest = [] ∧
    (s.fetch (hostReq 0 .operator) [] 4088 8).2.2 = .done (zeros 8) ∧
    (addrPkg (8 : Word) = 0 ∧ (8 : Word).toNat % 8 = 0 ∧ (4 : Word).toNat % 8 ≠ 0) ∧ b.netBoot = true ∧ 1024 ≤ b.bwMax 0 ∧
    (2 ^ 24 - 1024) + (zeros 1024).length ≤ 2 ^ 24 ∧ b.imageCode [] = Code.SEC_IMAGE_SIG ∧ Code.SEC_IMAGE_SIG ≠ 0 := by decide +kernel

/-- A measurement register; four keys held; a key package under no key; a package not at rest and one that is IDLE and quiet, with a token of the
wrong length. Whether a key package or a token is accepted rests on the open signatures (log 47). -/
theorem met_Security :
    let s := memUp
    let busy := State.setRfld s (regAt .se 0 0x1000) 0 3 2
    s.alive = true ∧ s.sec.mr[3]? = some (zeros 64) ∧ s.sec.kx.length ≤ 4 ∧ s.keypkgCode none [] = Code.SEC_KX_EXPIRED ∧ busy.jobState ≠ 0 ∧
    s.jobState = 0 ∧ s.quiet = true ∧ s.tokenOk [] = false := by decide +kernel

theorem hello_of (s : State) (h : BHdr) (ok : (decide (h.port < 2) && s.alive && s.settled && s.hostUp h.port && decide (3 < s.power.phase) &&
    !s.netBoot && h.fits && h.session == 0 && h.seq == 0 && h.nctr == 0) = true) : HelloIn s h := by
  simp only [Bool.and_eq_true, decide_eq_true_eq, beq_iff_eq, Bool.not_eq_true'] at ok
  obtain ⟨⟨⟨⟨⟨⟨⟨⟨⟨a, b⟩, c⟩, d⟩, e⟩, f⟩, g⟩, i⟩, j⟩, k⟩ := ok
  exact ⟨a, b, c, d, e, f, g, i, j, k⟩

theorem sess_of (s : State) (f id : Nat) (x : Session) (ok : (decide (f < 2) && s.alive && s.settled && (s.session f id == some x)) = true) :
    SessHere s f id x := by
  simp only [Bool.and_eq_true, decide_eq_true_eq, beq_iff_eq] at ok
  exact ⟨ok.1.1.1, ok.1.1.2, ok.1.2, ok.2⟩

/-- A `HELLO` that no role is granted to, with 15 and with 16 sessions; a session with a message unacknowledged just before and at its `RTO`, with 7
and with 8 resends, an `ACK` due, the idle limit; an announcement due and early. -/
theorem met_Sessions :
    let x := sess .operator
    let s := fun (l : List Session) (t : Nat) => ({ (hosted x).setHe 0 ⟨l, [], [], 2, [], some 0⟩ with
      time := [(6, t * 2 ^ 32)], power := { State.reset.power with phase := 7 } } : State)
    let h : BHdr := ⟨0, 0, 0, 0, 0, true, true⟩
    let m := HostOut.ack 1 0
    let late : Session := { x with unack := [(1, 0, m)], resent := 7, ackDue := some 0 }
    HelloIn (s [] 0) h ∧ HelloIn (s (List.replicate 16 x) 0) h ∧ SessHere (s [late] 0) 0 1 late ∧ PkgHere (s [x] 0) ∧
    (s [] 0).helloRole [] = none ∧ ((s (List.replicate 15 x) 0).he 0).sessions.length < 16 ∧
    16 ≤ ((s (List.replicate 16 x) 0).he 0).sessions.length ∧ max 1 ((s [late] 0).rfld (regAt .he 0 0x08) 32 16) * 4000 = 4000000 ∧
    ((s [late] 3999999).now 6).toNat = 3999999 ∧ ((s [late] 4000000).now 6).toNat = 4000000 ∧ late.resent < 8 ∧
    ((s [late] 40000000000).now 6).toNat = 40000000000 ∧ late.ackDue.isSome = true ∧ late.txCtr < 0xFFFFFFFF ∧
    (s [x] 0).hostUp 0 = true ∧ (s [x] 0).operatorHere = true ∧ (s [] 0).operatorHere = false ∧ (s [] 0).hostPaused 0 = false :=
  ⟨hello_of _ _ (by decide +kernel), hello_of _ _ (by decide +kernel), sess_of _ _ _ _ (by decide +kernel), pkg_of _ (by decide +kernel),
    by decide +kernel⟩

/-- A pause that ends; an own address; a management request with the key of a manager, and with another; an answer that waits and none; registers
outside, and inside, what R666 keeps from an operator in a tenant job. -/
theorem met_Management :
    let x := sess .operator
    let s := (hosted x).setHe 0 ⟨[x], [], [.ack 1 0], 2, [(hosted x).rfld (regAt .he 0 0x08) 29 3], none⟩
    let a : State := State.setRfld { hosted x with power := { State.reset.power with phase := 7 } } (regAt .he 0 0x18) 0 32 5
    let k := ((hosted x).setReg (regAt .he 0 0x30) 0x8009).setReg (regAt .he 0 0x38) 77
    let h : JHdr := { aHdr 0x72 7 0 0 77 with spkg := 9 }
    let w : State := { k with power := { k.power with after := some (false, mkFrame h []) } }
    let q : State := w.setFr 0 { w.fr 0 with buf := [⟨mkFrame h [], 0, 0⟩] }
    let t : State := { State.setRfld (hosted x) (regAt .se 0 0x1000) 0 3 2 with job := { JobState.reset with localTag := 5 } }
    PkgHere s ∧ MgmtIn (framedIn k h []) 0 0x72 false 0 ⟨mkFrame h [], 0, 0⟩ [] (openedAt k h []) ∧ (s.he 0).paused = [s.rfld (regAt .he 0 0x08) 29 3] ∧ s.hostPaused 0 = true ∧ s.hostUp 0 = true ∧ (hosted x).hostPaused 0 = false ∧
    a.ownV4 0 5 = true ∧ a.ownV4 0 6 = false ∧
    (openedAt k h []).keyed 0 h = true ∧
    (openedAt k h []).keyed 0 { h with arg := 76 } = false ∧ w.answerWaits (mkFrame h []) = false ∧ q.answerWaits (mkFrame h []) = true ∧
    (hosted x).region 0x0002000000000000 ≠ .unmapped ∧ (0x0002000000000000 : Nat) % 8 = 0 ∧ t.tenantJob = true ∧ tenantBlocked .sec 0 false = true ∧
    (hosted x).tenantJob = false ∧ tenantBlocked .mc 0 true = false :=
  ⟨pkg_of _ (by decide +kernel), ⟨frame_of _ _ _ (by decide +kernel), by decide +kernel⟩, by decide +kernel⟩

/-! ## Errors, debug, registers -/

/-- A record. -/
def aRec : Rec := ⟨Code.MC_CE, 1, 0, 0, uMc, 0, 0, 0, 0, 0, 0, 0, 0, 0, 0, 0, false⟩

/-- A die with 15 and with 16 records held, and with a ring; a ring of 64 records switched on at an aligned place and at another; a budget; a
warning class one below its threshold. -/
theorem met_ErrorRecords :
    let s := memUp
    let full := fun (n : Nat) => ({ s with err := { s.err with held := [(0, List.replicate n aRec)] } } : State)
    let ring := (s.setReg (ringReg 0 0) 1).setRfld (ringReg 0 0x08) 0 5 6
    let off := s.setRfld (ringReg 0 0x08) 0 5 6
    let b := s.setRfld (budgetReg 0 0) 0 32 100
    let w := State.setRfld s (regAt .dbg 0 0x08) 0 8 1
    PkgHere s ∧ bit (s.reg (ringReg 0 0)) 0 = false ∧ ((full 15).err.held.get [] 0).length < 16 ∧ 16 ≤ ((full 16).err.held.get [] 0).length ∧
    bit (ring.reg (ringReg 0 0)) 0 = true ∧ (ring.put (ringReq 0) (fun _ _ => .none) (ring.ringPieces 0 1 aRec) 0 0).2 = ⟨[], 0, 64, none⟩ ∧
    fld (0x1001 : Word) 6 44 * 64 % (2 ^ off.rfld (ringReg 0 0x08) 0 5 * 64) = 0 ∧ fld (0x1041 : Word) 6 44 * 64 % (2 ^ off.rfld (ringReg 0 0x08) 0 5 * 64) ≠ 0 ∧
    bit (0x1001 : Word) 0 = true ∧ b.rfld (budgetReg 0 0) 0 32 ≠ 0xFFFFFFFF ∧ b.budgetOf 0 0 < 2 ^ 31 ∧ countOf w.err.warns (0, 0) + 1 = w.warnTh 0 :=
  ⟨pkg_of _ (by decide +kernel), by decide +kernel⟩

/-- A test of an idle cluster, of a running one, of a port that is up, one that runs, and one with three hits; a spare on the die and none; a job
mapping at rest. -/
theorem met_SelfTests :
    let t : Test := ⟨uCluster, 0, 1, 0, 0, false⟩
    let p : Test := ⟨uPort, 5, 1, 0, 6, false⟩
    let s := fun (t : Test) (h : Nat) => ({ portAt memUp 5 3 with err := { Err.reset with
      tests := [t], hits := List.replicate h ((t.unit, t.index, t.array, t.addr), 0) } } : State)
    let on : Test := { t with running := true }
    PkgHere (s t 0) ∧ PkgHere (s p 0) ∧ (s t 0).err.tests[0]? = some t ∧ (s t 0).mayTest t = true ∧ t.unit ≠ uPort ∧
    (({ s t 0 with clusters := [(0, { Cluster.reset with st := .running })] } : State).mayTest t = false) ∧
    (s p 0).mayTest p = true ∧ (s p 0).portUp p.index = true ∧ (s on 3).threeHits on = true ∧ (s on 2).threeHits on = false ∧
    (s t 0).mapBit t.unit t.index = some 0 ∧ spareFor (BitVec.ofNat 1024 2) 0 208 0 = some 1 ∧ spareFor 0 0 208 0 = none ∧ memUp.jobState = 0 ∧
    memUp.atRest = true ∧ memUp.err.retired = 0 :=
  ⟨pkg_of _ (by decide +kernel), pkg_of _ (by decide +kernel), by decide +kernel⟩

theorem tap_of (s : State) (h : (s.power.powered && !s.power.pinReset && s.settled) = true) : TapHere s := by
  simp only [Bool.and_eq_true, Bool.not_eq_true'] at h
  exact ⟨h.1.1, h.1.2, h.2⟩

theorem halt_of (s : State) (c : Nat) (h : (decide (c < s.part.sc ∧ c < 128) && s.alive && s.settled && s.haltOk) = true) : HaltHere s c := by
  simp only [Bool.and_eq_true, decide_eq_true_eq] at h
  exact ⟨h.1.1.1, h.1.1.2, h.1.2, h.2⟩

/-- A locked package and one unlocked with every scope; the bridge at HBM and at a register; a core told to halt and one that has halted. -/
theorem met_Jtag :
    let u := State.setReg memUp secStatus (wd (1 + 7 * 2 ^ 16))
    let r : State := { u with jtag := { u.jtag with addr := wd (0x0002000000000000 + regAt .mc 0 0) } }
    let l : State := { memUp with jtag := r.jtag }
    let h := u.modSc 0 (fun x => { x with halted := true })
    TapHere memUp ∧ TapHere u ∧ HaltHere u 0 ∧ HaltHere h 0 ∧ PkgHere memUp ∧ memUp.unlocked = false ∧ u.unlocked = true ∧ u.scope 0 = true ∧ u.scope 1 = true ∧ u.region 0 = .hbm 0 ∧
    u.tagCheck 13 0 0 (u.mapAddr 0).1 = none ∧ (u.bridgeAccess false 0 (padTo 64 [])).2 = .done (zeros 64) ∧
    r.region (addrLocal r.jtag.addr / 8 * 8) = .reg .mc 0 0 ∧ r.bridgeMay .mc 0 = true ∧ l.bridgeMay .mc 0 = false ∧
    (h.sc 0).halted = true ∧ h.dbgSel.1 = 0 ∧ memUp.haltOk = false :=
  ⟨tap_of _ (by decide +kernel), tap_of _ (by decide +kernel), halt_of _ _ (by decide +kernel), halt_of _ _ (by decide +kernel),
    pkg_of _ (by decide +kernel), by decide +kernel⟩

/-- A register with bits that a read clears, one without, one of a stack that this grade lacks; a typed write; wick memory free and in use. -/
theorem met_Registers :
    let s := memUp
    let c : State := { s with part := { s.part with grade := 3 } }
    let busy := s.setCl 0 { s.cl 0 with eeQ := [⟨0, 0, [], 0⟩] }
    PkgHere s ∧ s.region 0x0002000000000030 = .reg .sys 0 0x30 ∧ (regDef .sys 0 0x30).rc = 0 ∧ s.absent .sys 0 = false ∧ c.absent .mc 12 = true ∧
    c.absent .mc 11 = false ∧ (0x7F8 : Nat) % 8 = 0 ∧ 0x7F8 < 0x800 ∧ (s.cl 0).eeBusy = false ∧ busy.alive = true ∧ (busy.cl 0).eeBusy = true :=
  ⟨pkg_of _ (by decide +kernel), by decide +kernel⟩

/-! ## Power and start -/

/-- The package right after reset, and one that is off. -/
theorem met_Resets :
    State.reset.power.powered = true ∧ State.reset.power.shutdown = false ∧ PkgHere State.reset ∧
    ({ State.reset with power := { State.reset.power with powered := false } } : State).power.powered = false ∧ 0 < State.reset.part.sc :=
  ⟨by rfl, by rfl, pkg_of _ (by decide +kernel), by decide +kernel⟩

/-- Writes of `PWR_DOMAIN` that switch a quadrant off, that name a reserved bit and that would switch off a running cluster; a domain that is not
yet, and that is, on; a link half of FD1 with a port. -/
theorem met_PowerDomains :
    let s := State.reset
    let old := s.reg (regAt .pwr 0 0x10)
    let off := old &&& ~~~ (1 : Word)
    let run := s.setCl 0 { s.cl 0 with st := .running }
    let t := fun (n : Nat) => ({ s with power := { s.power with turningOn := [(43, 80000)] }, time := [(4, n * 2 ^ 32)] } : State)
    PkgHere s ∧ (bit old 0 = true ∧ bit off 0 = false) ∧ ¬ domainRefused s off 0 ∧ domainRefused s off 43 ∧ domainRefused run off 0 ∧
    0 < s.part.clusters ∧ s.part.physCl 0 / 52 = 0 ∧ s.part.physCl 799 / 52 = 15 ∧ PkgHere (t 79999) ∧
    (t 0).power.turningOn.find? (fun x => x.1 == 43) = some (43, 80000) ∧ ((t 79999).now 4).toNat = 79999 ∧ ((t 80000).now 4).toNat = 80000 := by
  refine ⟨pkg_of _ (by decide +kernel), ⟨by decide +kernel, by decide +kernel⟩, ?_, .inr (.inr (by decide)), ?_, by decide +kernel,
    by decide +kernel, by decide +kernel, pkg_of _ (by decide +kernel), by decide +kernel⟩
  · rintro (h | h | h | ⟨_, h⟩)
    · omega
    · omega
    · omega
    · rcases h with ⟨_, n, _, _, h⟩ | h | h | h
      · revert h; simp [State.cl, State.reset, Tab.get, Cluster.reset]
      · omega
      · omega
      · omega
  · exact .inr (.inr (.inr ⟨by decide +kernel, .inl ⟨by decide, 0, by decide +kernel, by decide +kernel, .inl (by decide +kernel)⟩⟩))

/-- Readings at the bounds of the levels (100, 101, 115 and 116 °C), a die at its ceiling and one at the lowest level; readings of current; a
failed regulator before and after Ready. -/
theorem met_FrequencyLevels :
    let s := State.reset
    let low := State.setRfld s (regAt .pwr 0 0x30) 0 4 12
    let up := State.setRfld s (regAt .pwr 0 0x30) 0 4 3
    let ready : State := { s with power := { s.power with phase := 7 } }
    let r : PmbusReadings := ⟨[0, 0, 0, 0], 0, []⟩
    PkgHere s ∧ PkgHere low ∧ ¬ holdsDown s 0 96 ∧ holdsDown s 0 101 ∧ low.level 0 = 12 ∧ s.ceilOf 0 ≤ s.level 0 ∧ up.level 0 = 3 ∧
    0 ∉ s.power.stuckLow ∧ s.power.hotTj = [] ∧ r.bad = [] ∧ ({ r with bad := [0x40] } : PmbusReadings).bad = [0x40 + 0] ∧ ready.power.phase = 7 ∧
    PkgHere ready ∧ (let o : State := { s with power := { s.power with phase := 1 } }; 0 < o.power.phase ∧ o.power.phase < 7) := by
  refine ⟨pkg_of _ (by decide +kernel), pkg_of _ (by decide +kernel), ?_, .inl (by decide), by decide +kernel, by decide +kernel,
    by decide +kernel, by decide, by rfl, by rfl, by rfl, by rfl, pkg_of _ (by decide +kernel), by decide⟩
  rintro (h | ⟨_, h⟩ | ⟨_, h | h | ⟨i, hi, h⟩⟩)
  · omega
  · cases h
  · exact absurd h (by decide)
  · cases h
  · have : State.reset.part.stPerAd = 4 := by rfl
    have : i < 4 := by omega
    revert h; revert i; decide +kernel

/-- Each phase of a start; a back-off, a network boot and a phase 5 whose time is, and is not, over. Whether an image is good rests on the open
signature (log 47). -/
theorem met_StartAttempts :
    let s := fun (n : Nat) (t : Nat) => ({ State.reset with
      power := { State.reset.power with phase := n, netBy := some 5, phase5By := some 5, backoff := some (0, 5) }, time := [(5, t * 2 ^ 32), (4, t * 2 ^ 32)] } : State)
    let p := fun (n : Nat) => ({ State.reset with power := { State.reset.power with phase := n } } : State)
    let r : BootResult := ⟨[], [], [], [], []⟩
    (∀ n ∈ [0, 1, 2, 3, 4, 5, 6], (p n).alive = true ∧ (p n).settled = true) ∧ (p 0).power.backoff = none ∧ (p 3).power.netBy = none ∧
    ((s 0 4).alive = true ∧ (s 0 4).settled = true) ∧ ((s 0 4).now (s 0 4).bootDie).toNat = 4 ∧ ((s 0 5).now (s 0 5).bootDie).toNat = 5 ∧
    (s 3 5).power.netBy = some 5 ∧ (s 4 5).power.phase5By = some 5 ∧ r.badRegs = [] ∧ ({ r with badStacks := [0] } : BootResult).badStacks ≠ [] :=
    by decide +kernel

/-! ## Ill-formed commands: one for each check of WellFormed.lean -/

theorem test_wf_cluster : Instr.wf (.ccAdd 832) = false ∧ Instr.wf (.ccAdd 831) = true := by decide
theorem test_wf_token_counter : Instr.wf (.mark 0 5) = false ∧ Instr.wf (.mark 0 4) = true := by decide
theorem test_wf_bank : Instr.wf (.meDecision 0 2) = false := by decide
theorem test_wf_dispatcher : Instr.wf (.cmdEnd 2 0) = false := by decide
theorem test_wf_die : Instr.wf (.llFire 8) = false := by decide
theorem test_wf_creator : Instr.wf (.llCancel 0 ⟨4, 0, 0⟩) = false := by decide
theorem test_wf_core : Instr.wf (.addR 96) = false ∧ Instr.wf (.addR 95) = true := by decide
theorem test_wf_engine : Instr.wf (.lseStop 8) = false := by decide
theorem test_wf_stack : Instr.wf (.refresh 16) = false := by decide
theorem test_wf_unit_range : Instr.wf (.hbmAccess ⟨0, 0, 0, 60, false, 8, [], false, 0, 0⟩) = false ∧
    Instr.wf (.hbmAccess ⟨0, 0, 0, 56, false, 8, [], false, 0, 0⟩) = true := by decide
theorem test_wf_write_length : Instr.wf (.hbmAccess ⟨0, 0, 0, 0, true, 8, [1], false, 0, 0⟩) = false := by decide
theorem test_wf_partition : Instr.wf (.mcPartWrite 0 16 0) = false := by decide
theorem test_wf_port : Instr.wf (.laneFail 36) = false := by decide
theorem test_wf_fabric_die : Instr.wf (.jonathRead 2) = false := by decide
theorem test_wf_request_number : Instr.wf (.resendTimeout (2 ^ 24)) = false := by decide
theorem test_wf_replay_entry : Instr.wf (.haEntryExpiry 0 (2 ^ 14) 0) = false := by decide
theorem test_wf_datagram : Instr.wf (.attestNonce ⟨2, 0, 0, 0, 0, true, true⟩) = false ∧
    Instr.wf (.attestNonce ⟨0, 0, 0, 0, 2 ^ 32, true, true⟩) = false := by decide
theorem test_wf_list_target : Instr.wf (.launchList ⟨0, 0, 0, 0, 0, true, true⟩ 256 0 0 0 0) = false := by decide
theorem test_wf_priority : Instr.wf (.pfcPause 0 8 true) = false := by decide
theorem test_wf_domain : Instr.wf (.domainOnComplete 44) = false := by decide
theorem test_wf_regulator : Instr.wf (.pmbAlert 4) = false := by decide
theorem test_wf_clock : Instr.wf (.refclkLost 2) = false := by decide

/-! ## Worked examples of the spec -/

/-- Chapter 10, 'two addresses on AD2': `HOME_GIB` 4 on AD2, logical stacks, offsets, pseudo-channels. -/
theorem test_address_map :
    let s := State.setRfld State.reset (regAt .mc 8 0x08) 0 5 4
    s.mapAddr 0x3000013040 = (11, 0x4040) ∧ pseudoChannel 0x4040 = 2 ∧ s.mapAddr 0x4500002000 = (9, 0x500002000) ∧
    pseudoChannel 0x500002000 = 1 := by decide +kernel

/-- Chapter 03, 'guard bits': 1, then 2⁻³¹ + 2⁻⁴⁰, stays 1. -/
theorem test_guard_bits :
    let one := (accfAdd false 0 (.fin false 1 0)).acc
    (accfAdd false one ((Val.fin false 1 (-31)).add (.fin false 1 (-40)))).acc = one := by decide +kernel

/-- Chapter 03, 'the folded order': one partial gives 1, two partials give 1 + 2⁻³⁰. -/
theorem test_folded_order :
    let g : List Val := [.fin false 1 0, .fin false 1 (-31), .fin false 1 (-31), .fin false 1 (-31)]
    let p := addSums false false false false ⟨0, 0, false, false⟩ g
    let q := addSums false false true false ⟨0, 0, false, false⟩ g
    narrowFloat f64 (accVal false p.ev) = ⟨0x3FF0000000000000, false, false⟩ ∧
    narrowFloat f64 (accVal false (mergePartial false false q.ev q.od).acc) = ⟨0x3FF0000000400000, false, false⟩ := by decide +kernel

/-- Chapter 02, 'narrowing one row to E4M3 and FP4'. -/
theorem test_narrow_row :
    let l := [0x40200000, 0x40A00000, 0x40E00000, 0x3E800000, 0xBE800000, 0x3F400000, 0x43E80000, 0x43E88000, 0x3A83126F, 0xFF800000, 0x7FC00000]
    let e := (l.map f32.decode).map (narrowFloat e4m3)
    let q := (l.map f32.decode).map (narrowFloat fp4)
    e.map Conv.code = [0x42, 0x4A, 0x4E, 0x28, 0xA8, 0x34, 0x7E, 0x7E, 0x01, 0xFE, 0x7F] ∧
    e.map Conv.clip = [false, false, false, false, false, false, false, true, false, true, false] ∧
    q.map Conv.code = [0x4, 0x6, 0x7, 0x0, 0x8, 0x2, 0x7, 0x7, 0x0, 0xF, 0x0] ∧
    q.map Conv.clip = [false, false, true, false, false, false, true, true, false, true, false] := by decide +kernel

/-- Chapter 09: r = 1 − 2⁻¹⁰ + 2⁻²⁹ in BF16 becomes 1.0 below 12,582,920 and 0.99609375 from there on; in FP32, 524,288 divides. -/
theorem test_stochastic_round :
    let r := Val.fin false (2 ^ 29 - 2 ^ 19 + 1) (-29)
    (sround bf16 r 12582919).1 = 0x3F80 ∧ (sround bf16 r 12582920).1 = 0x3F7F ∧
    (sround f32 r 524287).1 = (sround f32 r 524288).1 + 1 := by decide +kernel

/-- Chapter 12, 'a gradient allreduce': 10,780,672 FP32 elements over 32 members. -/
theorem test_allreduce :
    let g := groupOf 0 1 10780672 32 32
    (g.chunk 0).2 = 1347584 ∧ segCount 1347584 = 2905 ∧ segLen 1347584 0 = 116 * 4 ∧ segLen 1347584 2904 = 32 * 4 ∧
    (g.m + 1) * g.slotBytes = 44470272 := by decide +kernel

/-- CRC-32C of "123456789" is 0xE3069283, and SHA-512 of "abc" begins DDAF35A193617ABA (the check values of their standards). -/
theorem test_check_values :
    crc32c ("123456789".toList.map (fun c => BitVec.ofNat 8 c.toNat)) = 0xE3069283 ∧
    (sha512 [0x61, 0x62, 0x63]).take 8 = [0xDD, 0xAF, 0x35, 0xA1, 0x93, 0x61, 0x7A, 0xBA] := by decide +kernel

/-- Chapter 01, 'logical numbers on one die': clusters 5 and 40 of quadrant 0 disabled. -/
theorem test_logical_numbers :
    let s : State := { State.reset with part := { State.reset.part with dumap := BitVec.ofNat 1024 (2 ^ 5 + 2 ^ 40) } }
    [0, 4, 5, 38, 39, 49, 50].map s.part.physCl = [0, 4, 6, 39, 41, 51, 52] ∧ fld (s.sysQcount 0) 0 6 = 50 := by decide +kernel

/-- Chapter 02, 'squaring one third with F32X': the three parts, and the exact sums of products for one and two passes. -/
theorem test_f32x :
    f32xParts 0x3EAAAAAB = (0x3EAA0000, 0x3AAA0000, 0x36AB0000) ∧
    (let l := [bf16.decode 0x3EAA, bf16.decode 0x3AAA, bf16.decode 0x36AB]
     narrowFloat f64 (groupSum 1 [l] [l]) = narrowFloat f64 (.fin false 28900 (-18)) ∧
     narrowFloat f64 (groupSum 3 [l] [l]) = narrowFloat f64 (.fin false (11184811 ^ 2 - 58140 * 2 ^ 8 - 171 * 171) (-50))) := by decide +kernel

/-- Chapters 06 and 07: the words of the worked examples are `POST`, `SETVL`, `VLD`, `VST`, `VFNMA` and `VFMUL`, with their operands. -/
theorem test_core_words :
    [0xF0A40003, 0xD8A10000, 0xD4220000, 0xD4840010, 0xD0862809, 0xD0840042].map hcRow =
      [0x3C * 64, 0x36 * 64, 0x35 * 64, 0x35 * 64 + 4, 0x34 * 64 + 9, 0x34 * 64 + 2] ∧
    [0xF0A40003, 0xD8A10000, 0xD4220000, 0xD4840010, 0xD0862809, 0xD0840042].map (fun w => (hD w, hA w)) =
      [(5, 4), (5, 1), (1, 2), (4, 4), (4, 6), (4, 4)] ∧ hB 0xD0862809 = 5 := by decide +kernel

end Sys2Proof.Tests
end

section
/-! SUPPORT. Proofs about the solver cores: what an instruction of a row answers, and the statements on integer instructions (R293),
alignment (R294), comparisons and conversions (R301, R302) and the return from a trap (R308). -/

namespace Sys2Proof.Machine

/-! ## Fields of a word -/

theorem bit_eq_testBit (w : Word) (i : Nat) : bit w i = w.toNat.testBit i := rfl

theorem bit_of_ge (w : Word) {i : Nat} (h : 64 ≤ i) : bit w i = false := BitVec.getLsbD_of_ge w i h

/-- A bit of a word of which a field has been replaced: the new field's inside it, the old one's outside. -/
theorem bit_setFld {lo n : Nat} (hfit : lo + n ≤ 64) (w : Word) (v i : Nat) :
    bit (setFld w lo n v) i = if lo ≤ i ∧ i < lo + n then v.testBit (i - lo) else bit w i := by
  by_cases hi : 64 ≤ i
  · rw [bit_of_ge _ hi, bit_of_ge _ hi, if_neg (by omega)]
  have hfld : fld w lo n < 2 ^ n := fld_lt w lo n
  have hv : v % 2 ^ n < 2 ^ n := Nat.mod_lt _ (Nat.two_pow_pos n)
  have hr : w.toNat % 2 ^ lo < 2 ^ lo := Nat.mod_lt _ (Nat.two_pow_pos lo)
  -- The word is what stands above the field (q), the field, and what stands below it (r).
  generalize hq : w.toNat / 2 ^ lo / 2 ^ n = q
  generalize hr' : w.toNat % 2 ^ lo = r at hr
  have hw : w.toNat = 2 ^ lo * (2 ^ n * q + fld w lo n) + r := by
    rw [fld, Nat.shiftRight_eq_div_pow, ← hq, Nat.div_add_mod, ← hr', Nat.div_add_mod]
  have hset : w.toNat - fld w lo n * 2 ^ lo + v % 2 ^ n * 2 ^ lo = 2 ^ lo * (2 ^ n * q + v % 2 ^ n) + r := by
    rw [hw, Nat.mul_add, Nat.mul_add, Nat.mul_comm (fld w lo n), Nat.mul_comm (v % 2 ^ n)]
    omega
  rw [setFld, hset, bit, BitVec.getLsbD_ofNat, bit_eq_testBit w, hw]
  simp only [Nat.testBit_two_pow_mul_add _ hr, Nat.testBit_two_pow_mul_add _ hfld, Nat.testBit_two_pow_mul_add _ hv,
    Nat.testBit_mod_two_pow]
  rcases Nat.lt_or_ge i lo with hbelow | hbelow
  · simp [hbelow, show ¬ lo ≤ i by omega, show i < 64 by omega]
  · rcases Nat.lt_or_ge i (lo + n) with habove | habove
    · simp [hbelow, habove, show ¬ i < lo by omega, show i - lo < n by omega, show i < 64 by omega]
    · simp [show ¬ i < lo by omega, show ¬ i - lo < n by omega, show ¬ i < lo + n by omega, show i < 64 by omega]

theorem bit_setFld_one {lo : Nat} (hlo : lo < 64) (w : Word) (b : Bool) (i : Nat) :
    bit (setFld w lo 1 (b2n b)) i = if i = lo then b else bit w i := by
  rw [bit_setFld (by omega)]
  by_cases hi : i = lo
  · cases b <;> simp [hi, b2n]
  · rw [if_neg hi, if_neg (by omega)]

/-! ## Alignment (R294) -/

theorem State.scRead_misaligned {s : State} {c len : Nat} {a : Word} {word : Bool} {v : ScWait} (h : a.toNat % len ≠ 0) :
    s.scRead c a len word v = (s, .trap 0x04 0) := if_pos h

theorem State.scWrite_misaligned {s : State} {c : Nat} {a : Word} {data : List Byte} {word : Bool}
    (h : a.toNat % data.length ≠ 0) : s.scWrite c a data word = (s, .trap 0x04 0) := if_pos h

theorem blockPieces_of_fits {size fuel a o len : Nat} (hpos : 0 < len) (hfit : len ≤ size - a % size) :
    blockPieces size (fuel + 2) a o len = [(a, o, len)] := by
  simp [blockPieces, Nat.min_eq_left hfit, Nat.ne_of_gt hpos]

/-- A naturally aligned range whose length divides the block size ends within its block. -/
theorem le_sub_mod_of_dvd {size a len : Nat} (hsize : 0 < size) (hblock : len ∣ size) (ha : len ∣ a) :
    len ≤ size - a % size :=
  Nat.le_of_dvd (Nat.sub_pos_of_lt (Nat.mod_lt a hsize)) (Nat.dvd_sub hblock ((Nat.dvd_mod_iff hblock).2 ha))

theorem pieces_of_aligned {a len : Nat} (hpos : 0 < len) (hunit : len ∣ 64) (ha : len ∣ a) :
    pieces a len = [(a, 0, len)] :=
  blockPieces_of_fits hpos (le_sub_mod_of_dvd (by decide) hunit ha)

/-! ## Division at its corners (R293) -/

theorem sdiv_zero (a : Word) : sdiv a 0 = BitVec.allOnes 64 := by simp [sdiv]

theorem sdiv_intMin_allOnes : sdiv (BitVec.intMin 64) (BitVec.allOnes 64) = BitVec.intMin 64 := by decide

theorem srem_zero (a : Word) : srem a 0 = a := by simp [srem]

theorem srem_intMin_allOnes : srem (BitVec.intMin 64) (BitVec.allOnes 64) = 0 := by
  rw [srem, if_neg (by decide), sdiv_intMin_allOnes]
  decide

/-! ## The return from a trap (R308) -/

theorem bit_stLeave (w : Word) (i : Nat) :
    bit (stLeave w) i = if i = 5 then false else if i = 3 then bit w 4 else bit w i := by
  rw [stLeave, show (0 : Nat) = b2n false from rfl, bit_setFld_one (by decide), bit_setFld_one (by decide)]

theorem levelOf_le (w : Word) : levelOf w ≤ 2 := by
  unfold levelOf
  split <;> omega

theorem levelOf_eq {w : Word} (h : fld w 6 2 ≤ 2) : levelOf w = fld w 6 2 := if_pos h

/-- The status word of the level that an `ERET` leaves: that of firmware (`fw`), or of the supervisor. -/
def Core.statusOf (x : Core) (fw : Bool) : Word := if fw then x.fwStatus else x.status

/-- The core with the level and the status that an `ERET` from firmware (`fw`) or from the supervisor gives it (R308). -/
def Core.returned (x : Core) (fw : Bool) : Core :=
  if fw then { x with level := levelOf (x.statusOf fw), fwStatus := stLeave (x.statusOf fw) }
  else { x with level := levelOf (x.statusOf fw), status := stLeave (x.statusOf fw) }

/-! ## FP64 codes (R51) -/

@[simp] theorem Core.addFlags_none (x : Core) : x.addFlags FpFlags.none = x := by
  simp [Core.addFlags, FpFlags.bits, FpFlags.none]

/-- The sign bit of an FP64 code. -/
def f64Neg (a : Nat) : Bool := a / 2 ^ 63 % 2 = 1
/-- The exponent field of an FP64 code. -/
def f64Exp (a : Nat) : Nat := a / 2 ^ 52 % 2 ^ 11
/-- The fraction field of an FP64 code. -/
def f64Frac (a : Nat) : Nat := a % 2 ^ 52
/-- An FP64 code is a NaN. -/
def F64Nan (a : Nat) : Prop := f64Exp a = 2047 ∧ f64Frac a ≠ 0
/-- An FP64 code is a signalling NaN. -/
def F64Snan (a : Nat) : Prop := F64Nan a ∧ a / 2 ^ 51 % 2 = 0

theorem f64Exp_le (a : Nat) : f64Exp a ≤ 2047 := Nat.le_of_lt_succ (Nat.mod_lt _ (by decide))

theorem f64Frac_lt (a : Nat) : f64Frac a < 2 ^ 52 := Nat.mod_lt _ (by decide)

theorem f64_signOf (a : Nat) : f64.signOf a = f64Neg a := rfl

/-- The value of an FP64 code by its fields. -/
theorem f64_decode (a : Nat) :
    f64.decode a =
      if f64Exp a = 2047 then if f64Frac a = 0 then .inf (f64Neg a) else .nan
      else if f64Exp a = 0 then .fin (f64Neg a) (f64Frac a) (-1074)
      else .fin (f64Neg a) (2 ^ 52 + f64Frac a) (f64Exp a - 1023 - 52) := by
  rw [← f64_signOf, f64Exp, f64Frac, FFmt.decode]
  simp [f64, FFmt.qmin]

theorem f64_decode_nan {a : Nat} (hex : f64Exp a = 2047) (hfr : f64Frac a ≠ 0) : f64.decode a = .nan := by
  rw [f64_decode, if_pos hex, if_neg hfr]

theorem f64_decode_inf {a : Nat} (hex : f64Exp a = 2047) (hfr : f64Frac a = 0) : f64.decode a = .inf (f64Neg a) := by
  rw [f64_decode, if_pos hex, if_pos hfr]

theorem f64_decode_small {a : Nat} (h0 : f64Exp a = 0) : f64.decode a = .fin (f64Neg a) (f64Frac a) (-1074) := by
  rw [f64_decode, if_neg (by omega), if_pos h0]

theorem f64_decode_normal {a : Nat} (h0 : f64Exp a ≠ 0) (hex : f64Exp a ≠ 2047) :
    f64.decode a = .fin (f64Neg a) (2 ^ 52 + f64Frac a) (f64Exp a - 1023 - 52) := by
  rw [f64_decode, if_neg hex, if_neg h0]

/-- The finite codes together: zeros and subnormal numbers have the exponent of the smallest normal ones. -/
theorem f64_decode_fin {a : Nat} (hex : f64Exp a < 2047) :
    f64.decode a =
      .fin (f64Neg a) ((if f64Exp a = 0 then 0 else 2 ^ 52) + f64Frac a) ((max (f64Exp a) 1 : Nat) - 1075) := by
  by_cases h0 : f64Exp a = 0
  · simp [f64_decode_small h0, h0]
  · have hexp : (f64Exp a - 1023 - 52 : Int) = (max (f64Exp a) 1 : Nat) - 1075 := by omega
    rw [f64_decode_normal h0 (Nat.ne_of_lt hex), if_neg h0, hexp]

theorem isNan_decode_iff (a : Nat) : (f64.decode a).isNan = true ↔ F64Nan a := by
  by_cases hex : f64Exp a = 2047
  · by_cases hfr : f64Frac a = 0
    · simp [f64_decode_inf hex hfr, Val.isNan, F64Nan, hfr]
    · simp [f64_decode_nan hex hfr, Val.isNan, F64Nan, hex, hfr]
  · simp [f64_decode_fin (Nat.lt_of_le_of_ne (f64Exp_le a) hex), Val.isNan, F64Nan, hex]

theorem isSnan_iff (a : Nat) : f64.isSnan a = true ↔ F64Snan a := by
  rw [FFmt.isSnan, Bool.and_eq_true, isNan_decode_iff, beq_iff_eq]
  rfl

/-! ## Comparing NaNs (R301) -/

theorem fcmp_nan {a b : Nat} (quiet : Bool) (p : Val → Val → Bool) (h : F64Nan a ∨ F64Nan b) :
    f64.fcmp quiet p a b =
      (false, if quiet && !(f64.isSnan a || f64.isSnan b) then FpFlags.none else FpFlags.invalid) := by
  rw [← isNan_decode_iff, ← isNan_decode_iff, ← Bool.or_eq_true] at h
  exact if_pos h

theorem fcmp_quiet {a b : Nat} (p : Val → Val → Bool) (h : F64Nan a ∨ F64Nan b) (ha : ¬ F64Snan a) (hb : ¬ F64Snan b) :
    f64.fcmp true p a b = (false, FpFlags.none) := by
  rw [← isSnan_iff, Bool.not_eq_true] at ha hb
  simp [fcmp_nan true p h, ha, hb]

theorem fcmp_invalid {a b : Nat} {quiet : Bool} (p : Val → Val → Bool) (h : F64Nan a ∨ F64Nan b)
    (hinv : quiet = false ∨ F64Snan a ∨ F64Snan b) : f64.fcmp quiet p a b = (false, FpFlags.invalid) := by
  rw [← isSnan_iff, ← isSnan_iff] at hinv
  rw [fcmp_nan quiet p h]
  rcases hinv with hq | ha | hb
  · simp [hq]
  · simp [ha]
  · simp [hb]

/-! ## Rounding to an integer (R298, R302) -/

/-- A sign as an integer factor. -/
def sgn (neg : Bool) : Int := if neg then -1 else 1

theorem natAbs_sgn_mul (neg : Bool) (x : Int) : (sgn neg * x).natAbs = x.natAbs := by
  cases neg <;> simp [sgn]

theorem sgn_mul_inj (neg : Bool) {x y : Int} : sgn neg * x = sgn neg * y ↔ x = y := by
  cases neg <;> simp [sgn]

theorem ite_neg_eq_sgn_mul (neg : Bool) (x : Int) : (if neg then -x else x) = sgn neg * x := by
  cases neg <;> simp [sgn]

/-- m / d rounded in a mode, for the magnitude of a value of sign `neg`. -/
def roundQuot (mode : Rnd) (neg : Bool) (m d : Nat) : Nat :=
  if roundUp mode neg (m / d % 2 == 1) (m % d) d false then m / d + 1 else m / d

/-- Rounding ± m × 2^e to an integer rounds the quotient of a multiple of m and a power of two. -/
theorem roundTo_integer (mode : Rnd) (neg : Bool) (m : Nat) (e : Int) :
    roundTo mode neg m e 0 false =
      (roundQuot mode neg (m * 2 ^ e.toNat) (2 ^ (-e).toNat), decide (m * 2 ^ e.toNat % 2 ^ (-e).toNat ≠ 0)) := by
  by_cases he : 0 ≤ e
  · have hd : (-e).toNat = 0 := by omega
    simp [roundTo, roundQuot, scaleTo, he, hd, Nat.mod_one]
  · have hm : e.toNat = 0 := by omega
    simp [roundTo, roundQuot, hm, he]

theorem roundUp_exact (mode : Rnd) (neg odd : Bool) {d : Nat} (hd : 0 < d) : roundUp mode neg odd 0 d false = false := by
  cases mode <;> simp [roundUp, Nat.ne_of_lt hd, Nat.ne_of_gt hd]

/-- What rounding does to m = (m / d) × d + m % d: it steps up to the next multiple of d, or stays at the one below. -/
theorem roundQuot_cases (mode : Rnd) (neg : Bool) (m d : Nat) :
    (roundUp mode neg (m / d % 2 == 1) (m % d) d false = true ∧ roundQuot mode neg m d = m / d + 1 ∧
      roundQuot mode neg m d * d + m % d = m + d) ∨
    (roundUp mode neg (m / d % 2 == 1) (m % d) d false = false ∧ roundQuot mode neg m d = m / d ∧
      roundQuot mode neg m d * d + m % d = m) := by
  have hdiv : m / d * d + m % d = m := Nat.div_add_mod' m d
  unfold roundQuot
  cases roundUp mode neg (m / d % 2 == 1) (m % d) d false with
  | false => exact .inr ⟨rfl, rfl, hdiv⟩
  | true => exact .inl ⟨rfl, rfl, by rw [if_pos rfl, Nat.add_mul, Nat.one_mul, Nat.add_right_comm, hdiv]⟩

theorem roundQuot_mul_eq_iff {mode : Rnd} {neg : Bool} {m d : Nat} (hd : 0 < d) :
    roundQuot mode neg m d * d = m ↔ m % d = 0 := by
  constructor
  · intro h
    rw [← h, Nat.mul_mod_left]
  · intro h
    rw [roundQuot, h, roundUp_exact mode neg _ hd]
    exact Nat.div_mul_cancel (Nat.dvd_of_mod_eq_zero h)

/-- The inexact flag of a rounding says whether the signed result differs from the signed value. -/
theorem sgn_mul_roundQuot_ne_iff (mode : Rnd) (neg : Bool) (m : Nat) {d : Nat} (hd : 0 < d) :
    sgn neg * roundQuot mode neg m d * d ≠ sgn neg * m ↔ m % d ≠ 0 := by
  rw [Int.mul_assoc, ne_eq, sgn_mul_inj, ← Int.natCast_mul, Int.ofNat_inj, roundQuot_mul_eq_iff hd]

/-- The distance of a rounded quotient from the exact one does not depend on the sign. -/
theorem natAbs_error (neg : Bool) (m d u : Nat) :
    (2 * (sgn neg * m - sgn neg * u * d)).natAbs = (2 * ((m : Int) - (u * d : Nat))).natAbs := by
  rw [← natAbs_sgn_mul neg (2 * ((m : Int) - (u * d : Nat))), Int.mul_left_comm (sgn neg), Int.mul_sub (sgn neg),
    Int.natCast_mul, Int.mul_assoc]

theorem neg_ediv_natCast (m : Nat) {d : Nat} (hd : 0 < d) :
    -(m : Int) / d = -((if m % d = 0 then m / d else m / d + 1 : Nat) : Int) := by
  have hdvd : (d : Int) ∣ m ↔ m % d = 0 := by rw [Int.natCast_dvd_natCast, Nat.dvd_iff_mod_eq_zero]
  simp only [Int.neg_ediv, hdvd, Int.sign_natCast_of_ne_zero (Nat.ne_of_gt hd)]
  split
  · simp
  · push_cast; omega

/-! ## The convert instructions and the class (R302) -/

theorem f64_toInt_nan {mode : Rnd} {lo hi : Int} {a : Nat} (h : f64.decode a = .nan) :
    f64.toInt mode lo hi a = (0, FpFlags.invalid) := by
  simp only [FFmt.toInt, h]

theorem f64_toInt_inf {mode : Rnd} {lo hi : Int} {a : Nat} {neg : Bool} (h : f64.decode a = .inf neg) :
    f64.toInt mode lo hi a = (if neg then lo else hi, FpFlags.invalid) := by
  simp only [FFmt.toInt, h]

/-- What the finite value ± m × 2^e converts to, with n / d for its magnitude. -/
theorem f64_toInt_fin {mode : Rnd} {lo hi : Int} {a m : Nat} {neg : Bool} {e : Int} (h : f64.decode a = .fin neg m e) :
    f64.toInt mode lo hi a =
      let n := m * 2 ^ e.toNat
      let d := 2 ^ (-e).toNat
      let r := sgn neg * roundQuot mode neg n d
      if r < lo then (lo, FpFlags.invalid) else if hi < r then (hi, FpFlags.invalid)
      else (r, { FpFlags.none with inx := decide (r * d ≠ sgn neg * n) }) := by
  simp only [FFmt.toInt, h, roundTo_integer, ite_neg_eq_sgn_mul, sgn_mul_roundQuot_ne_iff _ _ _ (Nat.two_pow_pos _)]

theorem f64_fclass_nan {a : Nat} (hex : f64Exp a = 2047) (hfr : f64Frac a ≠ 0) :
    f64.fclass a = if f64Frac a / 2 ^ 51 = 1 then 1 else 2 := by
  have hfrac : f64Frac a < 2 ^ 52 := f64Frac_lt a
  have hquiet : a / 2 ^ 51 % 2 = f64Frac a / 2 ^ 51 := by unfold f64Frac; omega
  have hsnan : f64.isSnan a = true ↔ ¬ f64Frac a / 2 ^ 51 = 1 := by
    rw [isSnan_iff, F64Snan, hquiet, F64Nan]
    omega
  simp only [FFmt.fclass, f64_decode_nan hex hfr, hsnan, ite_not]

theorem f64_fclass_inf {a : Nat} (hex : f64Exp a = 2047) (hfr : f64Frac a = 0) :
    f64.fclass a = if f64Neg a then 8 else 4 := by
  simp only [FFmt.fclass, f64_decode_inf hex hfr]

theorem f64_fclass_small {a : Nat} (h0 : f64Exp a = 0) :
    f64.fclass a = if f64Frac a = 0 then if f64Neg a then 2 ^ 9 else 2 ^ 8 else if f64Neg a then 2 ^ 7 else 2 ^ 6 := by
  have hsub : f64Frac a < 2 ^ f64.frac ∧ (-1074 : Int) = f64.qmin := ⟨f64Frac_lt a, rfl⟩
  simp only [FFmt.fclass, f64_decode_small h0, if_pos hsub]

theorem f64_fclass_normal {a : Nat} (h0 : f64Exp a ≠ 0) (hex : f64Exp a ≠ 2047) :
    f64.fclass a = if f64Neg a then 2 ^ 5 else 2 ^ 4 := by
  have hnormal : ¬ (2 ^ 52 + f64Frac a < 2 ^ f64.frac ∧ (f64Exp a - 1023 - 52 : Int) = f64.qmin) :=
    fun h => Nat.not_lt.2 (Nat.le_add_right _ _) h.1
  have hpos : 2 ^ 52 + f64Frac a ≠ 0 := by omega
  simp only [FFmt.fclass, f64_decode_normal h0 hex, if_neg hnormal, if_neg hpos]

/-- The number of the bit that R302 lists for the class of an FP64 code. -/
def f64Class (a : Nat) : Nat :=
  if f64Exp a = 2047 then
    if f64Frac a = 0 then (if f64Neg a then 3 else 2) else if f64Frac a / 2 ^ 51 = 1 then 0 else 1
  else if f64Exp a = 0 then if f64Frac a = 0 then (if f64Neg a then 9 else 8) else if f64Neg a then 7 else 6
  else if f64Neg a then 5 else 4

theorem f64_fclass (a : Nat) : f64.fclass a = 2 ^ f64Class a := by
  unfold f64Class
  by_cases hex : f64Exp a = 2047
  · by_cases hfr : f64Frac a = 0
    · simp [f64_fclass_inf hex hfr, hex, hfr, apply_ite (2 ^ ·)]
    · simp [f64_fclass_nan hex hfr, hex, hfr, apply_ite (2 ^ ·)]
  · by_cases h0 : f64Exp a = 0
    · simp [f64_fclass_small h0, h0, apply_ite (2 ^ ·)]
    · simp [f64_fclass_normal h0 hex, h0, hex, apply_ite (2 ^ ·)]

end Sys2Proof.Machine

namespace Sys2Proof.Claims

open Sys2Proof.Machine

/-! ## Rounding in the directions of R298 -/

theorem roundsTo_towardZero (neg : Bool) (m d : Nat) :
    roundsTo .towardZero (sgn neg * m) d (sgn neg * roundQuot .towardZero neg m d) := by
  cases neg <;> simp [roundsTo, roundQuot, roundUp, sgn]

theorem roundsTo_down (neg : Bool) (m : Nat) {d : Nat} (hd : 0 < d) :
    roundsTo .down (sgn neg * m) d (sgn neg * roundQuot .down neg m d) := by
  cases neg
  case false => simp [roundsTo, roundQuot, roundUp, sgn]
  case true =>
    have hquot : roundQuot .down true m d = if m % d = 0 then m / d else m / d + 1 := by simp [roundQuot, roundUp]
    simp only [roundsTo, sgn, ↓reduceIte, Int.neg_one_mul, neg_ediv_natCast m hd, hquot]

theorem roundsTo_up (neg : Bool) (m : Nat) {d : Nat} (hd : 0 < d) :
    roundsTo .up (sgn neg * m) d (sgn neg * roundQuot .up neg m d) := by
  cases neg
  case false => simp [roundsTo, roundQuot, roundUp, sgn, neg_ediv_natCast m hd]
  case true => simp [roundsTo, roundQuot, roundUp, sgn]

theorem roundsTo_nearestEven (neg : Bool) (m : Nat) {d : Nat} (hd : 0 < d) :
    roundsTo .nearestEven (sgn neg * m) d (sgn neg * roundQuot .nearestEven neg m d) := by
  have hmod := Nat.mod_lt m hd
  have hparity (u : Nat) : (sgn neg * u) % 2 = 0 ↔ u % 2 = 0 := by cases neg <;> simp [sgn] <;> omega
  simp only [roundsTo, natAbs_error, hparity, Int.natAbs_natCast]
  rcases roundQuot_cases .nearestEven neg m d with ⟨hup, hquot, hmul⟩ | ⟨hup, hquot, hmul⟩
  all_goals
    simp [roundUp] at hup
    omega

theorem roundsTo_nearestAway (neg : Bool) (m : Nat) {d : Nat} (hd : 0 < d) :
    roundsTo .nearestAway (sgn neg * m) d (sgn neg * roundQuot .nearestAway neg m d) := by
  have hmod := Nat.mod_lt m hd
  have habs (u : Nat) : (sgn neg * u * d).natAbs = u * d := by rw [Int.mul_assoc, natAbs_sgn_mul]; rfl
  simp only [roundsTo, natAbs_error, natAbs_sgn_mul, habs, Int.natAbs_natCast]
  rcases roundQuot_cases .nearestAway neg m d with ⟨hup, -, hmul⟩ | ⟨hup, -, hmul⟩
  all_goals
    simp [roundUp] at hup
    omega

/-- The model's rounding of a quotient is the one that the mode's direction asks for. -/
theorem roundsTo_roundQuot (mode : Rnd) (neg : Bool) (m : Nat) {d : Nat} (hd : 0 < d) :
    roundsTo mode (sgn neg * m) d (sgn neg * roundQuot mode neg m d) := by
  cases mode with
  | nearestEven => exact roundsTo_nearestEven neg m hd
  | towardZero => exact roundsTo_towardZero neg m d
  | down => exact roundsTo_down neg m hd
  | up => exact roundsTo_up neg m hd
  | nearestAway => exact roundsTo_nearestAway neg m hd

/-! ## The end of an instruction -/

/-- The model's own end of an instruction is `completes`. -/
theorem stepped_eq_completes (x : Core) (pc : Word) :
    ({ x with pc := pc, retired := x.retired + 1, wait := none, fetched := none } : Core).stepped = completes x pc := rfl

theorem scGo_setSc (u : State) (c : Nat) (x : Core) (pc : Word) : (u.setSc c x).scGo c pc = u.setSc c (completes x pc) := by
  simp [State.scGo, State.modSc, stepped_eq_completes]

theorem scJump_setSc_aligned (u : State) (c : Nat) (x : Core) {pc : Word} (h : pc.toNat % 4 = 0) :
    (u.setSc c x).scJump c pc = u.setSc c (completes x pc) := by
  simp [State.scJump, scGo_setSc, h]

/-- R295: the jump completes, and the exception is raised at its target. -/
theorem scJump_setSc_misaligned (u : State) (c : Nat) (x : Core) {pc : Word} (h : pc.toNat % 4 ≠ 0) :
    (u.setSc c x).scJump c pc = (u.setSc c (completes x pc)).scTrap c pc 0x03 0 pc := by
  simp [State.scJump, scGo_setSc, h]

/-! ## What an instruction of a row answers -/

section
variable {s u : State} {c row : Nat} {w : Word}

theorem ScRuns.run (h : ScRuns s c row u w) : (s.sc c).run = true := Core.run_of_canRun h.can

theorem ScRuns.onCore_scRow (h : ScRuns s c row u w) (f : State → Word → State) :
    onCore c s (fun s => s.scRow c row f) = .next (s.leave (f u w).settle) := by
  rw [onCore, onUnit_next s (decide_eq_true h.present) h.alive, State.scRow_eq h.can h.fetch h.legal h.row]

/-- An instruction that changes registers alone: the core that it makes completes, and nothing is left to be done. -/
theorem ScRuns.onCore_scAlu (h : ScRuns s c row u w) {f : Core → Word → Core} (hf : ∀ x w, (f x w).run = x.run) :
    onCore c s (fun s => s.scAlu c row f) = .next (s.leave (u.setSc c (completesNext (f (s.sc c) w)))) := by
  have hstate : (u.modSc c (fun x => f x w)).scNext c = u.setSc c (completesNext (f (s.sc c) w)) := by
    rw [State.modSc, h.same, State.scNext_setSc u c _ ((hf _ _).trans h.run), stepped_eq_completes, completesNext]
  have hquiet : (u.setSc c (completesNext (f (s.sc c) w))).settled = true := h.quiet
  unfold State.scAlu
  rw [h.onCore_scRow, hstate, State.settle_eq hquiet]

theorem ScRuns.onCore_scInt {fn : Nat} (h : ScRuns s c (0x01 * 64 + fn) u w) (f : Word → Word → Word) :
    onCore c s (fun s => s.scInt c fn f) = .next (s.leave (u.setSc c (completesNext
      ((s.sc c).setG (hD w) (f ((s.sc c).gr (hA w)) ((s.sc c).gr (hB w))))))) :=
  h.onCore_scAlu (fun _ _ => Core.setG_run _ _ _)

/-- An instruction of OP 0x28 that writes the result v into gD and raises the flags g. -/
theorem ScRuns.onCore_fpG {fn : Nat} (h : ScRuns s c (0x28 * 64 + fn) u w) (f : Rnd → Nat → Nat → Word × FpFlags)
    {v : Word} {g : FpFlags}
    (hr : f (rndMode (hC w) (s.sc c).fcsr) ((s.sc c).fr (hA w)).toNat ((s.sc c).fr (hB w)).toNat = (v, g)) :
    onCore c s (fun s => s.fpG c fn f) =
      .next (s.leave (u.setSc c (completesNext (((s.sc c).setG (hD w) v).addFlags g)))) := by
  rw [show v = (v, g).1 from rfl, show g = (v, g).2 from rfl, ← hr]
  exact h.onCore_scAlu (fun _ _ => Core.setG_run _ _ _)

theorem ScRuns.onCore_scLoad_misaligned {op : Nat} {a : Word} (h : ScRuns s c (op * 64) u w)
    (ha : (s.sc c).gr (hA w) + hImm w = a) (hmis : a.toNat % accessLen op ≠ 0) :
    onCore c s (fun s => s.scLoad c op) = .next (s.leave (u.scTrap c (s.sc c).pc 0x04 0 a).settle) := by
  unfold State.scLoad
  rw [h.onCore_scRow]
  simp only [h.same, ha, State.scRead_misaligned hmis, State.scAfter]

theorem ScRuns.onCore_scStore_misaligned {op : Nat} {a : Word} (h : ScRuns s c (op * 64) u w)
    (ha : (s.sc c).gr (hA w) + hImm w = a) (hmis : a.toNat % accessLen op ≠ 0) :
    onCore c s (fun s => s.scStore c op) = .next (s.leave (u.scTrap c (s.sc c).pc 0x04 0 a).settle) := by
  have hlen (v : Nat) : a.toNat % (leBytes (accessLen op) v).length ≠ 0 := by rwa [leBytes_length]
  unfold State.scStore
  rw [h.onCore_scRow]
  simp only [h.same, ha, State.scWrite_misaligned (hlen _), State.scAfter]

theorem ScRuns.exec_eret (h : ScRuns s c (0x38 * 64 + 2) u w) (fw : Bool) (hlevel : (s.sc c).level = if fw then 2 else 1) :
    exec (.eret c) s = .next (s.leave ((u.setSc c ((s.sc c).returned fw)).scJump c
      (if fw then (s.sc c).fwEpc else (s.sc c).epc)).settle) := by
  refine (h.onCore_scRow _).trans ?_
  cases fw
  case false =>
    have hsupervisor : (s.sc c).level = 1 := hlevel
    simp [h.same, hsupervisor, State.modSc, Core.returned, Core.statusOf]
  case true =>
    have hfirmware : (s.sc c).level = 2 := hlevel
    simp [h.same, hfirmware, State.modSc, Core.returned, Core.statusOf]

theorem ScRuns.exec_eret_user (h : ScRuns s c (0x38 * 64 + 2) u w) (hlevel : (s.sc c).level = 0) :
    exec (.eret c) s = .next (s.leave (u.scTrap c (s.sc c).pc 0x01 0 w).settle) := by
  refine (h.onCore_scRow _).trans ?_
  simp [h.same, hlevel]

end

/-! ## The integer instructions (R293) -/

/-- What R293 says of the operation with function code `fn` at the corners: shifts, division by zero and of −2⁶³ by −1. -/
def IntCorners (fn : Nat) (f : Word → Word → Word) : Prop :=
  ∀ a b : Word,
    (fn = 0x05 → f a b = a <<< (b.toNat % 64)) ∧ (fn = 0x06 → f a b = a >>> (b.toNat % 64)) ∧
    (fn = 0x07 → f a b = a.sshiftRight (b.toNat % 64)) ∧
    ((fn = 0x0D ∨ fn = 0x0E) → b = 0 → f a b = BitVec.allOnes 64) ∧ ((fn = 0x0F ∨ fn = 0x10) → b = 0 → f a b = a) ∧
    (fn = 0x0D → a = BitVec.intMin 64 → b = BitVec.allOnes 64 → f a b = BitVec.intMin 64) ∧
    (fn = 0x0F → a = BitVec.intMin 64 → b = BitVec.allOnes 64 → f a b = 0)

/-- Command i writes f of gA and gB, where f meets R293 for the function code. -/
def IsIntInstr (i : Nat → Instr) (fn : Nat) : Prop :=
  ∃ f, (∀ c s, exec (i c) s = onCore c s (fun s => s.scInt c fn f)) ∧ IntCorners fn f

theorem intCorners_sll : IntCorners 0x05 (fun a b => shiftBy 0 (b.toNat % 64) a) := fun _ _ =>
  ⟨fun _ => rfl, nofun, nofun, nofun, nofun, nofun, nofun⟩

theorem intCorners_srl : IntCorners 0x06 (fun a b => shiftBy 1 (b.toNat % 64) a) := fun _ _ =>
  ⟨nofun, fun _ => rfl, nofun, nofun, nofun, nofun, nofun⟩

theorem intCorners_sra : IntCorners 0x07 (fun a b => shiftBy 2 (b.toNat % 64) a) := fun _ _ =>
  ⟨nofun, nofun, fun _ => rfl, nofun, nofun, nofun, nofun⟩

theorem intCorners_div : IntCorners 0x0D sdiv := fun a _ =>
  ⟨nofun, nofun, nofun, fun _ hb => hb ▸ sdiv_zero a, nofun, fun _ ha hb => by rw [ha, hb, sdiv_intMin_allOnes], nofun⟩

theorem intCorners_divu : IntCorners 0x0E (fun a b => if b = 0 then BitVec.allOnes 64 else wd (a.toNat / b.toNat)) :=
  fun _ _ => ⟨nofun, nofun, nofun, fun _ hb => if_pos hb, nofun, nofun, nofun⟩

theorem intCorners_rem : IntCorners 0x0F srem := fun a _ =>
  ⟨nofun, nofun, nofun, nofun, fun _ hb => hb ▸ srem_zero a, nofun, fun _ ha hb => by rw [ha, hb, srem_intMin_allOnes]⟩

theorem intCorners_remu : IntCorners 0x10 (fun a b => if b = 0 then a else wd (a.toNat % b.toNat)) :=
  fun _ _ => ⟨nofun, nofun, nofun, nofun, fun _ hb => if_pos hb, nofun, nofun⟩

theorem isIntInstr_of_notMem {i : Nat → Instr} {fn : Nat} (f : Word → Word → Word)
    (he : ∀ c s, exec (i c) s = onCore c s (fun s => s.scInt c fn f))
    (h : fn ∉ [0x05, 0x06, 0x07, 0x0D, 0x0E, 0x0F, 0x10]) : IsIntInstr i fn := by
  simp only [List.mem_cons, List.not_mem_nil, or_false, not_or] at h
  obtain ⟨h5, h6, h7, hD, hE, hF, h10⟩ := h
  exact ⟨f, he, by simp [IntCorners, h5, h6, h7, hD, hE, hF, h10]⟩

theorem isIntInstr_of_mem : ∀ p ∈ intRows.map (fun e => (e.1, e.2.1)) ++ [(Instr.div, 0x0D), (Instr.rem, 0x0F)],
    IsIntInstr p.1 p.2 := by
  simp only [intRows, List.map_cons, List.map_nil, List.cons_append, List.nil_append, List.forall_mem_cons,
    List.not_mem_nil, false_imp_iff, implies_true, and_true]
  refine ⟨?add, ?sub, ?and, ?or, ?xor, ?sll, ?srl, ?sra, ?slt, ?sltu, ?mul, ?mulh, ?mulhu, ?divu, ?remu, ?clz, ?popc,
    ?min, ?max, ?div, ?rem⟩
  case sll => exact ⟨_, fun _ _ => rfl, intCorners_sll⟩
  case srl => exact ⟨_, fun _ _ => rfl, intCorners_srl⟩
  case sra => exact ⟨_, fun _ _ => rfl, intCorners_sra⟩
  case div => exact ⟨_, fun _ _ => rfl, intCorners_div⟩
  case divu => exact ⟨_, fun _ _ => rfl, intCorners_divu⟩
  case rem => exact ⟨_, fun _ _ => rfl, intCorners_rem⟩
  case remu => exact ⟨_, fun _ _ => rfl, intCorners_remu⟩
  -- R293 names no corner of the others.
  all_goals exact isIntInstr_of_notMem _ (fun _ _ => rfl) (by decide)

/-- The instructions with an immediate, and `PCREL`, write gD and complete. -/
theorem immRows_exec : ∀ e ∈ immRows, ∃ f : Core → Word → Word, ∀ c s,
    exec (e.1 c) s = onCore c s (fun s => s.scAlu c (e.2.1 * 64) (fun x w => x.setG (hD w) (f x w))) := by
  simp only [immRows, List.forall_mem_cons, List.not_mem_nil, false_imp_iff, implies_true, and_true]
  refine ⟨?addi, ?andi, ?ori, ?xori, ?shi, ?slti, ?lhi, ?pcrel⟩
  all_goals exact ⟨_, fun _ _ => rfl⟩

/-- Settles O7: each integer instruction is one register write and completes; its corners are those of its operation. -/
theorem integerNeverTraps : Obligations.IntegerNeverTraps := by
  unfold Obligations.IntegerNeverTraps
  constructor
  · intro i fn hmem s u c w h
    obtain ⟨f, hexec, hcorners⟩ := isIntInstr_of_mem (i, fn) hmem
    exact ⟨_, (hexec c s).trans (h.onCore_scInt f), hcorners _ _⟩
  · intro e hmem s u c w h
    obtain ⟨f, hexec⟩ := immRows_exec e hmem
    exact ⟨_, (hexec c s).trans (h.onCore_scAlu fun _ _ => Core.setG_run _ _ _)⟩

/-! ## Alignment (R294) -/

theorem loadRows_exec : ∀ e ∈ loadRows, ∀ c s, exec (e.1 c) s = onCore c s (fun s => s.scLoad c e.2.1) := by
  simp only [loadRows, List.forall_mem_cons, List.not_mem_nil, false_imp_iff, implies_true, and_true]
  refine ⟨?ldb, ?ldbu, ?ldh, ?ldhu, ?ldw, ?ldwu, ?ldd, ?fld⟩
  all_goals exact fun _ _ => rfl

theorem accessLen_of_mem_loadRows : ∀ e ∈ loadRows, accessLen e.2.1 = e.2.2.1 := by
  simp [loadRows, accessLen]

theorem storeRows_exec : ∀ e ∈ storeRows, ∀ c s, exec (e.1 c) s = onCore c s (fun s => s.scStore c e.2.1) := by
  simp only [storeRows, List.forall_mem_cons, List.not_mem_nil, false_imp_iff, implies_true, and_true]
  refine ⟨?stb, ?sth, ?stw, ?std, ?fst⟩
  all_goals exact fun _ _ => rfl

theorem accessLen_of_mem_storeRows : ∀ e ∈ storeRows, accessLen e.2.1 = e.2.2.1 := by
  simp [storeRows, accessLen]

/-- Settles O9: alignment is checked before anything of memory, and an aligned length divides the 64 bytes of a unit. -/
theorem misalignedAccess : Obligations.MisalignedAccess := by
  unfold Obligations.MisalignedAccess
  refine ⟨?load, ?store, ?aligned⟩
  case load =>
    intro e hmem s u c w h a hmis
    rw [loadRows_exec e hmem c s]
    exact h.onCore_scLoad_misaligned rfl (by rwa [accessLen_of_mem_loadRows e hmem])
  case store =>
    intro e hmem s u c w h a hmis
    rw [storeRows_exec e hmem c s]
    exact h.onCore_scStore_misaligned rfl (by rwa [accessLen_of_mem_storeRows e hmem])
  case aligned =>
    intro a len hlen ha
    obtain ⟨hpos, hunit⟩ : 0 < len ∧ len ∣ 64 := (by decide : ∀ n ∈ [1, 2, 4, 8], 0 < n ∧ n ∣ 64) len hlen
    exact pieces_of_aligned hpos hunit (Nat.dvd_of_mod_eq_zero ha)

/-! ## Comparisons (R301) -/

/-- `FEQ` alone compares quietly. -/
theorem compare_exec : ∀ e ∈ [(Instr.feq, 0x10), (Instr.flt, 0x11), (Instr.fle, 0x12)], ∃ p, ∀ c s,
    exec (e.1 c) s = onCore c s (fun s => s.fpG c e.2 (fun _ a b => cmpG (f64.fcmp (e.2 == 0x10) p a b))) := by
  simp only [List.forall_mem_cons, List.not_mem_nil, false_imp_iff, implies_true, and_true]
  exact ⟨⟨_, fun _ _ => rfl⟩, ⟨_, fun _ _ => rfl⟩, ⟨_, fun _ _ => rfl⟩⟩

/-- Settles O12: the flag by whether the comparison is quiet and an operand signals. -/
theorem compareNan : Obligations.CompareNan := by
  unfold Obligations.CompareNan
  intro e hmem s u c w h x a b nan snan hnan
  obtain ⟨p, hexec⟩ := compare_exec e hmem
  refine ⟨?quiet, ?invalid⟩
  case quiet =>
    rintro ⟨hfeq, ha, hb⟩
    rw [← (x.setG (hD w) 0).addFlags_none, hexec]
    exact h.onCore_fpG _ (by rw [hfeq]; exact congrArg cmpG (fcmp_quiet p hnan ha hb))
  case invalid =>
    intro hinv
    rw [hexec]
    exact h.onCore_fpG _ (congrArg cmpG (fcmp_invalid p hnan (hinv.imp_left beq_false_of_ne)))

/-! ## Conversions (R302) -/

/-- The conversions to integers: command, FN, and the bounds of the result. -/
abbrev convertRows : List ((Nat → Instr) × Nat × Int × Int) :=
  [(Instr.ftoi, 0x18, -2 ^ 63, 2 ^ 63 - 1), (Instr.ftou, 0x19, 0, 2 ^ 64 - 1)]

theorem convertRows_exec : ∀ e ∈ convertRows, ∀ c s, exec (e.1 c) s =
    onCore c s (fun s => s.fpG c e.2.1 (fun m a _ => intG (f64.toInt m e.2.2.1 e.2.2.2 a))) := by
  simp only [List.forall_mem_cons, List.not_mem_nil, false_imp_iff, implies_true, and_true]
  exact ⟨fun _ _ => rfl, fun _ _ => rfl⟩

theorem convertRows_bounds : ∀ e ∈ convertRows, e.2.2.1 ≤ e.2.2.2 := by
  simp

/-- Settles O13: the exact value of fA is ± n / d, of which the model takes the rounded quotient; then the bounds. -/
theorem convertSaturates : Obligations.ConvertSaturates := by
  unfold Obligations.ConvertSaturates
  refine ⟨?convert, ?fcls⟩
  case convert =>
    intro e hmem s u c w h x a lo hi neg ex writes
    have hwrites {v : Int} {f : FpFlags} (hv : f64.toInt (rndMode (hC w) x.fcsr) lo hi a = (v, f)) : writes v f :=
      (convertRows_exec e hmem c s).trans (h.onCore_fpG _ (congrArg intG hv))
    have hbounds : lo ≤ hi := convertRows_bounds e hmem
    refine ⟨fun hex hfr => hwrites (f64_toInt_nan (f64_decode_nan hex hfr)),
      fun hex hfr => hwrites (f64_toInt_inf (f64_decode_inf hex hfr)), ?finite⟩
    intro hex m sh n d
    have hval := f64_toInt_fin (mode := rndMode (hC w) x.fcsr) (lo := lo) (hi := hi) (f64_decode_fin hex)
    have hup : (((max ex 1 : Nat) : Int) - 1075).toNat = sh - 1075 := by omega
    have hdown : (-(((max ex 1 : Nat) : Int) - 1075)).toNat = 1075 - sh := by omega
    rw [show f64Exp a = ex from rfl, hup, hdown] at hval
    refine ⟨_, roundsTo_roundQuot _ neg _ (Nat.two_pow_pos _), fun hlo => ?below, fun hhi => ?above, fun hlo hhi => ?within⟩
    case below => exact hwrites (hval.trans (if_pos hlo))
    case above => exact hwrites (hval.trans ((if_neg (Int.not_lt.2 (Int.le_trans hbounds (Int.le_of_lt hhi)))).trans (if_pos hhi)))
    case within => exact hwrites (hval.trans ((if_neg (Int.not_lt.2 hlo)).trans (if_neg (Int.not_lt.2 hhi))))
  case fcls =>
    intro s u c w h x a neg ex fr k
    rw [← (x.setG (hD w) _).addFlags_none]
    exact h.onCore_fpG _ (congrArg (fun k => (wd k, FpFlags.none)) (f64_fclass a))

/-! ## The return from a trap (R308) -/

/-- Settles O16: an `ERET` is a jump to `EPC` of the core that has its level and status back. -/
theorem trapReturn : Obligations.TrapReturn := by
  unfold Obligations.TrapReturn
  refine ⟨?privileged, fun s u c w h hlevel => h.exec_eret_user hlevel⟩
  intro s u c w fw h hlevel x old pc
  refine ⟨levelOf old, stLeave old, levelOf_eq, levelOf_le old, ?ie, ?exl, ?rest, ?aligned, ?misaligned⟩
  case ie => simp [bit_stLeave]
  case exl => simp [bit_stLeave]
  case rest =>
    intro i _ h3 h5
    simp [bit_stLeave, h3, h5]
  case aligned =>
    intro hpc
    have hquiet : (u.setSc c (completes (x.returned fw) pc)).settled = true := h.quiet
    rw [h.exec_eret fw hlevel, scJump_setSc_aligned u c _ hpc, State.settle_eq hquiet]
    rfl
  case misaligned =>
    intro hpc
    rw [h.exec_eret fw hlevel, scJump_setSc_misaligned u c _ hpc]
    rfl

end Sys2Proof.Claims
end

section
/-! SUPPORT. Proofs about the long vectors: what the comparisons write (R353). -/

namespace Sys2Proof.Machine

/-! ## Single bits of a word -/

/-- A field above the top of a word is nowhere: setting it changes no bit. -/
theorem setFld_of_ge {lo : Nat} (hlo : 64 ≤ lo) (w : Word) (n v : Nat) : setFld w lo n v = w := by
  have hw : w.toNat < 2 ^ lo := Nat.lt_of_lt_of_le w.isLt (Nat.pow_le_pow_right (by decide) hlo)
  have hfld : fld w lo n = 0 := by rw [fld, Nat.shiftRight_eq_zero _ _ hw, Nat.zero_mod]
  obtain ⟨q, hq⟩ : (2 : Nat) ^ 64 ∣ v % 2 ^ n * 2 ^ lo := Nat.dvd_mul_left_of_dvd (Nat.pow_dvd_pow 2 hlo) _
  have hsum : (w.toNat + v % 2 ^ n * 2 ^ lo) % 2 ^ 64 = w.toNat := by
    rw [hq, Nat.add_mul_mod_self_left, Nat.mod_eq_of_lt w.isLt]
  rw [setFld, hfld, Nat.zero_mul, Nat.sub_zero]
  exact BitVec.eq_of_toNat_eq hsum

/-- A bit of a word in which a bit at any place has been set. -/
theorem bit_setFld_bool {i : Nat} (hi : i < 64) (w : Word) (lo : Nat) (b : Bool) :
    bit (setFld w lo 1 (b2n b)) i = if i = lo then b else bit w i := by
  rcases Nat.lt_or_ge lo 64 with hlo | hlo
  · exact bit_setFld_one hlo w b i
  · rw [setFld_of_ge hlo, if_neg (by omega)]

/-- A mask in which the bits at the places of a list have been set, in turn, to p of their place. -/
def setBitsTo (p : Nat → Bool) (l : List Nat) (m : Word) : Word := l.foldl (fun m i => setFld m i 1 (b2n (p i))) m

theorem bit_setBitsTo (p : Nat → Bool) (l : List Nat) (m : Word) {i : Nat} (hi : i < 64) :
    bit (setBitsTo p l m) i = if i ∈ l then p i else bit m i := by
  induction l generalizing m with
  | nil => rfl
  | cons j l ih =>
    have hstep : bit (setBitsTo p (j :: l) m) i = if i ∈ l then p i else if i = j then p j else bit m i :=
      (ih _).trans (by rw [bit_setFld_bool hi])
    rw [hstep]
    by_cases hij : i = j <;> simp [hij]

/-! ## Active elements (R344) -/

/-- The active elements of an instruction, in ascending order. -/
def Core.actives (x : Core) (w : Word) : List Nat := (List.range x.vl).filter (x.active w)

theorem Core.lt_vl_of_active {x : Core} {w : Word} {i : Nat} (h : x.active w i = true) : i < x.vl := by
  rw [Core.active, Bool.and_eq_true, decide_eq_true_eq] at h
  exact h.1.2

@[simp] theorem Core.mem_actives {x : Core} {w : Word} {i : Nat} : i ∈ x.actives w ↔ x.active w i = true := by
  rw [Core.actives, List.mem_filter, List.mem_range]
  exact and_iff_right_of_imp Core.lt_vl_of_active

end Sys2Proof.Machine

namespace Sys2Proof.Claims

open Sys2Proof.Machine

/-! ## The comparisons (R353) -/

/-- What an active element does to the mask and the flags so far: its bit is set to its answer, its flags are added. -/
def testElement (r : Nat → Bool × FpFlags) (acc : Word × FpFlags) (i : Nat) : Word × FpFlags :=
  (setFld acc.1 i 1 (b2n (r i).1), acc.2.or (r i).2)

/-- Bits and flags do not meet: a mask-writing operation sets the bits of the active elements, and raises their flags. -/
theorem vTest_eq (x : Core) (w : Word) (fp : Bool) (p : Nat → Nat → Bool × FpFlags) :
    let r := fun i => p (x.el (hA w) i) (x.opB w fp i)
    x.vTest w fp p =
      (x.setM (hD w) (setBitsTo (fun i => (r i).1) (x.actives w) (x.mr (hD w)))).addFlags (flagsOf x w (fun i => (r i).2)) := by
  intro r
  have hbits : ((x.actives w).foldl (testElement r) (x.mr (hD w), FpFlags.none)).1 =
      setBitsTo (fun i => (r i).1) (x.actives w) (x.mr (hD w)) := (List.foldl_hom Prod.fst (fun _ _ => rfl)).symm
  have hflags : ((x.actives w).foldl (testElement r) (x.mr (hD w), FpFlags.none)).2 = flagsOf x w (fun i => (r i).2) :=
    (List.foldl_hom Prod.snd (fun _ _ => rfl)).symm
  rw [← hbits, ← hflags, Core.actives, List.foldl_filter]
  rfl

theorem vTest_run (x : Core) (w : Word) (fp : Bool) (p : Nat → Nat → Bool × FpFlags) : (x.vTest w fp p).run = x.run := rfl

/-- Each comparison is a mask-writing operation with the answer that its row gives. -/
theorem vcmpRows_exec : ∀ e ∈ vcmpRows, ∀ c s, exec (e.1 c) s =
    onCore c s (fun s => s.scAlu c (0x34 * 64 + e.2.1) (fun x w => x.vTest w e.2.2.1 (e.2.2.2 x.ew32))) := by
  simp only [vcmpRows, List.forall_mem_cons, List.not_mem_nil, false_imp_iff, implies_true, and_true]
  refine ⟨?vfeq, ?vflt, ?vfle, ?vseq, ?vslt⟩
  all_goals exact fun _ _ => rfl

/-- Settles O21: a comparison sets the bits of the active elements in turn, and so no other. -/
theorem maskWrites : Obligations.MaskWrites := by
  unfold Obligations.MaskWrites
  intro e hmem s u c w h x r
  refine ⟨setBitsTo (fun i => (r i).1) (x.actives w) (x.mr (hD w)), ?answer, ?bits⟩
  case answer =>
    rw [vcmpRows_exec e hmem, h.onCore_scAlu (fun x w => vTest_run x w _ _), vTest_eq]
  case bits =>
    intro i hi
    simp only [bit_setBitsTo _ _ _ hi, Core.mem_actives]

end Sys2Proof.Claims
end
